-- ==== Sys2Proof/Word.lean ====
section
/-! DEFINITION. The word types of the SP-7204 and their plainest arithmetic. -/

namespace Sys2Proof

/-- One byte (spec/02 R31). -/
abbrev Byte := BitVec 8
/-- A 16-bit field. -/
abbrev W16 := BitVec 16
/-- A 32-bit word: a Ganger instruction (spec/08 R231), a Tub element (spec/04 R99), a mark (spec/07 R210). -/
abbrev W32 := BitVec 32
/-- A 64-bit word: a Ganger scalar register (spec/07 R194). -/
abbrev W64 := BitVec 64
/-- A 128-bit engine instruction (spec/08 R231). -/
abbrev W128 := BitVec 128

/-- The code of a Ganger register field, s0 to s31 (spec/08 R234). -/
abbrev Reg := BitVec 5

end Sys2Proof
end

