-- ==== Sys2Proof/Fields.lean ====
section
/-! DEFINITION. The fixed sets of names and the operand records that commands carry. -/

namespace Sys2Proof

/-- FUNC of G.ALU (spec/08 R234). -/
inductive AluFn where
  | add | sub | and | or | xor | sll | srl | sra | slt | sltu | mul
  deriving DecidableEq, Repr

/-- KIND of G.SHI (spec/08 R234). -/
inductive ShKind where
  | sll | srl | sra
  deriving DecidableEq, Repr

/-- CC of G.B.cc (spec/08 R234). -/
inductive Cc where
  | eq | ne | lt | ge | ltu | geu
  deriving DecidableEq, Repr

/-- The value that G.WAIT compares with: an immediate or a register (spec/08 R236). -/
inductive WaitVal where
  | imm (v : BitVec 14)
  | reg (ra : Reg)
  deriving DecidableEq, Repr

/-- The five units with a status register (spec/07 R216), and the save area of a fault record (spec/10 R311). -/
inductive Engine where
  | ganger | lath | skimmer | trowel | moot | saveArea
  deriving DecidableEq, Repr

/-- The status codes 0x00 to 0x0F (spec/00 R7). -/
inductive Status where
  | ok | frozenTarget | tagRefused | adaptationWithdrawn | passAbortedFault | preempted
  | deadlinePartial | bankBusy | clamped | accessDenied | tallyMismatch
  | measurementInTransition | memberLost | watchdog | hazard | shapeMismatch
  deriving DecidableEq, Repr

/-- The roles of a session or an access column (spec/00 R6, spec/15 R441). -/
inductive Role where
  | m | f | o | t | a
  deriving DecidableEq, Repr

/-- The path an LMP or SPDM message arrives on (spec/16, section LMP). -/
inductive LmpPath where
  | management
  | inBand (port : Nat)
  deriving DecidableEq, Repr

/-- The requester of an SPDM KEY_EXCHANGE (spec/15 R441): whether it authenticated itself, the SHA-256 of its
public key, and whether its certificate chains to the Odtik root CA with the maker attribute. -/
structure Requester where
  mutualAuth : Bool
  keyDigest : Nat
  maker : Bool
  deriving DecidableEq, Repr

/-- The fuse of the device-unique seed (spec/15 R431, R434): blank, fused with a value, or overwritten with all ones. -/
inductive Seed where
  | blank
  | fused (n : Nat)
  | overwritten
  deriving DecidableEq, Repr, Inhabited

/-- A maker token (spec/15, section Life cycle): its 64-byte body's fields and its signature. -/
structure MakerToken where
  identity : Nat
  nonce : Nat
  target : Nat
  signature : Nat
  deriving DecidableEq, Repr

/-- A row tag (spec/06 R163): common, mixed, or one tenant's, with its sequence. -/
inductive Tag where
  | common
  | mixed
  | tenant (allotment : Nat) (sequence : Nat)
  deriving DecidableEq, Repr

/-- The link and routing fields of a flit that every kind carries (spec/13 R376), and whether the flit has taken an alternate link on
its way here, which R387 lets decide its further links and no field of the layout holds (log entry 33). -/
structure FlitHdr where
  seq : Nat
  ack : Nat
  cvc : Nat
  ccnt : Nat
  dest : Nat
  src : Nat
  vc : Nat
  household : Nat
  alt : Bool := false
  deriving DecidableEq, Repr

/-- The context fields of a MOOT flit (spec/14 R424). -/
structure MootCtx where
  pub : Bool
  level : Nat
  bslot : Nat
  deriving DecidableEq, Repr

/-- The OPEN body of a MOOT flit (spec/14 R424). -/
structure MootOpen where
  rollCall : Nat
  step : Nat
  samples : Nat
  bucket : Nat
  length : Nat
  faulty : Nat
  deriving DecidableEq, Repr

/-- The body of a HELLO flit (spec/13 R382). -/
structure Hello where
  digest : Nat
  house : Nat
  mode : Nat
  link : Nat
  epoch : Nat
  deriving DecidableEq, Repr

/-- One UP link of a topology entry: own link number, neighbour's digest and link number (spec/13 R383). -/
structure TopoLink where
  link : Nat
  neighbour : Nat
  neighbourLink : Nat
  deriving DecidableEq, Repr

/-- One device of a topology (spec/13 R383): digest, house number (0xFFFF while unassigned), epoch, UP links; and
the house numbers that a TOPOLOGY of the authority assigns (spec/13 R384), as (digest, house). -/
structure TopoEntry where
  digest : Nat
  house : Nat
  epoch : Nat
  links : List TopoLink
  assign : List (Nat × Nat)
  deriving DecidableEq, Repr

/-- The attributes that a party asks for on a page (spec/09 R258, R259). -/
structure PageAttrs where
  r : Bool
  w : Bool
  draw : Bool
  frozen : Bool
  tag : Bool
  scrub : Bool
  deriving DecidableEq, Repr

/-- What a page request asks (spec/09 R258, R259): map a page with attributes, change them, or unmap it. -/
inductive PageRequest where
  | map (attrs : PageAttrs)
  | change (attrs : PageAttrs)
  | unmap
  deriving DecidableEq, Repr

/-- What a memory event is (spec/04 R117, spec/09 R255, spec/10 R311): a started or executing operation of an engine reads a word with an
uncorrectable error, meets a page that was spilled or unmapped, or reads a word with a single error, which is corrected. -/
inductive FaultCause where
  | poison
  | pageRemoved
  | corrected
  deriving DecidableEq, Repr

/-- The event that takes a link DOWN (spec/13 R396). -/
inductive DownCause where
  | fecLost | helloMissed | resendFailed
  deriving DecidableEq, Repr

/-- The event that takes a power loss (spec/18 R509). -/
inductive PowerCause where
  | pwrOkFell | railOut
  deriving DecidableEq, Repr

/-- Why a received frame is dropped: the codes 0x01 to 0x05 of the table Host drop reasons (spec/17 R489). -/
inductive DropReason where
  | qpNotConnected | icvFailed | unprotected | notKeyed | unsupported
  | onChannel (sci an : Nat)
  | overlong
  deriving DecidableEq, Repr

/-- A protocol of the non-RoCE frames that a host port answers (spec/17 R488); an ICMP echo comes over IPv4 or IPv6. -/
inductive NonRoceKind where
  | arp | neighbourDiscovery | icmpEcho | icmpEchoV6
  deriving DecidableEq, Repr

/-- A non-RoCE frame: its protocol, the address that it asks for or is sent to, and its bytes. -/
structure NonRoce where
  kind : NonRoceKind
  target : Nat
  bytes : Nat
  deriving DecidableEq, Repr

/-- A transition that an Odtik test station makes (spec/15 R431). -/
inductive StationMove where
  | bareToPrimed (identity : Nat)
  | primedToFinished (token : MakerToken)
  | strippedToPrimed (identity : Nat)
  deriving DecidableEq, Repr

/-- The nine formats (spec/02 R27). -/
inductive Fmt where
  | cf4 | cf8 | bf16 | binary16 | binary32 | int4 | int8 | int16 | int32
  deriving DecidableEq, Repr

/-- The block kinds (spec/02 R28). -/
inductive Blk where
  | none | row16 | row32 | row64 | row128 | sq4 | sq8
  deriving DecidableEq, Repr

/-- The rounding modes (spec/02 R30, R46). -/
inductive RMode where
  | rne | rtz | sr
  deriving DecidableEq, Repr

end Sys2Proof
end

