-- ==== Sys2Proof/Config.lean ====
section
/-! DEFINITION. What an implementation fixes and the spec leaves open: the free values. Each is a constant with no
body, so that no proof can see its value (log entries 2 and 9). Where a value is drawn afresh, it is applied to the
counter State.freeCtr, which the step advances. -/

namespace Sys2Proof.Config

/-- A fresh byte: the bytes that an overlapping T.COPY leaves (spec/09 R272). -/
opaque freeByte : Nat → Byte
/-- A fresh number: how many bytes or elements a stopped operation has written (spec/10 R311, R314), a nonce
(spec/15 R433), an R_Key (spec/17 R491), a measurement of current or voltage (spec/18). -/
opaque freeNat : Nat → Nat
/-- A fresh choice: the arbiter's grant at a tie (spec/14 R421), true when the arrival wins. -/
opaque freeBool : Nat → Bool
/-- The result of a transcendental function where the enclosure of log entry 13 does not decide its rounding. -/
opaque undecided : Nat → Nat → Nat
/-- The verdict of SLH-DSA verification of a message under a fused key (spec/15, table Key roles): key role, message
digest, signature. -/
opaque slhDsaVerify : Nat → Nat → Nat → Bool
/-- The target code of a maker token for debug (spec/15 R432): the spec gives it no code. -/
opaque debugTarget : Nat
/-- The SPDM export master secret of a session (spec/15 R455), 256 bits. -/
opaque exportSecret : Nat → Nat
/-- The digest of the running image of firmware component i, 0x01 to 0x05 (spec/15 R440, R444). -/
opaque componentDigest : Nat → Nat
/-- The security version number of the running image of component i (spec/15 R437). -/
opaque componentSvn : Nat → Nat
/-- What the verification of a firmware image yields (spec/16 R479): for a component and the image's bytes as a
number and its length, the SVN that a correctly signed image of that component carries, or none. -/
opaque imageSvn : Nat → Nat → Nat → Option Nat
/-- The fused serial number (spec/16, table Identity and revision). -/
opaque serialNumber : Nat
/-- The fused MAC address of host port 0-3, and 4 for the management port (spec/16, spec/17). -/
opaque macAddress : Nat → Nat
/-- How many codewords the FEC of a link has corrected with the flit of a SEQ that comes at a time (spec/13 R399, 0x21ll.06). -/
opaque fecCorrected : Nat → Nat → Nat → Nat
/-- The bodies of TOPOLOGY, OPEN and DONE flits: the spec names what they carry and gives it no bits (spec/13, table Flit
kinds). -/
opaque topologyBody : TopoEntry → List Byte
opaque openBody : Nat → Option (Nat × Nat) → List Byte
opaque doneBody : Nat → Status → List Byte
/-- The steps of a tick of the timer, on a core, in which the Ganger stalled (3) or an engine waited for Loft (7), for the counts of
spec/16 R468, .03 and .07: how long something waits is timing. -/
opaque waitSteps : Nat → Nat → Nat → Nat
/-- The port to which a completion's drop is counted whose queue pair number is connected on none, at a time (spec/17 R499). -/
opaque absentPort : Nat → Nat → Nat
/-- The identity digest of the device: the SHA-256 of its identity public key (spec/15, table Key roles). -/
opaque identityDigest : Nat
/-- The device-unique seed that a delivered part has fused (spec/15, section Life cycle). -/
opaque deviceSeed : Nat
/-- The signature of a message digest under the identity key that a fused seed gives: 17,088 bytes (spec/15 R436). -/
opaque identitySign : Seed → Nat → BitVec 136704

end Sys2Proof.Config
end

