-- ==== Sys2Proof/Machine/Bits.lean ====
section
/-! DEFINITION. Bit fields, byte order and tables keyed by a number. -/

namespace Sys2Proof.Machine

/-- Bits [hi:lo] of a number (spec/00, section Notation: ranges are written msb first). -/
def fld (x hi lo : Nat) : Nat := x / 2 ^ lo % 2 ^ (hi + 1 - lo)

/-- Bit [i] of a number. -/
def bitAt (x i : Nat) : Bool := x / 2 ^ i % 2 == 1

/-- A Bool as bit 0 or 1. -/
def b2n (b : Bool) : Nat := if b then 1 else 0

/-- An n-bit two's-complement field as an integer. -/
def sext (n x : Nat) : Int := if x % 2 ^ n < 2 ^ (n - 1) then (x % 2 ^ n : Nat) else (x % 2 ^ n : Nat) - (2 ^ n : Nat)

/-- An integer modulo 2^n, as the n-bit two's-complement field. -/
def wrapNat (n : Nat) (x : Int) : Nat := (x % (2 ^ n : Nat)).toNat

/-- n bytes of a number, little-endian (spec/02 R31, spec/08 R231). -/
def leBytes : Nat → Nat → List Byte
  | 0, _ => []
  | n + 1, x => BitVec.ofNat 8 x :: leBytes n (x / 256)

/-- The number that bytes hold, little-endian. -/
def ofLe : List Byte → Nat
  | [] => 0
  | b :: bs => b.toNat + 256 * ofLe bs

/-- Rounding up to a multiple. -/
def ceilDiv (a b : Nat) : Nat := (a + b - 1) / b

/-- A table keyed by a number: pairs in rising order of key. -/
abbrev Tbl (α : Type) := List (Nat × α)

/-- The entry of key k, if there is one. -/
def Tbl.find {α : Type} : Tbl α → Nat → Option α
  | [], _ => none
  | (k, v) :: t, a => if k = a then some v else Tbl.find t a

/-- The entry of key a, or d. -/
def Tbl.get {α : Type} (d : α) (t : Tbl α) (a : Nat) : α := (t.find a).getD d

/-- The table with the entry of key a set to v. -/
def Tbl.set {α : Type} : Tbl α → Nat → α → Tbl α
  | [], a, v => [(a, v)]
  | (k, w) :: t, a, v =>
    if a < k then (a, v) :: (k, w) :: t else if k = a then (a, v) :: t else (k, w) :: Tbl.set t a v

/-- The table without the entry of key a. -/
def Tbl.erase {α : Type} : Tbl α → Nat → Tbl α
  | [], _ => []
  | (k, w) :: t, a => if k = a then Tbl.erase t a else (k, w) :: Tbl.erase t a

/-- The table with the entry of key a changed by f, the default being d. -/
def Tbl.modify {α : Type} (d : α) (t : Tbl α) (a : Nat) (f : α → α) : Tbl α := t.set a (f (t.get d a))

/-- The keys. -/
def Tbl.keys {α : Type} (t : Tbl α) : List Nat := t.map Prod.fst

/-- The table without the entries whose key a test picks. -/
def Tbl.drop {α : Type} (t : Tbl α) (p : Nat → Bool) : Tbl α := t.filter (fun e => !p e.1)

/-- The smallest number from n upward that a rising list of numbers does not hold. -/
def lowestFree : List Nat → Nat → Nat
  | [], n => n
  | k :: t, n => if k < n then lowestFree t n else if k = n then lowestFree t (n + 1) else n

/-- A number put into a rising list without repeats. -/
def insertNat : List Nat → Nat → List Nat
  | [], a => [a]
  | k :: t, a => if a < k then a :: k :: t else if k = a then k :: t else k :: insertNat t a

end Sys2Proof.Machine
end

