-- ==== Sys2Proof/Machine/Hash.lean ====
section
/-! DEFINITION. CRC-32C and its prefix word (spec/09 R278, R279; spec/13 R376), SHA-256 (the digests of spec/15 and spec/16) and HKDF-Expand
with SHA-256 (spec/15 R455). -/

namespace Sys2Proof.Machine

/-! ### CRC-32C -/

/-- Eight shifts of the reflected register, polynomial 0x1EDC_6F41 reflected. -/
def crcShift : Nat → Nat → Nat
  | 0, r => r
  | n + 1, r => crcShift n (if r % 2 = 1 then Nat.xor (r / 2) 0x82F63B78 else r / 2)

/-- Absorbing one byte, least significant bit first. -/
def crcByte (r : Nat) (b : Byte) : Nat := crcShift 8 (Nat.xor r b.toNat)

/-- Absorbing bytes into a register. -/
def crcBytes (r : Nat) (bs : List Byte) : Nat := bs.foldl crcByte r

/-- The value reported: the register after the final XOR (spec/09 R278). -/
def crcValue (r : Nat) : W32 := BitVec.ofNat 32 (Nat.xor r 0xFFFFFFFF)

/-- The prefix word allotment | (F << 8) as eight bytes (spec/09 R279). -/
def tallyHead (allotment f : Nat) : List Byte := leBytes 8 (allotment % 256 + f * 256)

/-- The Tally of bytes under the prefix of an allotment and F (spec/09 R278, R279). -/
def tally (allotment f : Nat) (bs : List Byte) : W32 := crcValue (crcBytes (crcBytes 0xFFFFFFFF (tallyHead allotment f)) bs)

/-- F in sequence form: bit 55 set and a sequence number (spec/09 R279). -/
def seqForm (n : Nat) : Nat := 2 ^ 55 + n % 2 ^ 55

/-- CRC-32C with no prefix word (spec/13 R376: the link CRC). -/
def crc32c (bs : List Byte) : W32 := crcValue (crcBytes 0xFFFFFFFF bs)

/-! ### SHA-256 (FIPS 180-4, named by spec/15 R435) -/

/-- The largest r below (r0 + 1) * 2 ^ n, built from r0 bit by bit, whose power e does not exceed x. -/
def rootBelow (e x : Nat) : Nat → Nat → Nat
  | 0, r => r
  | n + 1, r => rootBelow e x n (if (r + 2 ^ n) ^ e ≤ x then r + 2 ^ n else r)

/-- The first 32 bits of the fractional part of the e-th root of p (a root below 32). -/
def rootFraction (e p : Nat) : Nat := rootBelow e (p * 2 ^ (32 * e)) 37 0 % 2 ^ 32

/-- The primes below 312, whose roots give the constants of FIPS 180-4. -/
def primes64 : List Nat :=
  [2, 3, 5, 7, 11, 13, 17, 19, 23, 29, 31, 37, 41, 43, 47, 53, 59, 61, 67, 71, 73, 79] ++
  [83, 89, 97, 101, 103, 107, 109, 113, 127, 131, 137, 139, 149, 151, 157, 163, 167, 173, 179, 181, 191] ++
  [193, 197, 199, 211, 223, 227, 229, 233, 239, 241, 251, 257, 263, 269, 271, 277, 281, 283, 293, 307, 311]

/-- The round constants, from the cube roots of the first 64 primes. -/
def shaK : List Nat := primes64.map (rootFraction 3)

/-- The initial hash words, from the square roots of the first 8 primes. -/
def shaInit : List Nat := (primes64.take 8).map (rootFraction 2)

/-- Rotation right of a 32-bit word. -/
def rotr (n x : Nat) : Nat := x / 2 ^ n + x % 2 ^ n * 2 ^ (32 - n)

/-- The message schedule grows by one word: the last sixteen words, newest first. -/
def shaNextW (w : List Nat) : Nat :=
  let w2 := w.getD 1 0
  let w15 := w.getD 14 0
  let s0 := Nat.xor (Nat.xor (rotr 7 w15) (rotr 18 w15)) (w15 / 8)
  let s1 := Nat.xor (Nat.xor (rotr 17 w2) (rotr 19 w2)) (w2 / 1024)
  (s1 + w.getD 6 0 + s0 + w.getD 15 0) % 2 ^ 32

/-- n further schedule words, newest first. -/
def shaSchedule : Nat → List Nat → List Nat
  | 0, w => w
  | n + 1, w => shaSchedule n (shaNextW w :: w)

/-- One round on the eight working words. -/
def shaRound (v : List Nat) (kw : Nat × Nat) : List Nat :=
  match v with
  | [a, b, c, d, e, f, g, h] =>
    let s1 := Nat.xor (Nat.xor (rotr 6 e) (rotr 11 e)) (rotr 25 e)
    let ch := Nat.xor (Nat.land e f) (Nat.land (0xFFFFFFFF - e) g)
    let t1 := h + s1 + ch + kw.1 + kw.2
    let s0 := Nat.xor (Nat.xor (rotr 2 a) (rotr 13 a)) (rotr 22 a)
    let maj := Nat.xor (Nat.xor (Nat.land a b) (Nat.land a c)) (Nat.land b c)
    [(t1 + s0 + maj) % 2 ^ 32, a, b, c, (d + t1) % 2 ^ 32, e, f, g]
  | _ => v

/-- Four bytes as a big-endian word. -/
def beWord (bs : List Byte) : Nat := bs.foldl (fun x b => x * 256 + b.toNat) 0

/-- The words of a block, first to last. -/
def beWords : Nat → List Byte → List Nat
  | 0, _ => []
  | n + 1, bs => beWord (bs.take 4) :: beWords n (bs.drop 4)

/-- The compression of one 64-byte block. -/
def shaBlock (h : List Nat) (block : List Byte) : List Nat :=
  let w := (shaSchedule 48 (beWords 16 block).reverse).reverse
  let v := (shaK.zip w).foldl shaRound h
  (h.zip v).map (fun p => (p.1 + p.2) % 2 ^ 32)

/-- The compression of n blocks in order. -/
def shaBlocks : Nat → List Nat → List Byte → List Nat
  | 0, h, _ => h
  | n + 1, h, bs => shaBlocks n (shaBlock h (bs.take 64)) (bs.drop 64)

/-- A number as n big-endian bytes. -/
def beBytes (n x : Nat) : List Byte := (leBytes n x).reverse

/-- SHA-256 of bytes, as its 32 bytes. -/
def sha256 (m : List Byte) : List Byte :=
  let pad := (119 - m.length % 64) % 64
  let padded := m ++ [0x80] ++ List.replicate pad 0 ++ beBytes 8 (8 * m.length)
  ((shaBlocks (padded.length / 64) shaInit padded).map (beBytes 4)).flatten

/-- SHA-256 of bytes as a little-endian number, the form of an OCTETS[32] value. -/
def sha256Nat (m : List Byte) : Nat := ofLe (sha256 m)

/-- HMAC with SHA-256 (RFC 2104, named by spec/15 R455 through HKDF); the key has at most 64 bytes. -/
def hmac256 (key msg : List Byte) : List Byte :=
  let k := key ++ List.replicate (64 - key.length) 0
  sha256 (k.map (· ^^^ 0x5C) ++ sha256 (k.map (· ^^^ 0x36) ++ msg))

/-- HKDF-Expand with SHA-256 and an output of 44 bytes (spec/15 R455). -/
def hkdf44 (prk info : List Byte) : List Byte :=
  let t1 := hmac256 prk (info ++ [1])
  (t1 ++ hmac256 prk (t1 ++ info ++ [2])).take 44

end Sys2Proof.Machine
end

