-- ==== Sys2Proof/Machine/Num.lean ====
section
/-! DEFINITION. Number formats, decoding, rounding and conversion, bit for bit (spec/02). -/

namespace Sys2Proof

/-- Element bits (spec/02 R27). -/
def Fmt.bits : Fmt → Nat
  | .cf4 | .int4 => 4 | .cf8 | .int8 => 8 | .bf16 | .binary16 | .int16 => 16 | .binary32 | .int32 => 32

/-- Whether a format carries block scales (spec/02 R27). -/
def Fmt.isCf : Fmt → Bool
  | .cf4 | .cf8 => true
  | _ => false

/-- Whether a format is an integer format (spec/02 R38). -/
def Fmt.isInt : Fmt → Bool
  | .int4 | .int8 | .int16 | .int32 => true
  | _ => false

/-- The extent of a block along a row of the tensor: a row block's length or a square's side (spec/02 R28). -/
def Blk.width : Blk → Nat
  | .none => 1 | .row16 => 16 | .row32 => 32 | .row64 => 64 | .row128 => 128 | .sq4 => 4 | .sq8 => 8

/-- The number of rows a block covers. -/
def Blk.height : Blk → Nat
  | .sq4 => 4 | .sq8 => 8 | _ => 1

/-- Whether a block kind is square. -/
def Blk.isSquare : Blk → Bool
  | .sq4 | .sq8 => true
  | _ => false

/-- The canonical NaN of a format (spec/02 R37). -/
def Fmt.canonNan : Fmt → Nat
  | .cf4 => 0x8 | .cf8 => 0x80 | .bf16 => 0x7FC0 | .binary16 => 0x7E00 | .binary32 => 0x7FC00000 | _ => 0

/-- The shape of a float format: precision, exponent of the smallest spacing, code of the largest finite magnitude. -/
structure FloatShape where
  p : Nat
  qmin : Int
  maxCode : Nat
  deriving DecidableEq, Repr

/-- The float formats (spec/02 R34 to R36). Integers take no part. -/
def Fmt.shape : Fmt → FloatShape
  | .cf4 => ⟨2, -1, 0x7⟩
  | .cf8 => ⟨4, -9, 0x7F⟩
  | .bf16 => ⟨8, -133, 0x7F7F⟩
  | .binary16 => ⟨11, -24, 0x7BFF⟩
  | _ => ⟨24, -149, 0x7F7FFFFF⟩

end Sys2Proof

namespace Sys2Proof.Machine

/-- The format of a code (spec/02 R27); 0x9 to 0xF are reserved. -/
def fmtOf : Nat → Option Fmt
  | 0 => some .cf4 | 1 => some .cf8 | 2 => some .bf16 | 3 => some .binary16 | 4 => some .binary32
  | 5 => some .int4 | 6 => some .int8 | 7 => some .int16 | 8 => some .int32 | _ => none

/-- The block kind of a code (spec/02 R28); 0b111 is reserved. -/
def blkOf : Nat → Option Blk
  | 0 => some .none | 1 => some .row16 | 2 => some .row32 | 3 => some .row64 | 4 => some .row128
  | 5 => some .sq4 | 6 => some .sq8 | _ => none

/-- The rounding mode of a code (spec/02 R30); 0b11 is reserved. -/
def rmodeOf : Nat → Option RMode
  | 0 => some .rne | 1 => some .rtz | 2 => some .sr | _ => none

/-- A format and a block kind agree (spec/02 R29). -/
def fmtBlkOk (f : Fmt) (b : Blk) : Bool := f.isCf == (b != .none)

/-! ### Exact values -/

/-- An exact dyadic value with a signed zero: (-1)^neg * mag * 2^exp. -/
structure Dy where
  neg : Bool
  mag : Nat
  exp : Int
  deriving DecidableEq, Repr

/-- An operand's value: a NaN, an infinity or an exact finite value (spec/02 R36, R37). -/
inductive Val where
  | nan
  | inf (neg : Bool)
  | fin (d : Dy)
  deriving DecidableEq, Repr

/-- An exact result that is to be rounded: a NaN, an infinity, or (-1)^neg * num / den. -/
inductive Exact where
  | nan
  | inf (neg : Bool)
  | rat (neg : Bool) (num den : Nat)
  deriving DecidableEq, Repr

/-- 2^e as a numerator and a denominator. -/
def pow2Num (e : Int) : Nat := 2 ^ e.toNat
def pow2Den (e : Int) : Nat := 2 ^ (-e).toNat

/-- The exact result that a value is. -/
def Val.exact : Val → Exact
  | .nan => .nan
  | .inf s => .inf s
  | .fin d => .rat d.neg (d.mag * pow2Num d.exp) (pow2Den d.exp)

/-- The integer that a dyadic value is in units of 2^e, for e at most its own exponent. -/
def Dy.units (d : Dy) (e : Int) : Int :=
  let m : Int := (d.mag * 2 ^ (d.exp - e).toNat : Nat)
  if d.neg then -m else m

/-- The dyadic value of an integer in units of 2^e; z is the sign of a zero. -/
def Dy.ofUnits (z : Bool) (i e : Int) : Dy := ⟨if i = 0 then z else i < 0, i.natAbs, e⟩

/-- Exact product. -/
def Dy.mul (a b : Dy) : Dy := ⟨a.neg != b.neg, a.mag * b.mag, a.exp + b.exp⟩

/-- Exact sum; an exact zero is negative only when both terms are (IEEE 754 under RNE, spec/03 R69). -/
def Dy.add (a b : Dy) : Dy :=
  let e := min a.exp b.exp
  Dy.ofUnits (a.neg && b.neg) (a.units e + b.units e) e

def Dy.negate (a : Dy) : Dy := { a with neg := !a.neg }

/-- The value of an integer. -/
def Dy.ofInt (i : Int) : Dy := Dy.ofUnits false i 0

/-- Numeric comparison of finite values: a < b. -/
def Dy.lt (a b : Dy) : Bool :=
  let e := min a.exp b.exp
  a.units e < b.units e

/-- floor(log2(num / den)) for a positive ratio. -/
def floorLog2 (num den : Nat) : Int :=
  let l : Int := (Nat.log2 num : Int) - (Nat.log2 den : Int)
  if den * pow2Num l ≤ num * pow2Den l then l else l - 1

/-! ### Decoding -/

/-- The magnitude that a float code without its sign bit holds, before any block scale: code = (q - qmin) * 2^(p-1) + n. -/
def magOf (sh : FloatShape) (neg : Bool) (c : Nat) : Dy :=
  let f := c / 2 ^ (sh.p - 1)
  if f = 0 then ⟨neg, c, sh.qmin⟩ else ⟨neg, c % 2 ^ (sh.p - 1) + 2 ^ (sh.p - 1), sh.qmin + (f - 1 : Nat)⟩

/-- The value of an element code without block scale (spec/02 R34 to R38). -/
def decodeElem (f : Fmt) (c : Nat) : Val :=
  match f with
  | .cf4 => if c = 0x8 then .nan else .fin (magOf f.shape (bitAt c 3) (c % 8))
  | .cf8 => if c = 0x80 then .nan else .fin (magOf f.shape (bitAt c 7) (c % 128))
  | .int4 | .int8 | .int16 | .int32 => .fin (Dy.ofInt (sext f.bits c))
  | _ =>
    let w := f.bits
    let neg := bitAt c (w - 1)
    let m := c % 2 ^ (w - 1)
    if m = f.shape.maxCode + 1 then .inf neg
    else if f.shape.maxCode < m then .nan
    else .fin (magOf f.shape neg m)

/-- The value of an element under its block's scale code (spec/02 R39, R40). -/
def decodeScaled (f : Fmt) (scale c : Nat) : Val :=
  if scale = 0xFF then .nan
  else match decodeElem f c with
    | .fin d => .fin { d with exp := d.exp + ((scale : Int) - 127) }
    | v => v

/-! ### Rounding -/

/-- A rounding to a multiple of 2^q (spec/02 R46, R49): the multiple n, for a magnitude num / den. r24 is the top 24 bits
of the element's random word, used under SR only. -/
def roundUnits (m : RMode) (r24 num den : Nat) (q : Int) : Nat :=
  let a := num * pow2Den q
  let b := den * pow2Num q
  let n := a / b
  let rem := a % b
  match m with
  | .rtz => n
  | .rne => if b < 2 * rem || (2 * rem = b && n % 2 = 1) then n + 1 else n
  | .sr => if r24 < rem * 2 ^ 24 / b then n + 1 else n

/-- The numeric counters of an allotment (spec/12 R362). -/
structure Ev where
  zeroBlocks : Nat := 0
  flushed : Nat := 0
  saturations : Nat := 0
  invalid : Nat := 0
  propagated : Nat := 0
  infinities : Nat := 0
  tagRefusals : Nat := 0
  remnant : Nat := 0
  deriving DecidableEq, Repr

def Ev.add (a b : Ev) : Ev :=
  ⟨a.zeroBlocks + b.zeroBlocks, a.flushed + b.flushed, a.saturations + b.saturations, a.invalid + b.invalid,
    a.propagated + b.propagated, a.infinities + b.infinities, a.tagRefusals + b.tagRefusals, a.remnant + b.remnant⟩

def Ev.sum (l : List Ev) : Ev := l.foldl Ev.add {}

/-- The code with its sign bit. -/
def withSign (f : Fmt) (neg : Bool) (c : Nat) : Nat := if neg then c + 2 ^ (f.bits - 1) else c

/-- One rounding of a finite magnitude into a float format, without block scale (spec/02 R44, R46 to R48). -/
def roundFloat (f : Fmt) (m : RMode) (r24 : Nat) (neg : Bool) (num den : Nat) : Nat × Ev :=
  if num = 0 then (if f.isCf then 0 else withSign f neg 0, {})
  else
    let sh := f.shape
    let q := max (floorLog2 num den - (sh.p - 1 : Nat)) sh.qmin
    let n := roundUnits m r24 num den q
    let c := (q - sh.qmin).toNat * 2 ^ (sh.p - 1) + n
    if n = 0 then (if f.isCf then 0 else withSign f neg 0, { flushed := 1 })
    else if c ≤ sh.maxCode then
      -- under SR an IEEE value above the maximum that R49 brings down to it is a saturation (R47)
      let above := !f.isCf && m == .sr && c == sh.maxCode && decide (n * (den * pow2Num q) < num * pow2Den q)
      (withSign f neg c, if above then { saturations := 1 } else {})
    else if f.isCf || m == .rtz then (withSign f neg sh.maxCode, { saturations := 1 })
    else (withSign f neg (sh.maxCode + 1), { infinities := 1 })

/-- Placing an exact integer into an n-bit integer format by the policy: false saturate, true wrap (spec/02 R57). -/
def placeInt (f : Fmt) (wrap : Bool) (x : Int) : Nat × Ev :=
  let n := f.bits
  let top : Int := (2 ^ (n - 1) : Nat)
  if wrap then (wrapNat n x, {})
  else if x < -top then (wrapNat n (-top), { saturations := 1 })
  else if top - 1 < x then (wrapNat n (top - 1), { saturations := 1 })
  else (wrapNat n x, {})

/-- One conversion of an exact result into a format without block scales (spec/02 R54 to R57). -/
def convert (f : Fmt) (m : RMode) (wrap : Bool) (r24 : Nat) : Exact → Nat × Ev
  | .nan => if f.isInt then (0, { invalid := 1 }) else (f.canonNan, { propagated := 1 })
  | .inf neg =>
    if f.isInt then
      (wrapNat f.bits (if neg then -(2 ^ (f.bits - 1) : Nat) else (2 ^ (f.bits - 1) : Nat) - 1), { saturations := 1 })
    else if f.isCf then (f.canonNan, { invalid := 1 })
    else (withSign f neg (f.shape.maxCode + 1), {})
  | .rat neg num den =>
    if f.isInt then
      let n : Int := (roundUnits m r24 num den 0 : Nat)
      placeInt f wrap (if neg then -n else n)
    else roundFloat f m r24 neg num den

/-- The magnitude of a finite exact value, as a ratio. -/
def Exact.mag? : Exact → Option (Nat × Nat)
  | .rat _ n d => some (n, d)
  | _ => none

/-- The larger of two ratios. -/
def maxRatio (a b : Nat × Nat) : Nat × Nat := if a.1 * b.2 < b.1 * a.2 then b else a

/-- The scale exponent s of a block with a finite element (spec/02 R42): emax is 2 for CF4 and 8 for CF8. -/
def blockExp (f : Fmt) (m : Nat × Nat) : Int :=
  let emax : Int := if f = .cf4 then 2 else 8
  if m.1 = 0 then -127 else max (-127) (min 127 (floorLog2 m.1 m.2 - emax))

/-- An event of a whole row or block counted with its first element. -/
def headEv (e : Ev) : List Ev → List Ev
  | [] => [e]
  | x :: t => x.add e :: t

/-- write_block of spec/02 R42: the scale byte and the codes of one block, with the counts of R60 by element; a zero-block
counts with the first. Each element comes with its random r24. -/
def writeBlock (f : Fmt) (m : RMode) (xs : List (Exact × Nat)) : Nat × List Nat × List Ev :=
  let mags := xs.filterMap (fun x => x.1.mag?)
  let special : Exact → Nat × Ev := fun x => convert f m false 0 x
  match mags with
  | [] => (0xFF, xs.map (fun _ => f.canonNan), xs.map (fun x => (special x.1).2))
  | m0 :: ms =>
    let big := ms.foldl maxRatio m0
    let s := blockExp f big
    let rs := xs.map (fun x => match x.1 with
      | .rat neg num den => roundFloat f m x.2 neg (num * pow2Den s) (den * pow2Num s)
      | e => special e)
    let codes := rs.map Prod.fst
    let evs := rs.map Prod.snd
    if codes.all (· == 0) then (0, codes, headEv { zeroBlocks := 1 } evs)
    else ((s + 127).toNat, codes, evs)

/-! ### binary32 arithmetic used by every engine (spec/03 R69, spec/06 R173) -/

/-- The value of a binary32 code. -/
def f32 (w : W32) : Val := decodeElem .binary32 w.toNat

/-- Exact IEEE sum of two values; none for infinity minus infinity (an invalid operation). -/
def Val.addE : Val → Val → Option Val
  | .nan, _ => some .nan
  | _, .nan => some .nan
  | .inf a, .inf b => if a = b then some (.inf a) else none
  | .inf a, .fin _ => some (.inf a)
  | .fin _, .inf b => some (.inf b)
  | .fin a, .fin b => some (.fin (a.add b))

/-- Exact IEEE product of two values; none for 0 times infinity. -/
def Val.mulE : Val → Val → Option Val
  | .nan, _ => some .nan
  | _, .nan => some .nan
  | .inf a, .inf b => some (.inf (a != b))
  | .inf a, .fin d => if d.mag = 0 then none else some (.inf (a != d.neg))
  | .fin d, .inf a => if d.mag = 0 then none else some (.inf (a != d.neg))
  | .fin a, .fin b => some (.fin (a.mul b))

/-- One rounding of an exact value into binary32 under RNE. -/
def toF32 (v : Val) : W32 × Ev :=
  let r := convert .binary32 .rne false 0 v.exact
  (BitVec.ofNat 32 r.1, r.2)

/-- The canonical binary32 NaN (spec/02 R37). -/
def nan32 : W32 := 0x7FC00000

/-- add_rne_binary32 (spec/03 R69). A NaN result counts as propagated when an operand is NaN, else as invalid. -/
def addF32 (a b : W32) : W32 × Ev :=
  match (f32 a).addE (f32 b) with
  | none => (nan32, { invalid := 1 })
  | some v => toF32 v

/-- The product of two binary32 values rounded once under RNE. -/
def mulF32 (a b : W32) : W32 × Ev :=
  match (f32 a).mulE (f32 b) with
  | none => (nan32, { invalid := 1 })
  | some v => toF32 v

end Sys2Proof.Machine
end

