-- ==== Sys2Proof/Syntax.lean ====
section
/-! DEFINITION. The commands of the SP-7204 as a block: one constructor for each row of spec/opcode_table.json, in
the table's order. The table gives the rows no operand fields; the operands are the model's (log entry 1). -/

namespace Sys2Proof

/-- A command. core is a physical core number (spec/01 R12), a an allotment number (spec/10 R284), sess an LMP
session's number (spec/15 R441), g a Moot group slot (spec/14 R401), b a bucket's slot number (mod 256, R411),
h a Larder handle (spec/11 R324), l a fabric link (spec/01 R11), p a host port, qp a queue pair number. -/
inductive Instr where
  -- Ganger instructions (spec/08 R234)
  | gAlu (core : Nat) (rd ra rb : Reg) (fn : AluFn)
  | gAddi (core : Nat) (rd ra : Reg) (imm : W16)
  | gAndi (core : Nat) (rd ra : Reg) (imm : W16)
  | gOri (core : Nat) (rd ra : Reg) (imm : W16)
  | gXori (core : Nat) (rd ra : Reg) (imm : W16)
  | gShi (core : Nat) (rd ra : Reg) (kind : ShKind) (amount : BitVec 6)
  | gSlti (core : Nat) (rd ra : Reg) (imm : W16)
  | gMovk (core : Nat) (rd : Reg) (lane : BitVec 2) (imm : W16)
  | gLdB (core : Nat) (rd ra : Reg) (off : W16)
  | gLdH (core : Nat) (rd ra : Reg) (off : W16)
  | gLdW (core : Nat) (rd ra : Reg) (off : W16)
  | gLdD (core : Nat) (rd ra : Reg) (off : W16)
  | gStB (core : Nat) (rs ra : Reg) (off : W16)
  | gStH (core : Nat) (rs ra : Reg) (off : W16)
  | gStW (core : Nat) (rs ra : Reg) (off : W16)
  | gStD (core : Nat) (rs ra : Reg) (off : W16)
  | gNld (core : Nat) (nest : BitVec 3) (ra : Reg) (off : W16)
  | gBCc (core : Nat) (cc : Cc) (ra rb : Reg) (off : BitVec 13)
  | gJ (core : Nat) (off : BitVec 26)
  | gLoop (core : Nat) (rc : Reg) (endOff : W16)
  | gBrk (core : Nat)
  | gWait (core : Nat) (mark : BitVec 6) (v : WaitVal)
  | gMset (core : Nat) (mark : BitVec 6) (ra : Reg)
  | gMrd (core : Nat) (rd : Reg) (mark : BitVec 6)
  | gEsc (core : Nat) (rd : Reg) (engine : Engine)
  | gPring (core : Nat) (ra : Reg)
  | gProvOpen (core : Nat) (epoch : BitVec 2)
  | gProvConfirm (core : Nat) (epoch : BitVec 2)
  | gProvCancel (core : Nat) (epoch : BitVec 2)
  | gTallyB (core : Nat) (ra : Reg)
  | gTallyH (core : Nat) (ra : Reg)
  | gTallyW (core : Nat) (ra : Reg)
  | gTallyS (core : Nat) (ra : Reg)
  | gTallyR (core : Nat) (rd : Reg)
  | gTime (core : Nat) (rd : Reg)
  | gPost (core : Nat) (ra : Reg)
  | gSwap (core : Nat) (ra : Reg)
  | gHalt (core : Nat)
  | gAddr (core : Nat) (rb ri : Reg) (shift : BitVec 4)
  | gAddr2 (core : Nat) (rb ri : Reg) (shift : BitVec 4)
  | gangerIllegalWord (core : Nat)
  | bankFetchPastImage (core : Nat)
  | coreHaltComplete (core : Nat)
  -- issue of engine instructions (spec/08, sections Lath, Skimmer, Trowel and Moot operations)
  | lLoad (core : Nat) (w : W128)
  | lLoadT (core : Nat) (w : W128)
  | lPass (core : Nat) (w : W128)
  | lPasso (core : Nat) (w : W128)
  | lSplit (core : Nat) (w : W128)
  | sCvt (core : Nat) (w : W128)
  | sFma (core : Nat) (w : W128)
  | sExp (core : Nat) (w : W128)
  | sSmax (core : Nat) (w : W128)
  | sTopk (core : Nat) (w : W128)
  | sRed (core : Nat) (w : W128)
  | tCopy (core : Nat) (w : W128)
  | tGather (core : Nat) (w : W128)
  | tScatter (core : Nat) (w : W128)
  | mContrib (core : Nat) (w : W128)
  | mPublish (core : Nat) (w : W128)
  -- inside the engines (spec/04-06, 09, 14)
  | lathQueueHead (core : Nat)
  | loadStart (core : Nat)
  | loadDone (core : Nat)
  | passStart (core : Nat) (chainWait : Bool)
  | passCommit (core : Nat)
  | splitApply (core : Nat)
  | passoStart (core : Nat)
  | osChunkReady (core : Nat)
  | skimmerQueueHead (core : Nat)
  | skimmerOpComplete (core : Nat)
  | transferCheck (core : Nat)
  | gatherRowMove (a core : Nat)
  | trowelOpComplete (a core : Nat)
  | provRangesRelease (a core : Nat) (epoch : BitVec 2)
  -- the Moot (spec/14)
  | mootQueueHead (core : Nat)
  | contribReadDone (a core : Nat)
  | nodeDeadlineExpiry (g b level : Nat)
  | partialCloseArrival (l : Nat) (hdr : FlitHdr) (ctx : MootCtx) (tally : W32)
  | bucketLanding (g b : Nat)
  | deferredLanding (g b : Nat)
  | publishStart (a core : Nat)
  | shardArrival (l : Nat) (hdr : FlitHdr) (ctx : MootCtx) (tally : W32)
  | failFlitArrival (l : Nat) (hdr : FlitHdr) (ctx : MootCtx)
  | groupLost (g house : Nat)
  | mootGroupApply (sess g : Nat)
  -- commands, the Crier and the Carter (spec/07, 09, 17)
  | bankLoad (a stream core : Nat)
  | bankLoadComplete (a core bank : Nat)
  | start (a stream core : Nat)
  | stream (a stream core : Nat)
  | halt (a stream core : Nat)
  | crierTakeRecord (a stream : Nat)
  | doorbellWrite (qp stream : Nat) (d : W64)
  | completionConsumedWrite (qp stream : Nat) (n : W64)
  | carterJob (a stream : Nat)
  | carterBlockDone (job : Nat) (remote : List Byte)
  -- the Green (spec/10)
  | submit (a : Nat)
  | retirePoll
  | tagMapStoreApply (a core : Nat)
  | greenApply (sess : Nat)
  -- allotments, switching, faults, meters (spec/10)
  | allotmentApply (sess n : Nat)
  | allotmentReset (sess n : Nat)
  | turnEnd (core : Nat)
  | switchOut (core : Nat)
  | switchRestore (core : Nat)
  | budgetReached (n : Nat)
  | budgetWindow
  | watchdogExpiry (n : Nat)
  | fault (a core : Nat) (engine : Engine) (cause : FaultCause) (va : BitVec 48)
  | coreMeterTick (n core : Nat)
  | hbmMeterTick (n : Nat)
  -- pages (spec/09)
  | pageAttributeRequest (sess n : Nat) (va : BitVec 48) (req : PageRequest)
  | rightRemovalApply (i : Nat)
  | pageSpill (a core page : Nat)
  | pageReturn (a core page : Nat)
  -- the Larder (spec/11)
  | larderPrefetch (sess : Nat)
  | larderPin (sess : Nat)
  | larderUnpin (sess : Nat)
  | larderEvict (sess : Nat)
  | larderAccept (sess : Nat)
  | larderWithdraw (sess : Nat)
  | larderInstall (sess : Nat)
  | larderQuery (sess : Nat)
  | fillComplete (h : Nat) (record image manifest : List Byte)
  | withdrawalGraceExpiry (h : Nat)
  | carryRecheckDone (h : Nat)
  | entryQuotaWrite (sess n : Nat) (v : W16)
  | pageQuotaWrite (sess n : Nat) (v : W32)
  -- the Well (spec/16 R475, R476)
  | wellFill (sess slot : Nat)
  | wellSeal (sess slot : Nat)
  | wellSwitch (sess slot : Nat)
  | wellClear (sess slot : Nat)
  | wellGeometryApply (sess slot : Nat)
  -- counters (spec/12)
  | counterSnapshot (sess n : Nat)
  -- the fabric (spec/13)
  | linkSignalDetect (l : Nat)
  | linkFecLock (l : Nat)
  | trainingTimeout (l : Nat)
  | downRetrainTimer (l : Nat)
  | linkDown (l : Nat) (cause : DownCause)
  | helloTimer (l : Nat)
  | helloReceive (l : Nat) (hdr : FlitHdr) (body : Hello)
  | topologyReceive (l : Nat) (hdr : FlitHdr) (entry : TopoEntry)
  | openFlit (l : Nat) (hdr : FlitHdr) (xtag : Nat) (gen : Bool) (total : Nat) (markAt : Option (Nat × Nat))
  | dataFlit (l : Nat) (hdr : FlitHdr) (xtag : Nat) (gen : Bool) (offset : Nat) (data : List Byte)
  | doneFlit (l : Nat) (hdr : FlitHdr) (xtag : Nat) (gen : Bool) (status : Status)
  | mootFlitOpen (l : Nat) (hdr : FlitHdr) (ctx : MootCtx) (body : MootOpen)
  | mootFlitData (l : Nat) (hdr : FlitHdr) (ctx : MootCtx) (offset : Nat) (data : List Byte)
  | idleFlit (l : Nat) (hdr : FlitHdr)
  | flitBad (l : Nat) (uncorrectable : Bool)
  | flitReserved (l : Nat) (hdr : FlitHdr)
  | replayTimeout (l : Nat)
  | escapeTimeout (index : Nat)
  | fabricApply (sess : Nat)
  | routesApply (sess : Nat)
  | linkRetrain (sess l : Nat)
  | linkEnableWrite (sess l : Nat) (v : Byte)
  -- security (spec/15)
  | stripArm (sess : Nat)
  | stripToken (sess : Nat) (token : MakerToken)
  | stripNonceExpiry
  | makerDebugToken (token : MakerToken)
  | operatorKeyWrite (sess slot : Nat) (digest : Nat)
  | keyExchange (path : LmpPath) (req : Requester)
  | endSession (sess : Nat)
  | heartbeatMissed (sess : Nat)
  | challenge (path : LmpPath) (nonce : Nat)
  | getMeasurements (sess : Nat) (nonce : Nat)
  | reportSigned
  | lychClaim (sess n : Nat)
  | lychScope (sess n : Nat)
  | lychKey (sess : Nat) (g : W32)
  | lychLog (sess : Nat) (weight : Bool) (first : W64) (count : Nat)
  | lychRelease (sess : Nat)
  | oldAnExpiry (n : Nat)
  -- firmware (spec/16 R479)
  | fwStage (sess : Nat)
  | fwActivate (sess : Nat)
  | fwCommit (sess : Nat)
  | fwDiscard (sess : Nat)
  | liveActivationDone
  -- LMP (spec/16)
  | lmpDatagram (path : LmpPath) (sess : Nat) (bytes : List Byte)
  | lmpAccessMessage (sess : Nat) (bytes : List Byte)
  | registerWrite (sess : Nat) (index : W16) (sub : Byte) (value : Nat)
  -- host ports (spec/17)
  | rdmaCmConnect (n p : Nat) (isProtected : Bool)
  | qpDisconnect (qp : Nat)
  | rdmaWriteInbound (qp : Nat) (rkey : W32) (va : W64) (data : List Byte)
  | rdmaReadInbound (qp : Nat) (rkey : W32) (va : W64) (len : Nat)
  | atomicRequest (qp : Nat)
  | unacceptedFrame (p : Nat) (reason : DropReason)
  | nonRoceFrame (p : Nat) (kind : NonRoce)
  | ecnMarkedPacket (qp : Nat)
  | cnpReceived (qp : Nat)
  | rateRecoveryTimer (qp : Nat)
  | pfcPauseReceived (p priority : Nat) (pause : Bool)
  | hostPortDark (p : Nat)
  | hostPortApply (sess p : Nat)
  -- power, cooling and reset (spec/18)
  | powerOnReset
  | pinReset
  | commandedReset (sess : Nat)
  | clockLoss
  | vergerFaultReset
  | powerLoss (cause : PowerCause)
  | thermalTrip (ward : Nat) (milliC : Int)
  | throttleEval (vrHot : List Nat) (watts : Nat)
  | thermalSample (milliC : List Int)
  | powerApply (sess : Nat)
  | setpointApply (sess ward : Nat)
  | thermalApply (sess : Nat)
  | mgmtPortApply (sess : Nat)
  | stepRateMeasure (kiloSteps : List Nat)
  | referenceClocksReturn
  | hostPortLinkUp (p : Nat)
  | allotmentResetDone (n : Nat)
  | wellSealDigestRecorded (slot : Nat)
  | wellClearZeroingEnds (slot : Nat)
  | bootPhaseComplete (verified : Bool)
  | testStationTransition (move : StationMove)
  | transferTagReuse (xtag : Nat)
  deriving DecidableEq, Repr

end Sys2Proof
end

