-- ==== Sys2Proof/Machine/CoreState.lean ====
section
/-! DEFINITION. The state of one core and of one allotment's context on a core, as plain data (spec/04 to spec/09). -/

namespace Sys2Proof.Machine

/-! ### Ganger -/

/-- One level of a nest register (spec/07 R203): count and signed strides of the operands A, B and D. -/
structure NestLevel where
  count : Nat := 1
  sa : Int := 0
  sb : Int := 0
  sd : Int := 0
  deriving DecidableEq, Repr

/-- The value of every nest register after R196: four levels of count 1 and zero strides (spec/07 R205). -/
def nestIdle : List NestLevel := [{}, {}, {}, {}]

/-- An active hardware loop (spec/07 R198, spec/08 R235): byte offsets of its first word and of the word after its
body, and the iterations left, the current one included. -/
structure HwLoop where
  body : Nat
  stop : Nat
  left : Nat
  deriving DecidableEq, Repr

/-- What the Ganger fetches from (spec/07 R190). -/
inductive FetchSrc where
  | bank (b : Nat)
  | queue
  deriving DecidableEq, Repr

/-- The run state of a core's program (spec/07 R190, R197, R541; hung: the choice of R230 for illegal uses). -/
inductive RunState where
  | halted
  | running
  | stopping (st : Status)
  | hung
  deriving DecidableEq, Repr

/-- A block in the instruction queue (spec/07 R193): its STREAM command, the offset of its first byte in the streamed
code, and its bytes. -/
structure SBlock where
  cmd : Nat
  base : Nat
  bytes : List Byte
  deriving DecidableEq, Repr

/-- A program bank (spec/07 R190): EMPTY is READY with length 0 here; loading while a BANK_LOAD fills it. -/
structure Bank where
  len : Nat := 0
  loading : Bool := false
  deriving DecidableEq, Repr

/-- An engine status register (spec/07 R216). -/
structure EStat where
  count : Nat := 0
  first : Status := .ok
  last : Status := .ok
  firstIndex : Nat := 0
  deriving DecidableEq, Repr

/-! ### Ranges -/

/-- The spaces that an operation's ranges lie in: the allotment's virtual addresses, its Hawk part, the tile registers
as 32 times 4,096 bytes, and the Tub as 4 times 2,048 times 128 elements (spec/07 R224). -/
inductive Space where
  | va | hawk | tiles | tub
  deriving DecidableEq, Repr

/-- rows runs of len bytes (elements in the Tub), stride apart, from base. -/
structure Rng where
  space : Space
  base : Nat
  len : Nat
  rows : Nat := 1
  stride : Nat := 0
  deriving DecidableEq, Repr

/-- What a started operation reads and writes (spec/07 R224, spec/09 R271). -/
structure Footprint where
  reads : List Rng := []
  writes : List Rng := []
  deriving DecidableEq, Repr

/-! ### Engine operations -/

/-- An engine instruction in its queue (spec/07 R195, R205, spec/08 R238): its 128 bits, the scalar registers and the
nest register as they stood at issue, the iterations taken so far, the serial of its provisional epoch, and its place in
issue order. -/
structure QOp where
  w : W128
  regs : Tbl W64
  nest : List NestLevel
  taken : Nat := 0
  epoch : Option Nat := none
  issue : Nat := 0
  lost : Bool := false
  deriving DecidableEq, Repr

/-- A weight tile in the active or shadow weights of a sub-array (spec/04 R84, R92, spec/05 R124, R133, R139). image
is its stored image; colTags the tags of its columns (spec/06 R166); poisoned: a poisoned Hawk word came with it
(spec/04 R117). kt = 0 is the empty tile (spec/04 R98); its width is taken as
0, a choice (log entry 107): a pass over it forms no output element. -/
structure Tile where
  fmt : Fmt := .cf4
  blk : Blk := .row64
  sp24 : Bool := false
  transposed : Bool := false
  kt : Nat := 0
  n : Nat := 0
  image : List Byte := []
  colTags : List Tag := []
  poisoned : Bool := false
  deriving DecidableEq, Repr

/-- The shadow content of a sub-array that a SWAP would take up: a loaded tile, or the mark of a refused load
(spec/04 R96). -/
inductive Shadow where
  | tile (t : Tile)
  | invalid (st : Status)
  deriving DecidableEq, Repr

/-- The operation at the head of the Lath queue that has been checked, with the split pass table read there (spec/05 R126). refused: the
status of a load, a split or a reserved operation that is refused and completes in its place (spec/07 R202). -/
structure LathHead where
  table : List Byte
  refused : Option Status := none
  deriving DecidableEq, Repr

/-- A started weight load (spec/04 R91). behind: its swapping pass, the one that took the former shadow content up, started
before it (spec/04 R93, R121). -/
structure LoadRun where
  idx : Nat
  q : QOp
  hoff : Nat
  behind : Bool := false
  fp : Footprint
  deriving DecidableEq, Repr

/-- A Tub element: 32 bits, the row tag of its output position and its column tag (spec/04 R99, spec/06 R166). -/
structure TubElem where
  v : W32 := 0
  rtag : Tag := .common
  ctag : Tag := .common
  deriving DecidableEq, Repr

/-- An activation row of a started output-stationary pass: its Lath, its number, its tag and its decoded codes with
their scales (spec/05 R143). -/
structure ActRow where
  lath : Nat
  m : Nat
  tag : Tag
  codes : List (Nat × Nat)
  deriving DecidableEq, Repr

/-- What an output-stationary pass holds between its start and its commit (spec/05 R143 to R145): the chunks that it
still waits for, the chunk bytes taken so far from each ring, and its activation rows. fed: ring use has been entered before or during
it, and lasts until it commits (spec/19 R528). -/
structure OsWork where
  chunksLeft : Nat
  taken : Tbl (List Byte)
  acts : List ActRow
  ctags : Tbl (List Tag)
  fed : Bool := false
  deriving DecidableEq, Repr

/-- A pass that has left the head of the Lath queue and has no record yet: started, or refused and waiting for its
place in pass order (spec/04 R112). ring: the base of the record ring when it left the queue (spec/07 R219); wet holds the results by
Tub element number (spec/04 R105); poisonAt: the Loft address of a poisoned word that it read, or 0. behindLoad: a load ahead of it in the
queue has not completed (spec/07 R202). -/
structure PassRun where
  idx : Nat
  pidx : Nat
  q : QOp
  ring : Nat := 0x80000
  status : Option Status := none
  passo : Bool := false
  split : Nat := 0
  wet : Tbl TubElem := []
  ev : Ev := {}
  mask : Nat := 0
  invalidCount : Nat := 0
  steps : Nat := 0
  d : Nat := 0
  laths : Nat := 0
  clear : Bool := false
  chainWait : Bool := false
  held : Bool := false
  throttled : Bool := false
  resumed : Bool := false
  dEff : Nat := 0
  os : Option OsWork := none
  poisoned : Bool := false
  poisonAt : Nat := 0
  behindLoad : Bool := false
  fp : Footprint := {}
  deriving DecidableEq, Repr

/-- A started Skimmer operation, or a refused one that waits for its place (spec/06 R156). -/
structure SkimRun where
  idx : Nat
  q : QOp
  status : Option Status := none
  fp : Footprint := {}
  deriving DecidableEq, Repr

/-- An entry of the address FIFO (spec/08 R251): an address, or none for a zero entry. -/
abbrev FifoEntry := Option Nat

/-- The source rows of the bytes that a transfer has written of a 64-byte Hawk unit, by source address: each with the tags of its
rows (spec/06 R540). -/
abbrev UnitSrc := List (Nat × List Tag)

/-- A started Trowel operation, or a refused one (spec/07 R202, spec/09 R272 to R281). refused: its refusal; failed: the status of the first
failed row of a gather or scatter (R274); refusals: its rows or destination rows that a tag rule has refused (spec/10 R300, spec/11 R338).
rowsDone: FIFO entries consumed. crc: the Tally register over the bytes moved so far; rows: their destinations. moved: bytes placed
so far; unitSrc: where those of each Hawk unit come from. xtag: the fabric transfer's tag (spec/13 R392). -/
structure TrowelRun where
  idx : Nat
  q : QOp
  refused : Option Status := none
  failed : Option Status := none
  refusals : Nat := 0
  rowsDone : Nat := 0
  crc : Nat := 0xFFFFFFFF
  rows : List Rng := []
  moved : Nat := 0
  unitSrc : Tbl UnitSrc := []
  settled : Bool := true
  xtag : Option Nat := none
  fabricDone : Option Status := none
  fp : Footprint := {}
  deriving DecidableEq, Repr

/-- What a started Moot operation waits for (spec/14 R410, R416). -/
inductive MootPhase where
  | refused (st : Status)
  | reading (g b : Nat)
  | waitLanding (g b : Nat)
  | waitShard (g b : Nat)
  | done (st : Status)
  deriving DecidableEq, Repr

/-- A Moot operation that has left the head of its queue and has not completed (spec/14 R410, R416). -/
structure MootRun where
  idx : Nat
  q : QOp
  phase : MootPhase
  fp : Footprint := {}
  deriving DecidableEq, Repr

/-- The state of an instance of a provisional epoch (spec/07 R225 to R228). -/
inductive EpochState where
  | opened | confirmed | cancelled
  deriving DecidableEq, Repr

/-- A provisional range, with the issue number and the iteration of the operation that it is of (spec/07 R204, R226). -/
structure ProvRng where
  issue : Nat
  iter : Nat
  rng : Rng
  deriving DecidableEq, Repr

/-- A completion record that waits for its slot's page to return (spec/04 R112): its offset in the window, its bytes, the pass's
operation index, and the mark that waits with it. -/
structure HeldRec where
  off : Nat
  bytes : List Byte
  idx : Nat
  mark : Option Nat
  deriving DecidableEq, Repr

/-- An instance of a provisional epoch: its number e, a serial number of its own, its state, the marks that its closing
by a cancel will increment (spec/07 R228; core times 64 plus mark), its ranges (R226), and the bytes of completed
copies into weight rings that its confirm adds (R226). -/
structure Epoch where
  e : Nat
  serial : Nat
  state : EpochState := .opened
  marks : List Nat := []
  ranges : List ProvRng := []
  ringBytes : Tbl Nat := []
  deriving DecidableEq, Repr

/-- A weight ring of the Hawk (spec/08 R245): its fill and drain counts, in bytes. -/
structure Ring where
  fill : Nat := 0
  drain : Nat := 0
  deriving DecidableEq, Repr

/-- A tag-map entry in force (spec/10 R301). -/
structure TagMapEnt where
  base : Nat
  pitch : Nat
  rows : Nat
  first : Nat
  deriving DecidableEq, Repr

/-- A page descriptor (spec/09 R258). frame is a frame number of the slice or of HBM; spilled: the Verger holds the
page's bytes away (spec/09 R271). -/
structure PageDesc where
  r : Bool := true
  w : Bool := true
  draw : Bool := false
  frozen : Bool := false
  tag : Bool := true
  scrub : Bool := true
  owner : Nat := 0
  frame : Nat := 0
  spilled : Bool := false
  deriving DecidableEq, Repr

/-- An entry of a translation cache (spec/09 R262): an allotment, one of its pages by its key, and that page's descriptor. -/
structure TlbEnt where
  allot : Nat
  page : Nat
  desc : PageDesc
  deriving DecidableEq, Repr

/-- Why a switch took the core away (spec/10 R308). -/
inductive SwitchReason where
  | turnEnded | budgetHeld | haltedIdle
  deriving DecidableEq, Repr

/-- The context of one allotment on one core (spec/07 R185). abrupt: the program is being stopped by a HALT command, a fault, the watchdog
or a reset, and not by its own halt (R193). expired: its watchdog has expired during a thermal hold, and takes effect when the hold lifts
(spec/04 R121). wdStop: its program is on its way to the halt that an expiry makes (spec/10 R314, R318). swapAhead: a SWAP pass has started since the last load did (spec/04 R93). -/
structure Ctx where
  -- Ganger
  sregs : Tbl W64 := []
  nests : Tbl (List NestLevel) := []
  marks : Tbl W32 := []
  loops : List HwLoop := []
  run : RunState := .halted
  abrupt : Bool := false
  expired : Bool := false
  wdStop : Bool := false
  src : FetchSrc := .bank 0
  pc : Nat := 0
  cmd : Option Nat := none
  banks : Tbl Bank := []
  iq : List SBlock := []
  iqEnd : Nat := 0
  checked : Bool := false
  fifo : List FifoEntry := []
  estat : Tbl EStat := []
  opIndex : Tbl Nat := []
  epochs : List Epoch := []
  epochSerial : Nat := 0
  tally : Nat := 0xFFFFFFFF
  passRing : Nat := 0x80000
  issued : Nat := 0
  heldRecords : List HeldRec := []
  tagStore : Option Nat := none
  -- Lath
  lathQ : List QOp := []
  lathHead : Option LathHead := none
  passes : List PassRun := []
  load : Option LoadRun := none
  swapAhead : Bool := false
  active : Tbl Tile := []
  shadow : Tbl Shadow := []
  split : Nat := 0
  passIndex : Nat := 0
  lastDEff : Nat := 0
  resumed : Bool := false
  tub : Tbl TubElem := []
  touched : List Nat := []
  rings : Tbl Ring := []
  -- Skimmer
  skimQ : List QOp := []
  skims : List SkimRun := []
  tiles : Tbl Byte := []
  sidecars : Tbl Byte := []
  tileTags : Tbl Tag := []
  zeroCells : List Nat := []
  tagMap : Tbl TagMapEnt := []
  -- Trowel
  trowelQ : List QOp := []
  trowels : List TrowelRun := []
  -- Moot slice
  mootQ : List QOp := []
  moots : List MootRun := []
  -- pages and switching
  pages : Tbl PageDesc := []
  hawkBase : Nat := 0
  hawkLen : Nat := 0
  switchCount : Nat := 0
  outTime : Nat := 0
  outReason : SwitchReason := .turnEnded
  everSwitched : Bool := false
  savedRows : Nat := 0
  savePoison : Bool := false
  haltCmds : List Nat := []
  deriving DecidableEq, Repr

/-- The phase of a core's switch (spec/10 R308): a turn that has ended and waits for its started operations, with the
allotment that gets the core and the reason; or a restore that is due. -/
inductive SwitchPhase where
  | idle
  | leaving (next : Option Nat) (reason : SwitchReason)
  | restoring (next : Nat)
  deriving DecidableEq, Repr

/-- One physical core: who holds it, and the Hawk with what the device records of each 64-byte unit of it
(spec/09 R267 drawn marks, spec/11 R339 owners, spec/06 R540 row tags) and its poisoned 8-byte words (spec/09 R255); hazards counts the refusals that no event
record has reported, hazardAt the time of the last such record (spec/16, table Event kinds); tlb: the Trowel's translation cache,
newest first (spec/09 R262). -/
structure Core where
  resident : Option Nat := none
  turnStart : Nat := 0
  phase : SwitchPhase := .idle
  hawk : Tbl Byte := []
  drawn : List Nat := []
  owners : Tbl Nat := []
  hawkTags : Tbl Tag := []
  hawkPoison : List Nat := []
  hazards : Nat := 0
  hazardAt : Option Nat := none
  tlb : List TlbEnt := []
  deriving DecidableEq, Repr

end Sys2Proof.Machine
end

