-- ==== Sys2Proof/Machine/NetState.lean ====
section
/-! DEFINITION. The state of the fabric and of the Moot's groups, as plain data (spec/13, spec/14). What the Parish
Register shows of them (link states, neighbours, house numbers, group definitions) lies in State.regs. -/

namespace Sys2Proof.Machine

/-! ### Fabric -/

/-- The body of a flit by its kind (spec/13, table Flit kinds, spec/14, table Moot flit bodies). -/
inductive FlitBody where
  | none
  | bytes (bs : List Byte)
  | hello (h : Hello)
  | topology (e : TopoEntry)
  | openX (total : Nat) (mark : Option (Nat × Nat))
  | done (status : Status)
  | mootOpen (b : MootOpen)
  | mootClose (tally : W32)
  deriving DecidableEq, Repr

/-- A flit without its link fields SEQ, ACK, CVC, CCNT and LCRC (spec/13, table Flit); whether it has taken an alternate link goes with it
(R387, log entry 33). -/
structure Flit where
  kind : Nat
  vc : Nat
  dest : Nat
  src : Nat
  household : Nat
  ctx : Nat := 0
  body : FlitBody := .none
  alt : Bool := false
  deriving DecidableEq, Repr

/-- A flit that waits for a credit or a route: the time since which it waits, the link where it has only one (channel 0),
whether an escape route of it may still go up (spec/13 R388), and the link and channel whose receive buffer it lies in (R378). -/
structure WaitFlit where
  since : Nat
  link : Option Nat := none
  mayUp : Bool := true
  held : Option (Nat × Nat) := none
  flit : Flit
  deriving DecidableEq, Repr

/-- A flit of the replay buffer as it was sent: its SEQ, the credits that it returns, whether its escape route could go up when it left,
and how often it has been resent without acknowledgement (spec/13 R377, R378, R388, R396). -/
structure Sent where
  seq : Nat
  cvc : Nat := 0
  ccnt : Nat := 0
  mayUp : Bool := true
  resends : Nat := 0
  flit : Flit
  deriving DecidableEq, Repr

/-- A house number held twice, which holds a link: a device at its end or beyond it, the number, and the device of this topology that
holds it as well; none for two fabrics that meet, where any device here that holds the number counts (spec/13 R386, R400, log entry
98). -/
structure Clash where
  digest : Nat
  house : Nat
  rival : Option Nat := none
  deriving DecidableEq, Repr

/-- A link's own state beside its objects (spec/13 R377, R378, R381, R385, R386): whether both lanes have signal, the time it
entered its state, the next SEQ to send and to take, the credits held and owed by channel, the replay buffer, when ACK last moved,
the neighbour's last hello and its time, the time of the last hello sent, the house number held twice for which it is HELD, whether it
is HELD for want of a number (R385), and the last of VC2 and VC4 to VC15 served (spec/19 R533). -/
structure Link where
  signal : Bool := false
  since : Nat := 0
  tx : Nat := 0
  rx : Nat := 0
  credit : Tbl Nat := []
  owed : Tbl Nat := []
  replay : List Sent := []
  ackAt : Nat := 0
  nbr : Option Hello := none
  heard : Nat := 0
  helloAt : Nat := 0
  clash : Option Clash := none
  noNumber : Bool := false
  turn : Nat := 0
  deriving DecidableEq, Repr

/-- Phase of a transfer tag (spec/13 R395). -/
inductive XPhase where
  | free
  | opened
  | closed (at' : Nat)
  deriving DecidableEq, Repr

/-- A transfer tag of the source side: the allotment, core and house of its last transfer, and its generation. -/
structure Xfer where
  allot : Nat
  core : Nat
  house : Nat
  gen : Bool
  phase : XPhase
  deriving DecidableEq, Repr

/-- An inbound transfer (spec/13 R392, R394, R395): its generation, its household, the total bytes and the mark of its OPEN once that
has come, the OFFSETs counted with their lengths, the flits' statuses so far, whether its DONE has been sent, and whether the tag's
transfer of the other generation has been closed before. -/
structure Inbound where
  gen : Bool
  household : Nat
  total : Option Nat := none
  mark : Option (Nat × Nat) := none
  seen : List (Nat × Nat) := []
  status : Status := .ok
  closed : Bool := false
  otherClosed : Bool := false
  deriving DecidableEq, Repr

/-! ### Moot -/

/-- A part of the reduction tree (spec/14 R404, R407): roll call, sample sum, ranks left out as faulty, and its elements;
an absent part has an empty roll call and no data. -/
structure MPart where
  roll : Nat := 0
  samples : Nat := 0
  faulty : Nat := 0
  data : List W32 := []
  deriving DecidableEq, Repr

/-- An inbound partial, reduced bucket or shard that streams in (spec/14 R424): the OPEN's body, and the bytes so far. -/
structure MStream where
  step : Nat
  bucket : Nat
  roll : Nat
  samples : Nat
  faulty : Nat
  length : Nat
  bytes : List Byte := []
  deriving DecidableEq, Repr

/-- What came before this device's M.CONTRIB for the bucket and waits in the reservation (spec/14 R420, R428): the level (16 for
a published shard, 17 for a FAIL), the stream, whether its check passed, and whether it has been forwarded already (R417). -/
structure MEarly where
  level : Nat
  stream : MStream
  good : Bool
  sent : Bool := false
  deriving DecidableEq, Repr

/-- What a device holds of the published shard of a bucket. -/
inductive Shard where
  | none
  | good (st : MStream)
  | failed
  deriving DecidableEq, Repr

/-- An open bucket of a group slot (spec/14 R411): its step and number, the length that this device's M.CONTRIB declares, the
allotment and core that issued it; the level finished with the part ready there; right children that have arrived, by their
node's level; the running deadline, and the instants at which nodes' deadlines have expired, by level (R421); the ranks that faulty partials claimed; whether the partial owed has been sent; the reduced
bucket at its owner, and whether its landing is deferred or done; the published shard; and what closing still needs. -/
structure Bucket where
  step : Nat
  bucket : Nat
  len : Nat
  allot : Nat
  core : Nat
  level : Nat := 0
  left : Option MPart := none
  rights : Tbl MPart := []
  faultyAdd : Tbl Nat := []
  deadline : Option Nat := none
  expired : Tbl Nat := []
  sentUp : Bool := false
  reduced : Option MPart := none
  deferred : Bool := false
  landed : Bool := false
  shard : Shard := .none
  forwarded : Bool := false
  published : Bool := false
  deriving DecidableEq, Repr

/-- A group slot's state beside its objects: the reservation's frames (R403), the comparator it holds (spec/19 R529), whether the
Verger times its deadlines, the (step, bucket) pairs opened since its definition, the streams that come in (key: BSLOT times 32
plus level, 16 for a shard), and what waits for an M.CONTRIB. -/
structure MGroup where
  frames : List Nat := []
  comparator : Option Nat := none
  verger : Bool := false
  opened : List (Nat × Nat) := []
  streams : Tbl MStream := []
  early : List MEarly := []
  deriving DecidableEq, Repr

end Sys2Proof.Machine
end

