-- ==== Sys2Proof/Machine/Flits.lean ====
section
/-! DEFINITION. The 256 bytes of a flit with its link CRC (spec/13 R376, table Flit; spec/14, table Moot flit bodies). -/

namespace Sys2Proof.Machine

/-- The bytes of BODY in use. The spec places no bits in the bodies of TOPOLOGY, OPEN and DONE: these are free values. -/
def FlitBody.used (ctx : Nat) : FlitBody → List Byte
  | .none => []
  | .bytes bs => bs
  | .hello h =>
    leBytes 40 (h.digest % 2 ^ 256 * 2 ^ 64 + h.house % 2 ^ 16 * 2 ^ 48 + h.mode % 2 ^ 8 * 2 ^ 40 + h.link % 2 ^ 8 * 2 ^ 32 +
      h.epoch % 2 ^ 32)
  | .topology e => Config.topologyBody e
  | .openX total mark => Config.openBody total mark
  | .done st => Config.doneBody ctx st
  | .mootOpen b =>
    leBytes 90 (b.rollCall % 2 ^ 512 + b.step % 2 ^ 64 * 2 ^ 512 + b.samples % 2 ^ 64 * 2 ^ 576 + b.bucket % 2 ^ 32 * 2 ^ 640 +
      b.length % 2 ^ 32 * 2 ^ 672 + b.faulty % 2 ^ 16 * 2 ^ 704)
  | .mootClose v => leBytes 4 v.toNat

/-- Bytes 0 to 251 of a flit: its fields in the order of the table, from bit 0 up. -/
def Flit.head (f : Flit) (seq ack cvc ccnt : Nat) : List Byte :=
  let body := (f.body.used f.ctx).take 236
  leBytes 252
    (f.ctx % 2 ^ 46 + body.length * 2 ^ 46 + f.household % 2 ^ 16 * 2 ^ 54 + f.kind % 2 ^ 4 * 2 ^ 70 + f.vc % 2 ^ 4 * 2 ^ 74 +
      f.src % 2 ^ 9 * 2 ^ 78 + f.dest % 2 ^ 9 * 2 ^ 87 + ccnt % 2 ^ 4 * 2 ^ 96 + cvc % 2 ^ 4 * 2 ^ 100 + ack % 2 ^ 12 * 2 ^ 104 +
      seq % 2 ^ 12 * 2 ^ 116 + ofLe body * 2 ^ 128)

/-- The link CRC of a flit. -/
def Flit.lcrc (f : Flit) (seq ack cvc ccnt : Nat) : W32 := crc32c (f.head seq ack cvc ccnt)

/-- The 256 bytes of a flit. -/
def Flit.image (f : Flit) (seq ack cvc ccnt : Nat) : List Byte :=
  f.head seq ack cvc ccnt ++ leBytes 4 (f.lcrc seq ack cvc ccnt).toNat

/-- The receiver's check of 256 bytes; a flit that fails it is FLIT_BAD's (spec/13 R377). -/
def flitPasses (bs : List Byte) : Bool := (crc32c (bs.take 252)).toNat == ofLe (bs.drop 252)

end Sys2Proof.Machine
end

