-- ==== Sys2Proof/Machine/AllotState.lean ====
section
/-! DEFINITION. The state of an allotment outside its cores: streams, commands in flight, logs, watchdog, budget and
MACsec; and the removals of rights that wait (spec/07, spec/09, spec/10, spec/15, spec/17). -/

namespace Sys2Proof.Machine

/-- A completion entry before it has its place in the queue (spec/17 R498). kind is the KIND code. -/
structure Completion where
  cookie : Nat
  count : Nat := 0
  rseq : Nat := 0
  status : Status := .ok
  kind : Nat := 1
  core : Nat := 0
  all : Bool := false
  deriving DecidableEq, Repr

/-- A stream descriptor in force (spec/17 R495). green: the stream is the one named in 0x31nn.0A, and its records are
request records (spec/10 R298). -/
structure StreamDesc where
  cqRaddr : Nat
  cqRkey : Nat
  cqQp : Nat
  cqLog2 : Nat
  ringVa : Nat
  ringLog2 : Nat
  carter : Bool
  deriving DecidableEq, Repr

/-- A command's kind and payload (spec/08, table Command payloads). -/
inductive CmdKind where
  | bankLoad (src len bank : Nat)
  | start (bank offset : Nat) (arg1 arg2 : W64)
  | stream (bytes : List Byte)
  | halt
  deriving DecidableEq, Repr

/-- A command taken from a ring (spec/07 R186): todo, the physical cores it has not reached; live, the cores that have
accepted it and not completed it; statuses, those of the cores that have. -/
structure Cmd where
  stream : Nat
  cookie : Nat
  rseq : Nat
  core : Nat
  all : Bool
  kind : CmdKind
  todo : List Nat
  live : List Nat := []
  statuses : List Status := []
  deriving DecidableEq, Repr

/-- A Green request record (spec/10 R298). inRows is the count itself; handle: the entry it holds a pin on (spec/11 R333);
refused: the status its fill or a withdrawal has given it. -/
structure GreenReq where
  cookie : Nat
  inVa : Nat
  outVa : Nat
  adapt : Nat
  sequence : Nat
  inRows : Nat
  outRows : Nat
  rowLen : Nat
  rseq : Nat
  stream : Nat
  handle : Option Nat := none
  refused : Option Status := none
  deriving DecidableEq, Repr

/-- A Carter job record (spec/09 R275). -/
structure JobRec where
  cookie : Nat
  raddr : Nat
  rkey : Nat
  qp : Nat
  lva : Nat
  mva : Nat
  len : Nat
  seqb : Nat
  seqf : Bool
  store : Bool
  deriving DecidableEq, Repr

/-- What waits at the head of a stream (spec/07 R187). -/
inductive HeadRec where
  | command (id : Nat)
  | green (r : GreenReq)
  deriving DecidableEq, Repr

/-- A stream of an allotment (spec/17 R495 to R499). consumed is C, doorbell the last accepted D, written P; waiting: the completions that
wait in the Crier, at most 256, and held: those of work already taken that find 256 waiting;
aheadPins: the Larder entries pinned for records not yet taken, by record number, and aheadFail the statuses
that refuse such records (spec/11 R333). -/
structure Stream where
  desc : Option StreamDesc := none
  consumed : Nat := 0
  doorbell : Nat := 0
  head : Option HeadRec := none
  waiting : List Completion := []
  held : List Completion := []
  written : Nat := 0
  hostConsumed : Nat := 0
  aheadPins : Tbl Nat := []
  aheadFail : Tbl Status := []
  deriving DecidableEq, Repr

/-- A measurement log (spec/15 R445): its extension value, its count and its latest 4,096 entries, newest first. -/
structure MLog where
  ext : List Byte := List.replicate 32 0
  count : Nat := 0
  entries : List (List Byte) := []
  deriving DecidableEq, Repr

/-- The MACsec association of an allotment (spec/15 R455, R456): keyed, the current association number, the receive and
transmit keys of each AN, for each older AN that is still received the device-timer value at which it ends, and by port the packets
sent on the current association, whose last packet number that is. -/
structure Macsec where
  keyed : Bool := false
  an : Nat := 0
  keys : Tbl (List Byte) := []
  old : Tbl Nat := []
  sent : Tbl Nat := []
  deriving DecidableEq, Repr

/-- An allotment's state outside the Parish Register (spec/10). wdSince: the device-timer value at which its running watchdog last
restarted (R313), and wdSpent, set from its expiry to the next START or STREAM (R314); held and residency: whether its budget holds it, and the shared-core microseconds used in the budget window
(R307); shared: the cores that it shares, as in force (R286); coreTicks and hbmTick: the microsecond of the last core-meter tick by
core, and the millisecond of the last HBM-meter tick (R315). -/
structure Allot where
  streams : Tbl Stream := []
  cmds : Tbl Cmd := []
  nextCmd : Nat := 0
  programLog : MLog := {}
  weightLog : MLog := {}
  wdSince : Option Nat := none
  wdSpent : Bool := false
  held : Bool := false
  residency : Nat := 0
  shared : List Nat := []
  coreTicks : Tbl Nat := []
  hbmTick : Nat := 0
  macsec : Macsec := {}
  deriving DecidableEq, Repr

/-- What a removal of rights changes (spec/09 R271): a page's descriptor, or its mapping; the mapping of a Larder entry in its
owner's space (spec/11 R335); the Well's mapping in the allotment's space (spec/10 R294); and of a Well slot its seal, the
pages from a number on, and all its pages (spec/16 R475 to R477); and the pages of a Loft window on a core that a smaller .06
takes away (spec/10 R286). -/
inductive RemovalKind where
  | page (desc : Option PageDesc)
  | larderOwner (h : Nat)
  | well
  | wellSeal (slot : Nat)
  | wellTrim (slot n : Nat)
  | wellClear (slot : Nat)
  | loftTrim (core : Nat)
  deriving DecidableEq, Repr

/-- A requested removal of rights that waits (spec/09 R271): the allotment, the range, and what changes. -/
structure Removal where
  allot : Nat
  va : Nat
  len : Nat
  kind : RemovalKind
  deriving DecidableEq, Repr

end Sys2Proof.Machine
end

