-- ==== Sys2Proof/Machine/DevState.lean ====
section
/-! DEFINITION. The state of the device's management, security, Larder, Green, Carter and power, as plain data (spec/09 to
spec/11, spec/15 to spec/18). -/

namespace Sys2Proof.Machine

/-! ### Sessions and LMP (spec/15 R441 to R443, spec/16 R471, R481 to R486) -/

/-- One operation of a register access message (spec/16 R482). -/
structure LmpOp where
  op : Nat
  index : Nat
  sub : Nat
  type : Nat
  length : Nat
  offset : Nat
  value : List Byte
  deriving DecidableEq, Repr

/-- A register access message under way: its TXID, the operations to do, and those done with their status and value. -/
structure LmpMsg where
  txid : Nat
  todo : List LmpOp
  ready : List (LmpOp × Status × List Byte)
  deriving DecidableEq, Repr

/-- An LMP session: its path; whether its requester authenticated itself, with the SHA-256 of its key and the maker attribute;
role O; the allotment it is bound to; the scope of a role-O session; pending copies and per-session values by object; the
OCTETS value being written in segments (object, next offset, bytes so far); the sequence numbers accepted; the messages
waiting and the answers held by TXID. waiting: the head operation of the first message waits for its action; result: the status with
which that action has completed; alone: the session waits for an action that a command outside a message asked for; mgmt: the
settings of the management port that take effect when the answer to their apply has been sent (spec/16, section Management port). -/
structure Session where
  path : LmpPath
  authed : Bool
  keyDigest : Nat
  maker : Bool
  oper : Bool
  bound : Option Nat := none
  scope : Option Nat := none
  pend : Tbl Nat := []
  own : Tbl Nat := []
  segment : Option (Nat × Nat × List Byte) := none
  accepted : List Nat := []
  sent : Nat := 0
  msgs : List LmpMsg := []
  waiting : Bool := false
  result : Option Status := none
  alone : Bool := false
  mgmt : List (Nat × Nat × Nat) := []
  answers : List (Nat × List Byte) := []
  deriving DecidableEq, Repr

/-- What a request for a signature asks for (spec/15 R436, R449): a KEY_EXCHANGE, a CHALLENGE, or a report with the nonce and
the blocks as snapshotted. -/
inductive SignKind where
  | keyExchange (req : Requester)
  | challenge (nonce : Nat)
  | report (nonce : Nat) (blocks : List (Nat × List Byte))
  deriving DecidableEq, Repr

/-- A request that waits for signing: its session, or the path of an unauthenticated exchange. -/
structure SignReq where
  sess : Option Nat
  path : LmpPath
  kind : SignKind
  deriving DecidableEq, Repr

/-- A staged firmware image (spec/16 R479). -/
structure Staged where
  component : Nat
  digest : Nat
  svn : Nat
  deriving DecidableEq, Repr

/-! ### The Larder (spec/11) -/

/-- Where a fill takes its image from (spec/11 R330): the Carter's catalogue, or the owner's pages at a Source. -/
inductive FillSrc where
  | fetch
  | install (va : Nat)
  deriving DecidableEq, Repr

/-- A directory entry that is not FREE (spec/11 R324 to R345): state 1 FILLING to 5 WITHDRAWN; its owner, adaptation and image;
the manifest; the tenant pin and the requests' pins; the time of its last use; whether a fill runs and from where; whether it
waits for room; the sessions whose actions complete with the fill or the recheck; mappings in force; when it was withdrawn;
whether the recheck has passed; whether a base switch has come during its fill; and the status with which its fill or its recheck has
ended, until FILL_COMPLETE or CARRY_RECHECK_DONE takes it. -/
structure LEntry where
  state : Nat := 1
  owner : Nat
  adapt : Nat
  frames : List Nat := []
  len : Nat := 0
  manifest : List Nat := []
  baseId : Nat := 0
  shape : Nat := 0
  tenantPin : Bool := false
  pins : Nat := 0
  lastUse : Nat := 0
  filling : Option FillSrc := none
  waiters : List Nat := []
  accepters : List Nat := []
  ownerMapped : Bool := false
  greenMapped : Bool := false
  withdrawnAt : Option Nat := none
  checked : Bool := false
  switched : Bool := false
  ended : Option Status := none
  deriving DecidableEq, Repr

/-- A fill that waits for room in its owner's quotas (spec/11 R330, R331): with the session whose action asks for it, and whether it sets the
tenant pin. -/
structure FillReq where
  owner : Nat
  adapt : Nat
  src : FillSrc
  sess : Nat
  pin : Bool
  deriving DecidableEq, Repr

/-! ### The Green (spec/10 R295 to R303, spec/11 R336, R337) -/

/-- An admitted request of a Green slot: its tenant and record, the entry it holds a pin on, the Well slot active at its
admission; dead: the Crier has retired it and discards the Green's own retirement. -/
structure GreenSlot where
  allot : Nat
  req : GreenReq
  handle : Option Nat
  well : Nat
  dead : Bool := false
  deriving DecidableEq, Repr

/-! ### The Carter (spec/09 R275 to R277, spec/19 R532) -/

/-- What a Carter does for the Larder (spec/11 R330, R344): it reads the catalogue record of a fetch, or the header at an INSTALL's source;
waits for the image's pages; reads the manifest; fetches the image, or copies it for an INSTALL; or recomputes a carried image. -/
inductive LarderWork where
  | record
  | header
  | room (install : Bool)
  | manifest
  | image
  | copy
  | recheck
  deriving DecidableEq, Repr

/-- A running Carter job: its allotment and stream, its record, the blocks written, the blocks in flight (spec/19 R532), the
status at which it is to stop at its next block boundary, and for a job of the Larder its entry and its present work. The record of such
a job holds what R330 has found so far: of a fetch the queue pair and key, RADDR (of the catalogue record at first), MADDR in mva and LEN;
of an INSTALL the source and LEN; of a recheck LEN. -/
structure Job where
  allot : Nat
  stream : Nat
  rec' : JobRec
  blocks : Nat := 0
  flight : Nat := 0
  stop : Option Status := none
  larder : Option (Nat × LarderWork) := none
  deriving DecidableEq, Repr

/-- A Carter's translation cache (spec/09 R262): the allotments among which it is divided, and its entries,
newest first. -/
structure CarterCache where
  users : List Nat := []
  entries : List TlbEnt := []
  deriving DecidableEq, Repr

/-! ### Power and reset (spec/18) -/

/-- Whether the device runs, is held in a clock-loss reset, has lost its power, or has tripped (spec/18 R509, R511, R518). -/
inductive PowerMode where
  | running
  | clockHeld
  | off
  | tripped
  deriving DecidableEq, Repr

end Sys2Proof.Machine
end

