-- ==== Sys2Proof/Machine/State.lean ====
section
/-! DEFINITION. The state of the SP-7204 as plain data, the reasons a step can stop, and the state after reset. -/

namespace Sys2Proof.Machine

/-- What an SPDM message is answered with (spec/15): a session opened, its number and whether with the role asked; an error;
a report in transition with its retry hint in ms; measurements; a challenge's answer; a Lych Gate answer. -/
inductive SpdmAns where
  | opened
  | sessionLimit
  | invalidSession
  | busy
  | inTransition (hintMs : Nat)
  | measurements (nonce : Nat) (blocks : List (Nat × List Byte)) (signature : BitVec 136704)
  | challengeAuth (nonce : Nat) (signature : BitVec 136704)
  | lych (st : Status) (data : List Byte)
  | ended
  deriving DecidableEq, Repr

/-- What the device sends or drives (the model's own record, log entry 4). -/
inductive Out where
  | hostWrite (qp raddr rkey : Nat) (bytes : List Byte)
  | hostRead (qp raddr rkey len : Nat)
  | readAnswer (qp : Nat) (bytes : List Byte)
  | ack (qp : Nat)
  | nak (qp : Nat) (invalid : Bool)
  | cnp (qp : Nat)
  | connected (qp rkey : Nat)
  | rejected (allot port : Nat)
  | frameAnswer (port : Nat) (kind : NonRoce)
  | pfcPause (port priority : Nat)
  | secured (sci an pn : Nat) (frame : Out)
  | dropped (a stream : Nat)
  | flit (link seq ack cvc ccnt : Nat) (lcrc : W32) (f : Flit)
  | answer (sess seq : Nat) (bytes : List Byte)
  | wrote (sess idx sub : Nat) (st : Status)
  | spdm (sess : Option Nat) (ans : SpdmAns)
  | secure (sess seq : Nat) (ans : SpdmAns)
  | avs (ward mv : Nat)
  deriving DecidableEq, Repr

/-- A Well slot's frames and progress (spec/16 R475, R476): the HBM frames of its pages in order; sealing: its pages are frozen and its
digest is being recorded; unmapped: its frames are being zeroed; sealers and clearers: the sessions whose seals and clears are under way,
each with the status with which its action completes. Its role is object 0x320s.01. -/
structure WellSlot where
  frames : List Nat := []
  sealing : Bool := false
  unmapped : Bool := false
  sealers : List (Nat × Status) := []
  clearers : List (Nat × Status) := []
  deriving DecidableEq, Repr

/-- A queue pair (spec/17 R491, R492, R500): its allotment, its port, whether it arrived protected, its R_Key, whether it
is in the error state, its path MTU in bytes (R490), its transmit rate in Mb/s, and the times of the last CNP sent and the last one
received. -/
structure Qp where
  allot : Nat
  port : Nat
  isProtected : Bool
  rkey : Nat
  error : Bool := false
  mtu : Nat := 4096
  rate : Nat := 200000
  cnpSent : Option Nat := none
  cnpSeen : Option Nat := none
  deriving DecidableEq, Repr

/-- The device's state. Fields are named in INVENTORY.md with the rule that gives each. -/
structure State where
  pending : List Instr := []
  timer : Nat := 0
  freeCtr : Nat := 0
  out : List Out := []
  mem : List Host.Cell := []
  poison : List Nat := []
  regs : Tbl Nat := []
  hbmUsed : List Nat := []
  hbmPages : Tbl PageDesc := []
  removals : List Removal := []
  cores : Tbl Core := []
  ctxs : Tbl Ctx := []
  allots : Tbl Allot := []
  crierTurn : Nat := 0
  greenRoster : Tbl Tag := []
  wells : Tbl WellSlot := []
  log : Tbl Nat := []
  perfHidden : Tbl Nat := []
  dropAt : Tbl Nat := []
  qps : Tbl Qp := []
  -- fabric and Moot
  links : Tbl Link := []
  topo : List TopoEntry := []
  topoWait : List (Nat × TopoEntry) := []
  routes : Tbl Nat := []
  flitWait : List WaitFlit := []
  xfers : Tbl Xfer := []
  inbound : Tbl Inbound := []
  groups : Tbl MGroup := []
  buckets : Tbl Bucket := []
  landingSlots : Tbl Nat := []
  -- management and security
  sessions : Tbl Session := []
  nextSess : Nat := 0
  signQ : List SignReq := []
  stripNonce : Option (Nat × Nat) := none
  transition : Bool := false
  seed : Seed := .fused Config.deviceSeed
  deviceCert : Option Nat := some Config.identityDigest
  traced : List Nat := []
  traceBuf : List Byte := []
  activating : Option Nat := none
  fwBuffer : Nat := 0
  staged : Option Staged := none
  components : Tbl (Nat × Nat) := []
  quotaFrames : Tbl (List Nat) := []
  -- Larder, Green, Carter
  larder : Tbl LEntry := []
  fillWait : List FillReq := []
  greenSlots : Tbl GreenSlot := []
  jobs : Tbl Job := []
  carterTurn : Tbl Nat := []
  carterCaches : Tbl CarterCache := []
  -- power and reset
  power : PowerMode := .running
  releasedAt : Nat := 0
  resetPending : Bool := false
  heldSince : Tbl Nat := []
  raisedAt : Tbl Nat := []
  energy : Nat := 0
  flash : Tbl Nat := []
  flashWait : List (Nat × Nat × Nat) := []
  paused : Tbl Bool := []
  mgmtQps : List Nat := []
  rxHeld : Tbl Nat := []
  lowered : List Nat := []
  throttleAt : Option Nat := none
  deriving DecidableEq, Repr

/-- The machine right after reset (spec/18 R522): every byte zero, every object at its default, no allotment defined, no session
open, the boot not begun; a part as delivered, with its seed fused and its certificate (spec/15, section Life cycle, log entry 8). -/
def State.reset : State := {}

/-- Reasons to stop with a fault. -/
inductive Fault where
  /-- No fault. Nobody raises it, since every condition of the spec has an effect on State; safe. -/
  | none
  deriving DecidableEq, Repr

/-- Reasons to refuse. -/
inductive Refusal where
  /-- The meaning is not written. Raised by the arms of exec only; safe. -/
  | notModelled (mnemonic : String)
  deriving DecidableEq, Repr

end Sys2Proof.Machine
end

