-- ==== Sys2Proof/Machine/Mem.lean ====
section
/-! DEFINITION. Memory: a canonical list of cells, its reads and writes, and poisoned words (spec/09 R253 to R255). -/

namespace Sys2Proof.Machine

/-- The byte at an address. An unlisted address reads 0: the device zeroes every byte during reset (spec/18 R522). -/
def Mem.read : List Host.Cell → Nat → Byte
  | [], _ => 0
  | (k, v) :: t, a => if k = a then v else Mem.read t a

/-- A byte written. Writing 0 removes the entry, so that equal memories are equal lists. -/
def Mem.write : List Host.Cell → Nat → Byte → List Host.Cell
  | [], a, v => if v = 0 then [] else [(a, v)]
  | (k, w) :: t, a, v =>
    if a < k then (if v = 0 then (k, w) :: t else (a, v) :: (k, w) :: t)
    else if k = a then (if v = 0 then t else (a, v) :: t)
    else (k, w) :: Mem.write t a v

/-- Addresses strictly rising from a bound, and no entry equal to what an unlisted address reads as. -/
def Mem.wfFrom : Nat → List Host.Cell → Bool
  | _, [] => true
  | b, (k, v) :: t => decide (b ≤ k) && v != 0 && Mem.wfFrom (k + 1) t

/-- The canonical form. -/
def Mem.wf (m : List Host.Cell) : Bool := Mem.wfFrom 0 m

/-- n bytes from an address. -/
def Mem.readN (m : List Host.Cell) : Nat → Nat → List Byte
  | _, 0 => []
  | a, n + 1 => Mem.read m a :: Mem.readN m (a + 1) n

/-- Bytes written from an address upward. -/
def Mem.writeL (m : List Host.Cell) : Nat → List Byte → List Host.Cell
  | _, [] => m
  | a, b :: bs => Mem.writeL (Mem.write m a b) (a + 1) bs

/-- The first physical address of the Loft (spec/09 R253). -/
def loftBase : Nat := 0xE000000000

/-- Where an HBM physical address lies (spec/09 R254): the stack and its ward, the channel and pseudo-channel of the stack, and the byte of
the pseudo-channel. -/
structure HbmPlace where
  stack : Nat
  ward : Nat
  channel : Nat
  pseudo : Nat
  offset : Nat
  deriving DecidableEq, Repr

/-- The placement of an interleave unit of 256 bytes: consecutive units rotate through the 12 stacks, three in each ward. -/
def hbmPlace (pa : Nat) : HbmPlace :=
  let u := pa / 256
  let q := u / 12 % 32
  { stack := u % 12, ward := u % 12 / 3, channel := q / 2, pseudo := q % 2, offset := u / 384 * 256 + pa % 256 }

/-- The size of the protected word that holds an address: 8 bytes in Loft, 32 in HBM (spec/09 R255). -/
def wordSize (pa : Nat) : Nat := if loftBase ≤ pa then 8 else 32

/-- The protected word that holds an address, by its first address. -/
def wordOf (pa : Nat) : Nat := pa / wordSize pa * wordSize pa

/-- Whether a byte lies in a poisoned word. -/
def State.poisonedAt (s : State) (pa : Nat) : Bool := s.poison.contains (wordOf pa)

/-- Whether a run of bytes touches a poisoned word. -/
def State.poisonedRange (s : State) (pa n : Nat) : Bool :=
  s.poison.any (fun w => decide (w < pa + n) && decide (pa < w + wordSize w))

/-- Bytes written one by one, none into a word of a list (spec/09 R255: bytes written into a word that stays poisoned
are lost). -/
def Mem.writeExcept (bad : List Nat) (m : List Host.Cell) : Nat → List Byte → List Host.Cell
  | _, [] => m
  | a, b :: bs => Mem.writeExcept bad (if bad.contains (wordOf a) then m else Mem.write m a b) (a + 1) bs

/-- A write of bytes at a physical address (spec/09 R255): a write that covers a poisoned word clears it; one that
covers part of it is lost there. -/
def State.store (s : State) (pa : Nat) (bs : List Byte) : State :=
  let covered := fun w => decide (pa ≤ w) && decide (w + wordSize w ≤ pa + bs.length)
  let left := s.poison.filter (fun w => !covered w)
  { s with mem := Mem.writeExcept left s.mem pa bs, poison := left }

/-- n bytes read at a physical address. -/
def State.load (s : State) (pa n : Nat) : List Byte := Mem.readN s.mem pa n

/-- Words made poisoned. -/
def State.addPoison (s : State) (ws : List Nat) : State := { s with poison := ws.foldl insertNat s.poison }

/-- Memory of a range set to zero: the entries of the range removed. -/
def Mem.zero (m : List Host.Cell) (lo hi : Nat) : List Host.Cell :=
  m.filter (fun c => decide (c.1 < lo) || decide (hi ≤ c.1))

/-- A physical range zeroed (spec/09 R270): its bytes 0 and its poison cleared. -/
def State.zeroRange (s : State) (lo hi : Nat) : State :=
  { s with
    mem := Mem.zero s.mem lo hi
    poison := s.poison.filter (fun w => decide (w + wordSize w ≤ lo) || decide (hi ≤ w)) }

end Sys2Proof.Machine
end

