-- ==== Sys2Proof/Machine/Objects.lean ====
section
/-! DEFINITION. The objects of the Parish Register: their default values and reading and setting one (spec/16 R463,
R467, and the object tables of spec/01 and spec/10 to spec/18). OCTETS and STRING values are little-endian numbers. -/

namespace Sys2Proof.Machine

/-- The bytes of a text as a number, first character lowest. -/
def textNat (cs : List Nat) : Nat := cs.foldr (fun c x => c + 256 * x) 0

/-- Defaults of the fabric object (spec/13, table Fabric objects). -/
def fabricDefault : Nat → Nat
  | 0x00 => 0x09 | 0x03 => 0xFFFF | 0x05 => 0xFFFF | 0x06 => 1 | _ => 0

/-- Defaults of a link's object (spec/13, table Link objects). -/
def linkDefault : Nat → Nat
  | 0x00 => 0x0A | 0x01 => 1 | 0x03 => 0xFFFF | 0x04 => 0xFF | _ => 0

/-- Defaults of the fabric, link and routing objects (spec/13, tables Fabric objects and Link objects). -/
def objDefaultFabric (idx sub : Nat) : Nat :=
  if idx = 0x2100 then fabricDefault sub
  else if 0x2110 ≤ idx ∧ idx < 0x2150 then linkDefault sub
  else if 0x2180 ≤ idx ∧ idx < 0x2184 then (if sub = 0 then 0x80 else 0)
  else if idx = 0x2184 then (if sub = 0 then 0x01 else 0)
  else 0

/-- Defaults of the identity, security, power and management objects (spec/01, spec/15, spec/16, spec/18). -/
def objDefaultDevice (idx sub : Nat) : Nat :=
  match idx with
  | 0x1000 =>
    match sub with
    | 0x00 => 0x06
    | 0x01 => textNat [79, 100, 116, 105, 107, 32, 77, 105, 99, 114, 111, 115, 121, 115, 116, 101, 109, 115]
    | 0x02 => textNat [83, 80, 45, 55, 50, 48, 52]
    | 0x03 => textNat [83, 80, 45, 55, 50, 48, 52, 45, 76, 67]
    | 0x04 => textNat [66, 48]
    | 0x05 => Config.serialNumber
    | 0x06 => 0x01
    | _ => 0
  | 0x1100 =>
    match sub with
    | 0x00 => 0x04 | 0x01 => 2 | 0x02 => Config.identityDigest | _ => 0
  | 0x1200 => match sub with | 0x00 => 0x05 | 0x01 => 2400 | _ => 0
  | 0x1201 | 0x1202 | 0x1203 | 0x1204 => match sub with | 0x00 => 0x04 | 0x01 => 750 | 0x02 => 750 | _ => 0
  | 0x1205 => if sub = 0 then 0x07 else 0
  | 0x1210 =>
    match sub with
    | 0x00 => 0x0D | 0x05 => 90000 | 0x06 => 100000 | 0x07 => 110000 | _ => 0
  | 0x1220 => if sub = 0 then 4 else 0
  | 0x1300 => match sub with | 0x00 => 0x04 | 0x03 => 0x01 | _ => 0
  | 0x2000 => match sub with | 0x00 => 0x02 | 0x01 => 4 | _ => 0
  | 0x2001 | 0x2002 | 0x2003 | 0x2004 =>
    match sub with
    | 0x00 => 0x10 | 0x01 => 1 | 0x03 => Config.macAddress (idx - 0x2001) | 0x07 => 3 | 0x08 => 26 | 0x09 => 48
    | 0x0A => 50 | 0x0B => 55 | 0x0C => 0x0FA00064 | _ => 0
  | 0x20F0 =>
    match sub with
    | 0x00 => 0x06 | 0x01 => Config.macAddress 4 | 0x04 => 24 | 0x05 => 1 | _ => 0
  | 0x3000 => match sub with | 0x00 => 0x05 | 0x04 => 256 | _ => 0
  | 0x3200 => match sub with | 0x00 => 0x02 | 0x01 => 0xFF | _ => 0
  | 0x3201 => match sub with | 0x00 => 0x0B | 0x02 => 0x400000000000 | _ => 0
  | 0x3202 => match sub with | 0x00 => 0x0B | 0x02 => 0x480000000000 | _ => 0
  | 0x3300 => match sub with | 0x00 => 0x05 | 0x01 => 16384 | 0x03 => 8 | 0x04 => 100000 | 0x05 => 1 | _ => 0
  | 0x3301 => match sub with | 0x00 => 0x09 | 0x03 => 8 | 0x07 => 0xFFFF | _ => 0
  | 0x7000 => match sub with | 0x00 => 0x04 | 0x04 => 4096 | _ => 0
  | 0x7001 => if sub = 0 then 0x40 else 0
  | 0x7F00 => match sub with | 0x00 => 0x08 | 0x01 => 0x03 | _ => 0
  | 0x7F01 => if sub = 0 then 0x01 else 0
  | _ => 0

/-- Defaults of an allotment's object (spec/10, table Allotment objects). -/
def allotDefault : Nat → Nat
  | 0x00 => 0x22 | 0x04 => 1000 | 0x06 => 9 | 0x09 => 1 | 0x0A => 0xFF | 0x0B => 1000000 | 0x0F => 0xFFFF | _ => 0

/-- Defaults of a Moot group's object (spec/14, table Moot objects). -/
def groupDefault : Nat → Nat
  | 0x00 => 0x0E | 0x02 => 1 | 0x04 => 10000 | 0x08 => 1 | _ => 0

/-- The Default column of every object (spec/16 R463). -/
def objDefault (idx sub : Nat) : Nat :=
  if 0x3100 ≤ idx ∧ idx < 0x3200 then allotDefault sub
  else if 0x4000 ≤ idx ∧ idx < 0x4040 then groupDefault sub
  else if 0x4040 ≤ idx ∧ idx < 0x4080 then (if sub = 0 then 0x80 else 0x0000FFFF)
  else if 0x5000 ≤ idx ∧ idx < 0x5100 then (if sub = 0 then 0x18 else 0)
  else if 0x2100 ≤ idx ∧ idx < 0x2200 then objDefaultFabric idx sub
  else objDefaultDevice idx sub

/-- The key of object idx.sub in State.regs. -/
def objKey (idx sub : Nat) : Nat := idx * 256 + sub

/-- The value of an object. -/
def State.reg (s : State) (idx sub : Nat) : Nat := Tbl.get (objDefault idx sub) s.regs (objKey idx sub)

/-- An object set to a value. -/
def State.setReg (s : State) (idx sub v : Nat) : State := { s with regs := s.regs.set (objKey idx sub) v }

/-- An object raised by n, wrapping modulo 2^64. -/
def State.bumpReg (s : State) (idx sub n : Nat) : State := s.setReg idx sub ((s.reg idx sub + n) % 2 ^ 64)

end Sys2Proof.Machine
end

