-- ==== Sys2Proof/Machine/Ops.lean ====
section
/-! DEFINITION. The named operations over State that the commands' meanings share: status codes, contexts, cores,
allotments, free values and marks. -/

namespace Sys2Proof.Machine

/-- The outcome of a command's meaning. -/
abbrev Res := Host.Outcome State Fault Refusal

/-! ### Status codes (spec/00 R7, R9) -/

/-- The code of a status. -/
def stCode : Status → Nat
  | .ok => 0x00 | .frozenTarget => 0x01 | .tagRefused => 0x02 | .adaptationWithdrawn => 0x03
  | .passAbortedFault => 0x04 | .preempted => 0x05 | .deadlinePartial => 0x06 | .bankBusy => 0x07
  | .clamped => 0x08 | .accessDenied => 0x09 | .tallyMismatch => 0x0A | .measurementInTransition => 0x0B
  | .memberLost => 0x0C | .watchdog => 0x0D | .hazard => 0x0E | .shapeMismatch => 0x0F

/-- The status of a code; none for the reserved codes. -/
def stOfCode : Nat → Option Status
  | 0x00 => some .ok | 0x01 => some .frozenTarget | 0x02 => some .tagRefused | 0x03 => some .adaptationWithdrawn
  | 0x04 => some .passAbortedFault | 0x05 => some .preempted | 0x06 => some .deadlinePartial
  | 0x07 => some .bankBusy | 0x08 => some .clamped | 0x09 => some .accessDenied | 0x0A => some .tallyMismatch
  | 0x0B => some .measurementInTransition | 0x0C => some .memberLost | 0x0D => some .watchdog
  | 0x0E => some .hazard | 0x0F => some .shapeMismatch | _ => none

/-- The class of a status, the one reported first lowest: Refused, Stopped, Adjusted, Done (spec/00 R9). -/
def stRank : Status → Nat
  | .ok => 3
  | .tagRefused | .deadlinePartial | .clamped => 2
  | .adaptationWithdrawn | .passAbortedFault | .preempted | .memberLost | .watchdog => 1
  | _ => 0

/-- The choice of R9 between two statuses. -/
def stPick (a b : Status) : Status :=
  if stRank a * 16 + stCode a ≤ stRank b * 16 + stCode b then a else b

/-- The choice of R9 over a list of statuses. -/
def stPickAll (l : List Status) : Status := l.foldl stPick .ok

/-! ### Free values (log entry 2) -/

/-- A fresh number, and the state that has drawn it. -/
def State.drawNat (s : State) : Nat × State := (Config.freeNat s.freeCtr, { s with freeCtr := s.freeCtr + 1 })

/-- n fresh bytes. -/
def State.drawBytes (s : State) (n : Nat) : List Byte × State :=
  ((List.range n).map (fun i => Config.freeByte (s.freeCtr + i)), { s with freeCtr := s.freeCtr + n })

/-- A fresh choice. -/
def State.drawBool (s : State) : Bool × State := (Config.freeBool s.freeCtr, { s with freeCtr := s.freeCtr + 1 })

/-- A fresh status other than OK, where the spec names none. -/
def State.drawStatus (s : State) : Status × State :=
  ((stOfCode (1 + Config.freeNat s.freeCtr % 15)).getD .accessDenied, { s with freeCtr := s.freeCtr + 1 })

/-! ### Cores, contexts, allotments -/

/-- A core's state. -/
def State.core (s : State) (c : Nat) : Core := Tbl.get {} s.cores c

def State.setCore (s : State) (c : Nat) (x : Core) : State := { s with cores := s.cores.set c x }

def State.modCore (s : State) (c : Nat) (f : Core → Core) : State := s.setCore c (f (s.core c))

/-- The key of the context of allotment a on core c. -/
def ctxKey (a c : Nat) : Nat := a * 128 + c

/-- The context of allotment a on core c; none when the core is not among the allotment's. -/
def State.ctx? (s : State) (a c : Nat) : Option Ctx := s.ctxs.find (ctxKey a c)

/-- The context, or an idle one. -/
def State.ctx (s : State) (a c : Nat) : Ctx := (s.ctx? a c).getD {}

def State.setCtx (s : State) (a c : Nat) (x : Ctx) : State := { s with ctxs := s.ctxs.set (ctxKey a c) x }

def State.modCtx (s : State) (a c : Nat) (f : Ctx → Ctx) : State := s.setCtx a c (f (s.ctx a c))

/-- An allotment's state. -/
def State.allot (s : State) (a : Nat) : Allot := Tbl.get {} s.allots a

def State.setAllot (s : State) (a : Nat) (x : Allot) : State := { s with allots := s.allots.set a x }

def State.modAllot (s : State) (a : Nat) (f : Allot → Allot) : State := s.setAllot a (f (s.allot a))

/-- A stream of an allotment. -/
def State.stream (s : State) (a n : Nat) : Stream := Tbl.get {} (s.allot a).streams n

def State.modStream (s : State) (a n : Nat) (f : Stream → Stream) : State :=
  s.modAllot a (fun x => { x with streams := Tbl.modify {} x.streams n f })

/-- The physical cores of an allotment in ascending order: its allotment core index counts them (spec/07, section From
command ring to core). -/
def State.allotCores (s : State) (a : Nat) : List Nat :=
  ((s.ctxs.keys).filter (fun k => k / 128 == a)).map (· % 128)

/-- The allotments on a core, in ascending number (spec/10 R291, R306). -/
def State.coreAllots (s : State) (c : Nat) : List Nat :=
  ((s.ctxs.keys).filter (fun k => k % 128 == c)).map (· / 128)

/-- The allotment core index of a physical core. -/
def State.coreIndex (s : State) (a c : Nat) : Nat := (s.allotCores a).findIdx (· == c)

/-- The physical core of an allotment core index. -/
def State.coreAt (s : State) (a i : Nat) : Option Nat := (s.allotCores a)[i]?

/-- The Green's allotment number; 0 when there is none (spec/10 R295). -/
def State.greenAllot (s : State) : Nat := s.reg 0x3000 0x01

/-- Whether an allotment is the Green. -/
def State.isGreen (s : State) (a : Nat) : Bool := a != 0 && a == s.greenAllot

/-- Whether an allotment is a tenant allotment (spec/06 R164): neither allotment 0 nor the Green. -/
def State.isTenant (s : State) (a : Nat) : Bool := a != 0 && a != s.greenAllot

/-- The default tag of a row that no tag map names (spec/06 R164). -/
def State.defaultTag (s : State) (a : Nat) : Tag := if s.isTenant a then .tenant a 0 else .common

/-- Whether a ward is held (spec/18 R516; object 0x1210.09). -/
def State.wardHeld (s : State) (w : Nat) : Bool := bitAt (s.reg 0x1210 0x09) w

/-- Whether a throttle holds a ward's supply below its setpoint (spec/04 R119; objects 0x120w.01 and .02). -/
def State.wardThrottled (s : State) (w : Nat) : Bool :=
  s.lowered.contains w && decide (s.reg (0x1201 + w) 0x02 < s.reg (0x1201 + w) 0x01)

/-- The context that holds a core and may start work there: the resident one, while no switch is under way and its ward
is not held (spec/10 R308, spec/04 R120). -/
def State.onCore (s : State) (c : Nat) : Option (Nat × Ctx) :=
  if s.wardHeld (c / 32) || (s.core c).phase != .idle then none
  else match (s.core c).resident with
    | none => none
    | some a => (s.ctx? a c).map (fun x => (a, x))

/-! ### Context registers -/

/-- A scalar register; s0 reads as zero (spec/07, section The Ganger). -/
def Ctx.s (x : Ctx) (r : Reg) : W64 := if r = 0 then 0 else Tbl.get 0 x.sregs r.toNat

/-- A scalar register written; a write of s0 is discarded. -/
def Ctx.setS (x : Ctx) (r : Reg) (v : W64) : Ctx := if r = 0 then x else { x with sregs := x.sregs.set r.toNat v }

/-- A mark counter (spec/07 R210). -/
def Ctx.mark (x : Ctx) (m : Nat) : W32 := Tbl.get 0 x.marks m

def Ctx.setMark (x : Ctx) (m : Nat) (v : W32) : Ctx := { x with marks := x.marks.set m v }

/-- A mark incremented by n, or none named. -/
def Ctx.bumpMark (x : Ctx) (m : Option Nat) (n : Nat := 1) : Ctx :=
  match m with
  | none => x
  | some m => x.setMark m (x.mark m + BitVec.ofNat 32 n)

/-- The number of an engine status register (spec/08 R234, G.ESC). -/
def engineNo : Engine → Nat
  | .ganger => 0 | .lath => 1 | .skimmer => 2 | .trowel => 3 | .moot => 4 | .saveArea => 5

/-- An engine status register. -/
def Ctx.est (x : Ctx) (e : Engine) : EStat := Tbl.get {} x.estat (engineNo e)

/-- A status register after an operation with a status (spec/07 R216). OK leaves it. -/
def EStat.note (r : EStat) (st : Status) (index : Nat) : EStat :=
  if st = .ok then r
  else
    { count := min 0xFFFF (r.count + 1)
      first := if r.count = 0 then st else r.first
      last := st
      firstIndex := if r.count = 0 then index else r.firstIndex }

/-- An operation's status taken into its engine's register (spec/07 R216). -/
def Ctx.note (x : Ctx) (e : Engine) (st : Status) (index : Nat) : Ctx :=
  { x with estat := x.estat.set (engineNo e) ((x.est e).note st index) }

/-- The 64 bits of an engine status register (spec/07, table Engine status register). -/
def EStat.word (r : EStat) : W64 :=
  BitVec.ofNat 64 (r.count * 2 ^ 48 + stCode r.first * 2 ^ 40 + stCode r.last * 2 ^ 32 + r.firstIndex % 2 ^ 24 * 2 ^ 8)

/-- The next operation index of an engine (spec/07 R216). -/
def Ctx.nextIndex (x : Ctx) (e : Engine) : Nat := Tbl.get 0 x.opIndex (engineNo e)

/-- The engine's index advanced, wrapping modulo 2^24. -/
def Ctx.takeIndex (x : Ctx) (e : Engine) : Ctx :=
  { x with opIndex := x.opIndex.set (engineNo e) ((x.nextIndex e + 1) % 2 ^ 24) }

/-- A nest register (spec/07 R203). -/
def Ctx.nest (x : Ctx) (n : Nat) : List NestLevel := Tbl.get nestIdle x.nests n

/-- Whether the program runs and may fetch (spec/07 R197): not halted, stopping or hung, and no tag-map store waits
(spec/10 R301). -/
def Ctx.fetching (x : Ctx) : Bool := x.run == .running && x.tagStore == none

/-! ### Numeric counters (spec/12 R362, R363) -/

/-- Counts added to an allotment's numeric counters. -/
def State.count (s : State) (a : Nat) (e : Ev) : State :=
  let add := fun (t : State) (sub n : Nat) => if n = 0 then t else t.bumpReg (0x5000 + a) sub n
  add (add (add (add (add (add (add (add s 1 e.zeroBlocks) 2 e.flushed) 3 e.saturations) 4 e.invalid) 5 e.propagated)
    6 e.infinities) 7 e.tagRefusals) 8 e.remnant

/-- The watchdog of an allotment restarts from zero when it runs (spec/10 R313). -/
def State.petWatchdog (s : State) (a : Nat) : State :=
  s.modAllot a (fun x => { x with wdSince := x.wdSince.map (fun _ => s.timer) })

/-! ### Trace (spec/15 R458, R460) -/

/-- Trace of the cores that a test picks stops. -/
def State.stopTrace (s : State) (p : Nat → Bool) : State := { s with traced := s.traced.filter (fun c => !p c) }

/-- The trace buffer zeroed. -/
def State.zeroTrace (s : State) : State := { s with traceBuf := s.traceBuf.map (fun _ => 0) }

end Sys2Proof.Machine
end

