-- ==== Sys2Proof/Machine/Pages.lean ====
section
/-! DEFINITION. Virtual addresses, page descriptors, translation and the page checks of a transfer (spec/09 R257 to
R271, spec/10 R288), and row tags by address (spec/06 R164, spec/09 R269). -/

namespace Sys2Proof.Machine

/-- The base of every Loft window (spec/10 R288). -/
def loftVa : Nat := 0x800000000000

/-- The size of a core's Loft window, and of its slice (spec/10 R288, spec/09 R253). -/
def windowSize : Nat := 0x08000000

/-- The first virtual address of the Loft window of allotment core index i. -/
def windowVa (i : Nat) : Nat := loftVa + i * windowSize

/-- The first virtual address of an allotment's Loft window on a core. -/
def State.windowOf (s : State) (a c : Nat) : Nat := windowVa (s.coreIndex a c)

/-- The size of the page that an address lies in (spec/09 R257). -/
def pageSize (va : Nat) : Nat := if va < loftVa then 0x200000 else 0x10000

/-- The first address of the page that an address lies in. -/
def pageBase (va : Nat) : Nat := va / pageSize va * pageSize va

/-- The key of an HBM page in State.hbmPages. -/
def hbmKey (a va : Nat) : Nat := a * 2 ^ 26 + va / 0x200000

/-- Whether an address lies in the Larder's range (spec/11 R326). -/
def inLarder (va : Nat) : Bool := decide (0x600000000000 ≤ va) && decide (va < 0x700000000000)

/-- Whether an address lies in the fabric window (spec/13 R391). -/
def inFabric (va : Nat) : Bool := decide (0x500000000000 ≤ va) && decide (va < 0x600000000000)

/-- The Well slot that an address lies in (spec/16, section The Well registry). -/
def wellSlotOf (va : Nat) : Option Nat :=
  if va < 0x400000000000 then none
  else if va < 0x480000000000 then some 0
  else if va < 0x500000000000 then some 1
  else none

/-- A Well slot's role (object 0x320s.01): 0 EMPTY, 1 FILLING, 2 SEALED, 3 ACTIVE, 4 RETIRING. -/
def State.wellRole (s : State) (slot : Nat) : Nat := s.reg (0x3201 + slot) 0x01

/-- Whether a slot is being filled: FILLING, and not frozen for its seal. -/
def State.wellOpen (s : State) (slot : Nat) : Bool := s.wellRole slot == 1 && !(Tbl.get {} s.wells slot).sealing

/-- Whether the Well is mapped into an allotment's space (spec/09 R260, spec/10 R294); a revoked grant holds until its requested unmap
applies. -/
def State.wellGranted (s : State) (a : Nat) : Bool :=
  a == 0 || s.isGreen a || s.reg (0x3100 + a) 0x0E != 0 || s.removals.any (fun r => r.allot == a && r.kind == .well)

/-- The descriptor of a Well page (spec/09 R259, table Permitted attributes). -/
def State.wellPage (s : State) (a va slot : Nat) : Option PageDesc :=
  if s.wellGranted a && !(Tbl.get {} s.wells slot).unmapped then
    (((Tbl.get {} s.wells slot).frames)[va % 0x80000000000 / 0x200000]?).map (fun f =>
      if s.wellOpen slot then
        { r := true, w := a == 0, draw := true, frozen := false, tag := true, scrub := true, owner := 0, frame := f }
      else
        { r := true, w := false, draw := true, frozen := true, tag := true, scrub := true, owner := 0, frame := f })
  else none

/-- The handle and the page number that a Larder address names (spec/11 R326). -/
def larderPlace (va : Nat) : Nat × Nat := ((va - 0x600000000000) / 0x40000000, (va - 0x600000000000) % 0x40000000 / 0x200000)

/-- The descriptor of a Larder page (spec/11, table Larder page attributes). -/
def State.larderPage (s : State) (a va : Nat) : Option PageDesc :=
  let p := larderPlace va
  match s.larder.find p.1 with
  | none => none
  | some e =>
    if (a == e.owner && e.ownerMapped) || (s.isGreen a && e.greenMapped) then
      (e.frames[p.2]?).map (fun f =>
        { r := true, w := false, draw := s.isGreen a, frozen := true, tag := true, scrub := true, owner := e.owner, frame := f })
    else none

/-- The core and the page number that a Loft address names in an allotment's space (spec/10 R288). -/
def State.loftPlace (s : State) (a va : Nat) : Option (Nat × Nat) :=
  (s.coreAt a ((va - loftVa) / windowSize)).map (fun c => (c, (va - loftVa) % windowSize / 0x10000))

/-- The descriptor of the page that an address lies in (spec/09 R257, R258). -/
def State.pageOf (s : State) (a va : Nat) : Option PageDesc :=
  if 2 ^ 48 ≤ va then none
  else if loftVa ≤ va then
    match s.loftPlace a va with
    | none => none
    | some (c, j) => Tbl.find (s.ctx a c).pages j
  else if inLarder va then s.larderPage a va
  else match Tbl.find s.hbmPages (hbmKey a va) with
    | some d => some d
    | none =>
      match wellSlotOf va with
      | none => none
      | some slot => s.wellPage a va slot

/-- The physical address of a virtual address in a mapped page (spec/09 R253, R258). -/
def State.paOf (s : State) (a va : Nat) : Option Nat :=
  (s.pageOf a va).bind (fun d =>
    if loftVa ≤ va then
      (s.loftPlace a va).map (fun p => loftBase + p.1 * windowSize + d.frame * 0x10000 + va % 0x10000)
    else some (d.frame * 0x200000 + va % 0x200000))

/-- The first addresses of the pages that a range touches (spec/09 R265); fuel bounds their number. -/
def pagesFrom : Nat → Nat → Nat → List Nat
  | 0, _, _ => []
  | fuel + 1, va, len =>
    if len = 0 then []
    else
      let room := pageSize va - va % pageSize va
      pageBase va :: (if len ≤ room then [] else pagesFrom fuel (va + room) (len - room))

/-- The pages of a range. -/
def pagesOf (va len : Nat) : List Nat := pagesFrom (len / 0x10000 + 2) va len

/-! ### Translation caches (spec/09 R262, log entry 95) -/

/-- The page of an address, by which a cache finds its descriptor: 2 MiB in HBM, 64 KiB in a Loft. -/
def pageKey (va : Nat) : Nat := if va < loftVa then va / 0x200000 else va / 0x10000

/-- The entries of a cache of so many that each of its users has. -/
def cacheShare (size users : Nat) : Nat := size / max 1 users

/-- Whether an entry is that of an allotment's page. -/
def TlbEnt.isFor (e : TlbEnt) (a page : Nat) : Bool := e.allot == a && e.page == page

/-- A page's descriptor looked up: on a miss it is read, and takes the place of the allotment's own oldest entry beyond its share; an
unmapped page has no entry. -/
def State.cacheRead (s : State) (share a : Nat) (l : List TlbEnt) (va : Nat) : List TlbEnt :=
  let page := pageKey va
  match s.pageOf a va with
  | none => l
  | some d =>
    if l.contains { allot := a, page := page, desc := d } then l
    else
      let rest := l.filter (fun e => !e.isFor a page)
      { allot := a, page := page, desc := d } :: rest.filter (fun e => e.allot != a) ++
        (rest.filter (fun e => e.allot == a)).take (share - 1)

/-- A range translated. -/
def State.cacheRange (s : State) (share a : Nat) (l : List TlbEnt) (va len : Nat) : List TlbEnt :=
  (pagesOf va len).foldl (s.cacheRead share a) l

/-- The entries of a range's pages leave every cache, since their descriptors change (spec/09 R271). -/
def State.dropCached (s : State) (a va len : Nat) : State :=
  let keys := (pagesOf va len).map pageKey
  let keep := fun (l : List TlbEnt) => l.filter (fun e => !(e.allot == a && keys.contains e.page))
  { s with
    cores := s.cores.map (fun e => (e.1, { e.2 with tlb := keep e.2.tlb }))
    carterCaches := s.carterCaches.map (fun e => (e.1, { e.2 with entries := keep e.2.entries })) }

/-- Whether every page of a range has a property. -/
def State.allPages (s : State) (a va len : Nat) (p : Nat → PageDesc → Bool) : Bool :=
  (pagesOf va len).all (fun v => match s.pageOf a v with | none => false | some d => p v d)

/-- Whether some mapped page of a range has a property. -/
def State.anyPage (s : State) (a va len : Nat) (p : Nat → PageDesc → Bool) : Bool :=
  (pagesOf va len).any (fun v => match s.pageOf a v with | none => false | some d => p v d)

/-- Whether a range is wholly mapped, below bit 48 (spec/09 R264 order 2). -/
def State.mapped (s : State) (a va len : Nat) : Bool :=
  decide (va + len ≤ 2 ^ 48) && s.allPages a va len (fun _ _ => true)

/-- Whether a page of a range is spilled: an operation at the head of its queue waits for it (spec/09 R271). -/
def State.spilledIn (s : State) (a va len : Nat) : Bool := s.anyPage a va len (fun _ d => d.spilled)

/-- Whether a page is one of the incoming Well slot, which allotment 0 may write (spec/09 R264 order 5). -/
def State.incomingWell (s : State) (a va : Nat) : Bool :=
  a == 0 && (match wellSlotOf va with | none => false | some slot => s.wellOpen slot)

/-- Whether a range touches the tag-map range of a control page (spec/10 R289). -/
def inTagMap (va len : Nat) : Bool :=
  decide (loftVa ≤ va + len) &&
    (pagesOf va len).any (fun v =>
      decide (loftVa ≤ v) && (v - loftVa) % windowSize == 0x80000 &&
        decide (v + 0x1800 < va + len) && decide (va < v + 0x1900))

/-- Whether a range of the Green's space touches words that only the Crier writes: the admission ring but for its consumed
count, the retire ring's consumed count, the binding table (spec/10 R296, spec/11 R336). -/
def State.crierWords (s : State) (a va len : Nat) : Bool :=
  let hits := fun lo hi => decide (va < hi) && decide (lo < va + len)
  s.isGreen a && decide (0 < len) &&
    (hits 0x7F0000000000 0x7F0000000008 || hits 0x7F0000000010 0x7F0000200000 || hits 0x7F8000000008 0x7F8000000010 ||
      hits 0x7E0000000000 0x7E0000200000)

/-- A byte range that a transfer names. -/
structure VRange where
  va : Nat
  len : Nat
  deriving DecidableEq, Repr

/-- Orders 2 to 7 of the table Transfer checks (spec/09 R264, R265) over source and destination ranges of an allotment's
space; toHawk: the destination is the Hawk or a weight ring. -/
def State.transferCheck (s : State) (a : Nat) (src dst : List VRange) (toHawk : Bool) : Status :=
  let on := fun (l : List VRange) (p : Nat → PageDesc → Bool) => l.any (fun r => s.anyPage a r.va r.len p)
  if !(src ++ dst).all (fun r => s.mapped a r.va r.len) then .accessDenied
  else if on src (fun _ d => !d.r) then .accessDenied
  else if !toHawk && on src (fun _ d => d.draw) then .accessDenied
  else if on dst (fun v d => d.draw && !s.incomingWell a v) then .accessDenied
  else if on dst (fun _ d => d.frozen) then .frozenTarget
  else if on dst (fun _ d => !d.w) || dst.any (fun r => inTagMap r.va r.len || s.crierWords a r.va r.len) then .accessDenied
  else .ok

/-- A byte with whether its protected word is poisoned (spec/09 R255). -/
abbrev PByte := Byte × Bool

/-- Bytes of a virtual range, with their poison; fuel bounds the pages. -/
def State.readPages (s : State) (a : Nat) : Nat → Nat → Nat → List PByte
  | 0, _, _ => []
  | fuel + 1, va, len =>
    if len = 0 then []
    else
      let room := min len (pageSize va - va % pageSize va)
      let bs : List PByte := match s.paOf a va with
        | none => List.replicate room (0, false)
        | some pa =>
          let l := s.load pa room
          if s.poisonedRange pa room then (l.zip (List.range room)).map (fun x => (x.1, s.poisonedAt (pa + x.2)))
          else l.map (fun b => (b, false))
      bs ++ s.readPages a fuel (va + room) (len - room)

/-- Bytes of a virtual range with their poison. -/
def State.readP (s : State) (a va len : Nat) : List PByte := s.readPages a (len / 0x10000 + 2) va len

/-- Bytes of a virtual range. -/
def State.readVa (s : State) (a va len : Nat) : List Byte := (s.readP a va len).map Prod.fst

/-- Whether a virtual range touches a poisoned word. -/
def State.poisonedVa (s : State) (a va len : Nat) : Bool := (s.readP a va len).any Prod.snd

/-- Bytes written to a virtual range; fuel bounds the pages. -/
def State.writePages (s : State) (a : Nat) : Nat → Nat → List Byte → State
  | 0, _, _ => s
  | fuel + 1, va, bs =>
    if bs.isEmpty then s
    else
      let room := pageSize va - va % pageSize va
      let s1 := match s.paOf a va with
        | none => s
        | some pa => s.store pa (bs.take room)
      s1.writePages a fuel (va + room) (bs.drop room)

/-- Bytes written to a virtual range. -/
def State.writeVa (s : State) (a va : Nat) (bs : List Byte) : State := s.writePages a (bs.length / 0x10000 + 2) va bs

/-- The words of the destination that receive a poisoned byte become poisoned (spec/09 R255, plain moves). -/
def State.carryPoison (s : State) (a va : Nat) (bs : List PByte) : State :=
  s.addPoison (((bs.zip (List.range bs.length)).filter (fun x => x.1.2)).filterMap
    (fun x => (s.paOf a (va + x.2)).map wordOf))

/-- A plain move's bytes written with their poison. -/
def State.writeP (s : State) (a va : Nat) (bs : List PByte) : State :=
  (s.writeVa a va (bs.map Prod.fst)).carryPoison a va bs

/-! ### Row tags by address -/

/-- The tag-map entry that names an address on a core, and the row in it (spec/06 R164). -/
def Ctx.tagRow (x : Ctx) (va : Nat) : Option (TagMapEnt × Nat) :=
  (x.tagMap.find? (fun e => decide (e.2.base ≤ va) && decide (va < e.2.base + e.2.pitch * e.2.rows))).map
    (fun e => (e.2, (va - e.2.base) / e.2.pitch))

/-- The tag-map entry that names an address for an allotment, and the row in it: the accessing core's own, or that of the core in
whose window the address lies (spec/06 R164, spec/10 R301). -/
def State.tagRowAt (s : State) (a c va : Nat) : Option (TagMapEnt × Nat) :=
  ((s.ctx a c).tagRow va).orElse (fun _ =>
    if va < loftVa then none else (s.coreAt a ((va - loftVa) / windowSize)).bind (fun d => (s.ctx a d).tagRow va))

/-- A row tag word (spec/06 R163). The reserved KIND 0b11 is taken as mixed, a choice (log entry 108). -/
def tagOfWord (w : Nat) : Tag :=
  match fld w 41 40 with
  | 0 => .common
  | 1 => .tenant (fld w 39 32) (fld w 31 0)
  | _ => .mixed

/-- The tag of a roster slot (spec/06 R164, R165, spec/10 R302). -/
def State.rosterTag (s : State) (a slot : Nat) : Tag :=
  if s.isGreen a then Tbl.get .common s.greenRoster slot
  else
    let va := s.reg (0x3100 + a) 0x10 + 8 * slot
    if decide (slot < s.reg (0x3100 + a) 0x11) && s.allPages a va 8 (fun _ d => d.r) && !s.poisonedVa a va 8 then
      let w := ofLe (s.readVa a va 8)
      if s.isTenant a then .tenant a (fld w 31 0) else tagOfWord w
    else s.defaultTag a

/-- The slot of an intake or outlet row of the Green (spec/10 R296). -/
def State.greenSlotAt (s : State) (va : Nat) : Option Nat :=
  let slotBytes := s.reg 0x3000 0x03 * s.reg 0x3000 0x04
  let at' := fun base => if slotBytes ≠ 0 ∧ base ≤ va ∧ va < base + s.reg 0x3000 0x02 * slotBytes
    then some ((va - base) / slotBytes) else none
  (at' 0x700000000000).orElse (fun _ => at' 0x780000000000)

/-- The tag of the row at an address, read by the allotment on a core (spec/06 R164, spec/09 R269, spec/10 R296). -/
def State.tagAt (s : State) (a c va : Nat) : Tag :=
  match s.tagRowAt a c va with
  | some (e, i) => s.rosterTag a (e.first + i)
  | none =>
    match (if s.isGreen a then s.greenSlotAt va else none) with
    | some slot => s.rosterTag a slot
    | none =>
      match s.pageOf a va with
      | some d =>
        if d.tag then
          (if s.isTenant d.owner then .tenant d.owner 0 else if d.owner = 0 then .common else s.defaultTag a)
        else s.defaultTag a
      | none => s.defaultTag a

/-- Whether a tag names a tenant. -/
def isTenantTag : Tag → Bool
  | .tenant _ _ => true
  | _ => false

/-- The allotment that a tag names. -/
def tagOwner : Tag → Option Nat
  | .tenant a _ => some a
  | _ => none

/-- The tag of a unit whose bytes come from rows of several tags, in source address order (spec/06 R540). -/
def tagMerge (ts : List Tag) : Tag :=
  let owners := ts.filterMap tagOwner
  if ts.contains .mixed || (match owners with | [] => false | o :: r => r.any (· != o)) then .mixed
  else (ts.find? isTenantTag).getD .common

end Sys2Proof.Machine
end

