-- ==== Sys2Proof/Machine/Post.lean ====
section
/-! DEFINITION. The event log (spec/16 R473), dropped frames (spec/17 R489) and completion entries (spec/17 R498,
R499). -/

namespace Sys2Proof.Machine

/-- The fields of an event record (spec/16, table Event record). -/
structure Event where
  written : Nat := 0
  applied : Nat := 0
  index : Nat := 0
  sub : Nat := 0
  kind : Nat
  allot : Nat := 0
  status : Status := .ok
  word : Nat := 0
  role : Nat := 0
  deriving DecidableEq, Repr

/-- The 256 bits of an event record at a time. -/
def Event.bits (e : Event) (time : Nat) : Nat :=
  time % 2 ^ 64 * 2 ^ 192 + e.written % 2 ^ 64 * 2 ^ 128 + e.applied % 2 ^ 64 * 2 ^ 64 + e.index % 2 ^ 16 * 2 ^ 48 +
    e.sub % 2 ^ 8 * 2 ^ 40 + e.kind % 2 ^ 8 * 2 ^ 32 + e.allot % 2 ^ 8 * 2 ^ 24 + stCode e.status * 2 ^ 16 +
    e.word % 2 ^ 8 * 2 ^ 8 + e.role % 8 * 2 ^ 5

/-- A performance counter of an allotment raised by n (spec/16 R468); what is counted while the allotment is confidential stays excluded from
every other party's view (spec/15 R458, R459). -/
def State.perf (s : State) (a sub n : Nat) : State :=
  let s1 := s.bumpReg (0x6000 + a) sub n
  if s.reg (0x3100 + a) 0x0D = 0 then s1
  else { s1 with perfHidden := Tbl.modify 0 s1.perfHidden (a * 256 + sub) (fun (k : Nat) => (k + n) % 2 ^ 64) }

/-- A record added: the latest 4,096 are kept (spec/16, section The event log). Bit 256 marks one whose allotment is confidential when it is
made (spec/15 R459). -/
def State.logEvent (s : State) (e : Event) : State :=
  let n := s.reg 0x7000 0x02
  let mark := if s.reg (0x3100 + e.allot) 0x0D = 0 then 0 else 2 ^ 256
  let s1 := ({ s with log := ((s.log.set n (e.bits s.timer + mark)).drop (fun k => decide (k + 4096 ≤ n))) }).setReg 0x7000 0x02 (n + 1)
  s1.setReg 0x7000 0x01 (n + 1 - min (n + 1) 4096)

/-- A drop that no reason code of its chapter names is recorded with a free one (spec/16, table Event kinds, 0x05; log entry 2). -/
def State.logDrop (s : State) (src a : Nat) : State :=
  let d := s.drawNat
  d.2.logEvent { kind := 0x05, written := src, applied := d.1, allot := a }

/-- A counter of the Parish Register raised by one, holding at its maximum of w bits. -/
def State.bumpHold (s : State) (idx sub w : Nat) : State := s.setReg idx sub (min (2 ^ w - 1) (s.reg idx sub + 1))

/-- A drop on a port (spec/17 R489): the count rises, and a record is added unless one of the port and reason was added
within the last 1 ms. -/
def State.dropPort (s : State) (port reason a : Nat) : State :=
  let s1 := s.bumpReg (0x2001 + port) 0x0E 1
  let key := port * 16 + reason
  let fresh := match s1.dropAt.find key with
    | none => true
    | some t => decide (t + 1000000 ≤ s1.timer)
  if fresh then
    ({ s1 with dropAt := s1.dropAt.set key s1.timer }).logEvent { kind := 0x05, written := 0xFFFF, applied := reason, allot := a }
  else s1

/-- The counts of connected queue pairs, of the device and of an allotment (spec/17, table Host objects). -/
def State.countQps (s : State) (a : Nat) : State :=
  let live := s.qps.filter (fun e => !e.2.error)
  (s.setReg 0x2000 0x02 live.length).setReg 0x2011 a (live.filter (fun e => e.2.allot == a)).length

/-- The 32 bytes of entry p of a completion queue (spec/17, table Completion entry). -/
def Completion.entry (c : Completion) (stream p entries : Nat) : List Byte :=
  leBytes 32 (c.cookie % 2 ^ 64 * 2 ^ 192 + c.count % 2 ^ 40 * 2 ^ 152 + c.rseq % 2 ^ 16 * 2 ^ 136 +
    stCode c.status * 2 ^ 128 + c.kind % 16 * 2 ^ 124 + stream % 16 * 2 ^ 120 + (if c.all then 0 else c.core % 128) * 2 ^ 113 +
    b2n c.all * 2 ^ 112 + (1 - p / entries % 2))

/-! ### Frames of queue pairs (spec/15 R456, spec/17 R488 to R492) -/

/-- Something sent or driven. -/
def State.emit (s : State) (o : Out) : State := { s with out := o :: s.out }

/-- A port's object, and whether the port is up (spec/17, table Host objects). -/
def State.portReg (s : State) (p sub : Nat) : Nat := s.reg (0x2001 + p) sub
def State.portUp (s : State) (p : Nat) : Bool := s.power == .running && decide (p < 4) && s.portReg p 0x02 == 2

/-- The MACsec channel of an allotment. -/
def State.channel (s : State) (n : Nat) : Macsec := (s.allot n).macsec

/-- Whether a queue pair's frames are protected as its allotment's channel has it: once that is keyed, they all are (spec/17 R492). The
frames of a pair are protected when the pair was connected so (log entry 114). -/
def State.fits (s : State) (q : Qp) : Bool := q.isProtected == (s.channel q.allot).keyed

/-- A queue pair that is connected on a port that is up, and whose frames the device accepts. -/
def State.liveQp (s : State) (qp : Nat) : Option Qp :=
  match s.qps.find qp with
  | none => none
  | some q => if q.error || !s.portUp q.port || !s.fits q then none else some q

/-- The SCI of the frames of an allotment on a port: the port's MAC address with the port identifier 0x0100 + n, for which a received protected
frame is verified too (spec/17 R492). -/
def State.sci (s : State) (p n : Nat) : Nat := s.portReg p 0x03 * 2 ^ 16 + (0x0100 + n)

/-- The packet number at which an association is no longer transmitted on (spec/15 R456). -/
def pnLimit : Nat := 2 ^ 64 - 2 ^ 32

/-- Whether the device has stopped transmitting a queue pair's frames until the next LYCH_KEY. -/
def State.txStopped (s : State) (q : Qp) : Bool :=
  (s.channel q.allot).keyed && decide (pnLimit ≤ Tbl.get 0 (s.channel q.allot).sent q.port)

/-- Whether messages cross on a queue pair at present. -/
def State.crosses (s : State) (qp : Nat) : Bool :=
  match s.qps.find qp with
  | none => false
  | some q => !q.error && s.fits q && !s.txStopped q

/-- The packets of a message (spec/17 R490). -/
def Qp.packets (q : Qp) (bytes : Nat) : Nat := max 1 (ceilDiv bytes q.mtu)

/-- A message of so many bytes sent on a queue pair: on a keyed channel it goes out protected, under the channel's SCI and AN and the packet
number of its first packet, and not at all once transmission has stopped. -/
def State.sendQp (s : State) (qp : Nat) (o : Out) (bytes : Nat) : State :=
  match s.qps.find qp with
  | none => s.emit o
  | some q =>
    let m := s.channel q.allot
    let pn := Tbl.get 0 m.sent q.port
    if !m.keyed then s.emit o
    else if pnLimit ≤ pn then s
    else (s.modAllot q.allot (fun x => { x with macsec := { x.macsec with sent := x.macsec.sent.set q.port (pn + q.packets bytes) } })).emit
      (.secured (s.sci q.port q.allot) m.an (pn + 1) o)

/-- A packet for a queue pair number that is not connected is dropped on the port that it has come to: one of those that are up, which one
the spec does not say (log entry 113). -/
def State.dropUnknown (s : State) (a : Nat) : State :=
  match [0, 1, 2, 3].filter s.portUp with
  | [] => s
  | p :: ps =>
    let d := s.drawNat
    d.2.dropPort ((p :: ps).getD (d.1 % (ps.length + 1)) p) 0x01 a

/-- What a message on a queue pair that cannot take it gives: a packet dropped for a pair that is not connected, or one that is not protected
as its channel wants it; nothing where the pair's port is not up. -/
def State.noQp (s : State) (qp : Nat) : State :=
  match s.qps.find qp with
  | none => s.dropUnknown 0
  | some q =>
    if !s.portUp q.port then s
    else s.dropPort q.port (if q.error then 0x01 else if q.isProtected then 0x04 else 0x03) q.allot

/-- Whether a port sends a pause: PFC is enabled, and more than 1.5 MiB of its 2 MiB receive buffer is held for the PFC priority (spec/17
R500). -/
def State.sendsPause (s : State) (p held : Nat) : Bool := s.portReg p 0x06 != 0 && decide (1572864 < held)

/-- A packet has come to a port: how much of the receive buffer is held then is timing, a free value (log entry 67), and a pause is sent
where it is too much. Nothing is held for the PFC priority while PFC is off. -/
def State.portArrive (s : State) (p : Nat) : State :=
  if s.portReg p 0x06 = 0 then s
  else
    let d := s.drawNat
    let held := d.1 % (2 * 1024 * 1024 + 1)
    let t := { d.2 with rxHeld := d.2.rxHeld.set p held }
    if t.sendsPause p held then t.emit (.pfcPause p (t.portReg p 0x07)) else t

/-! ### Completions (spec/17 R498, R499) -/

/-- The first waiting completion of a stream leaves it, and one that is held waits in its place. -/
def Stream.pop (x : Stream) : Stream := { x with waiting := x.waiting.drop 1 ++ x.held.take 1, held := x.held.drop 1 }

/-- The waiting completions of a stream that can be written are written in order (spec/17 R498, R499); fuel bounds their
number. One whose queue pair is in the error state, or is none of the allotment's, is dropped; on a pair that has stopped transmitting it
waits. For a pair that is connected nowhere, the port that counts the drop is free (log entry 113). -/
def State.flushCompletions (s : State) (a n : Nat) : Nat → State
  | 0 => s
  | fuel + 1 =>
    let st := s.stream a n
    match st.waiting, st.desc with
    | c :: _, some d =>
      match s.qps.find d.cqQp with
      | some q =>
        if q.allot ≠ a ∨ q.error then
          ((s.modStream a n Stream.pop).dropPort q.port 0x07 a).flushCompletions a n fuel
        else if st.written - st.hostConsumed < 2 ^ d.cqLog2 ∧ s.crosses d.cqQp then
          let bytes := c.entry n st.written (2 ^ d.cqLog2)
          let s1 := s.modStream a n (fun x => { x.pop with written := st.written + 1 })
          ((s1.sendQp d.cqQp (.hostWrite d.cqQp (d.cqRaddr + st.written % 2 ^ d.cqLog2 * 32) d.cqRkey bytes) 32).bumpReg
            (0x3100 + a) 0x22 32).flushCompletions a n fuel
        else s
      | none =>
        ((s.modStream a n Stream.pop).dropPort (Config.absentPort d.cqQp s.timer % 4) 0x07 a).flushCompletions a n fuel
    | _, _ => s

/-- The completions of a stream written as far as they can be. -/
def State.flush (s : State) (a n : Nat) : State :=
  s.flushCompletions a n ((s.stream a n).waiting.length + (s.stream a n).held.length)

/-- A completion posted to a stream (spec/17 R498): it waits in the Crier until it can be written; while 256 wait, it is held with the work
that it ends (R499). -/
def State.post (s : State) (a n : Nat) (c : Completion) : State :=
  (s.modStream a n (fun x =>
    if x.waiting.length < 256 then { x with waiting := x.waiting ++ [c] } else { x with held := x.held ++ [c] })).flush a n

/-- A queue pair enters the error state, and is connected no longer (spec/17 R491); the completions that wait for it are dropped (R499). -/
def State.failQp (s : State) (qp : Nat) : State :=
  match s.qps.find qp with
  | none => s
  | some q =>
    let s1 := ({ s with qps := s.qps.set qp { q with error := true } }).countQps q.allot
    let mine := (s1.allot q.allot).streams.keys.filter (fun n => ((s1.stream q.allot n).desc.map StreamDesc.cqQp) == some qp)
    mine.foldl (fun t n => t.flush q.allot n) s1

/-- A command of an allotment completed on one core with a status; when no core is left, its completion is posted with
the choice of R9 (spec/07 R186), and the watchdog restarts (spec/10 R313). -/
def State.cmdDone (s : State) (a id core : Nat) (st : Status) : State :=
  match (s.allot a).cmds.find id with
  | none => s
  | some k =>
    let k' := { k with live := k.live.filter (· != core), statuses := st :: k.statuses }
    if k'.live.isEmpty && k'.todo.isEmpty then
      ((s.modAllot a (fun x => { x with cmds := x.cmds.erase id })).post a k.stream
        { cookie := k.cookie, rseq := k.rseq, status := stPickAll k'.statuses, kind := 0x1, core := k.core, all := k.all }).petWatchdog a
    else s.modAllot a (fun x => { x with cmds := x.cmds.set id k' })

/-- A HAZARD refusal on a core counted, and reported in the event log at most once per 1 ms (spec/16, table Event
kinds, 0x03). -/
def State.noteHazard (s : State) (a c : Nat) : State :=
  let x := s.core c
  let due := match x.hazardAt with
    | none => true
    | some t => decide (t + 1000000 ≤ s.timer)
  if due then
    (s.setCore c { x with hazards := 0, hazardAt := some s.timer }).logEvent
      { kind := 0x03, written := x.hazards + 1, applied := s.coreIndex a c, allot := a, status := .hazard }
  else s.setCore c { x with hazards := x.hazards + 1 }

end Sys2Proof.Machine
end

