-- ==== Sys2Proof/Machine/FabricOps.lean ====
section
/-! DEFINITION. Shared operations of the fabric: the topology as a graph, routes, and sending flits (spec/13 R376 to
R390). -/

namespace Sys2Proof.Machine

/-! ### Links -/

/-- A link's state (spec/13, table Link states): 0 DARK, 1 TRAINING, 2 HELLO, 3 UP, 4 HELD, 5 DOWN. -/
def State.linkState (s : State) (l : Nat) : Nat := s.reg (0x2110 + l) 0x02

/-- A link of the fabric. -/
def State.link (s : State) (l : Nat) : Link := Tbl.get {} s.links l

def State.setLink (s : State) (l : Nat) (k : Link) : State := { s with links := s.links.set l k }

def State.modLink (s : State) (l : Nat) (f : Link → Link) : State := s.setLink l (f (s.link l))

/-- A link taken into a state. -/
def State.linkTo (s : State) (l st : Nat) : State :=
  (s.modLink l (fun k => { k with since := s.timer })).setReg (0x2110 + l) 0x02 st

/-- The links that are UP. -/
def State.upLinks (s : State) : List Nat := (List.range 64).filter (fun l => s.linkState l == 3)

/-- Whether a link's state carries a channel (spec/13, table Link states). -/
def State.carries (s : State) (l vc : Nat) : Bool :=
  s.linkState l == 3 || (vc == 0 && (s.linkState l == 2 || s.linkState l == 4))

/-- This device's house number in force; 0xFFFF while unnumbered. -/
def State.house (s : State) : Nat := s.reg 0x2100 0x03

/-- This device's identity digest (spec/15). -/
def State.digest (s : State) : Nat := s.reg 0x1100 0x02

/-- The receive buffer of a channel (spec/13, table Virtual channels). -/
def vcBuffer (vc : Nat) : Nat := if vc = 0 then 16 else if vc = 2 ∨ vc = 3 then 256 else 64

/-- The credits of a link that has gained FEC lock (spec/13 R381). -/
def fullCredit : Tbl Nat := (List.range 16).map (fun v => (v, vcBuffer v))

/-! ### The topology as a graph (spec/13 R383): node 0 is this device, node i + 1 the i-th entry held -/

/-- The node of a digest among the entries held. -/
def State.nodeOf (s : State) (digest : Nat) : Option Nat :=
  (s.topo.findIdx? (fun e => e.digest == digest)).map (· + 1)

/-- The neighbour's digest of a link. -/
def State.nbrDigest (s : State) (l : Nat) : Nat := s.reg (0x2110 + l) 0x05

/-- This device's UP links with their neighbours' nodes. -/
def State.ownEdges (s : State) : List (Nat × Nat) :=
  s.upLinks.filterMap (fun l => (s.nodeOf (s.nbrDigest l)).map (fun n => (l, n)))

/-- The nodes next to a node. -/
def State.nodeNbrs (s : State) (n : Nat) : List Nat :=
  if n = 0 then s.ownEdges.map Prod.snd
  else match s.topo[n - 1]? with
    | none => []
    | some e =>
      e.links.filterMap (fun l => s.nodeOf l.neighbour) ++ (if s.ownEdges.any (fun x => x.2 == n) then [0] else [])

/-- The house number of a node. -/
def State.nodeHouse (s : State) (n : Nat) : Nat :=
  if n = 0 then s.house else match s.topo[n - 1]? with | some e => e.house | none => 0xFFFF

/-- The number of nodes. -/
def State.nodes (s : State) : Nat := s.topo.length + 1

/-- The node that holds a house number. -/
def State.nodeOfHouse (s : State) (h : Nat) : Option Nat := (List.range s.nodes).find? (fun n => s.nodeHouse n == h)

/-- The smaller of two distances; none is infinite. -/
def minDist : Option Nat → Option Nat → Option Nat
  | none, b => b
  | a, none => a
  | some a, some b => some (min a b)

/-- One round of relaxation of distances, over the nodes. -/
def State.relax (s : State) (d : List (Option Nat)) : List (Option Nat) :=
  (List.range s.nodes).map (fun n =>
    minDist (d.getD n none) (((s.nodeNbrs n).map (fun m => (d.getD m none).map (· + 1))).foldl minDist none))

/-- n rounds. -/
def State.relaxN (s : State) : Nat → List (Option Nat) → List (Option Nat)
  | 0, d => d
  | n + 1, d => s.relaxN n (s.relax d)

/-- The distance in hops of every node from a node. -/
def State.distances (s : State) (t : Nat) : List (Option Nat) :=
  s.relaxN s.nodes ((List.range s.nodes).map (fun n => if n = t then some 0 else none))

/-- Whether a house is in the topology with a path to it (spec/13 R383, R397). -/
def State.reachable (s : State) (h : Nat) : Bool :=
  match s.nodeOfHouse h with
  | none => false
  | some t => ((s.distances t).getD 0 none).isSome

/-! ### Routes -/

/-- The primary and alternate links of R387 for a house. -/
def State.autoRoute (s : State) (h : Nat) : List Nat × List Nat :=
  match s.nodeOfHouse h with
  | none => ([], [])
  | some t =>
    let d := s.distances t
    match d.getD 0 none with
    | none => ([], [])
    | some own =>
      ((s.ownEdges.filter (fun e => (d.getD e.2 none).map (· + 1) == some own)).map Prod.fst,
       (s.ownEdges.filter (fun e => d.getD e.2 none == some own)).map Prod.fst)

/-- The links of a bitmap that are UP (spec/13 R390). -/
def State.bitmapLinks (s : State) (b : Nat) : List Nat := s.upLinks.filter (fun l => bitAt b l)

/-- The routing table's links for a house: primary, alternate (spec/13 R387, R390). -/
def State.routeLinks (s : State) (h : Nat) : List Nat × List Nat :=
  if s.reg 0x2100 0x04 = 1 then
    let e := Tbl.get 0 s.routes h
    (s.bitmapLinks (fld e 63 0), s.bitmapLinks (fld e 127 64))
  else s.autoRoute h

/-- The bitmaps of the routing table for a house. -/
def linkBits (ls : List Nat) : Nat := (ls.map (2 ^ ·)).foldl Nat.lor 0

/-- The routing table, put where its entries read back in either mode (spec/13 R399). -/
def State.publishRoutes (s : State) : State :=
  (List.range 512).foldl (fun t h =>
    let r := s.autoRoute h
    let v := if s.reg 0x2100 0x04 = 1 then Tbl.get 0 s.routes h else linkBits r.1 + linkBits r.2 * 2 ^ 64
    if t.reg (0x2180 + h / 128) (h % 128 + 1) = v then t else t.setReg (0x2180 + h / 128) (h % 128 + 1) v) s

/-- A node's place in the tree of the escape channel (spec/13 R388): depth below the authority, then house number. -/
def State.place (s : State) (depth : List (Option Nat)) (n : Nat) : Nat :=
  match depth.getD n none with
  | none => 2 ^ 32
  | some d => d * 2 ^ 16 + s.nodeHouse n

/-- One round of relaxation of legal distances: for each node, with up steps still allowed, and with down steps only. -/
def State.relaxEsc (s : State) (depth : List (Option Nat)) (d : List (Option Nat × Option Nat)) :
    List (Option Nat × Option Nat) :=
  (List.range s.nodes).map (fun n =>
    let old := d.getD n (none, none)
    (s.nodeNbrs n).foldl (fun acc m =>
      let dm := d.getD m (none, none)
      if s.place depth m < s.place depth n then (minDist acc.1 (dm.1.map (· + 1)), acc.2)
      else (minDist acc.1 (dm.2.map (· + 1)), minDist acc.2 (dm.2.map (· + 1)))) old)

/-- So many rounds of it. -/
def State.relaxEscN (s : State) (depth : List (Option Nat)) : Nat → List (Option Nat × Option Nat) → List (Option Nat × Option Nat)
  | 0, d => d
  | n + 1, d => s.relaxEscN depth n (s.relaxEsc depth d)

/-- The link of the escape route to a house (spec/13 R388): the first link of the shortest legal route, the lowest on a
tie. mayUp: no down step lies behind. -/
def State.escapeLink (s : State) (h : Nat) (mayUp : Bool) : Option Nat :=
  match s.nodeOfHouse h, s.nodeOfHouse (s.reg 0x2100 0x05) with
  | some t, some root =>
    let depth := s.distances root
    let d := s.relaxEscN depth (2 * s.nodes)
      ((List.range s.nodes).map (fun n => if n = t then (some 0, some 0) else (none, none)))
    let cost := fun (e : Nat × Nat) =>
      let dm := d.getD e.2 (none, none)
      if s.place depth e.2 < s.place depth 0 then (if mayUp then dm.1 else none) else dm.2
    let best := (s.ownEdges.map cost).foldl minDist none
    if best.isNone then none else (s.ownEdges.find? (fun e => cost e == best)).map Prod.fst
  | _, _ => none

/-- Whether a step over a link from its neighbour to this device goes up (spec/13 R388). -/
def State.upStep (s : State) (l : Nat) : Bool :=
  match s.nodeOf (s.nbrDigest l), s.nodeOfHouse (s.reg 0x2100 0x05) with
  | some m, some root =>
    let depth := s.distances root
    decide (s.place depth 0 < s.place depth m)
  | _, _ => true

/-! ### Sending -/

/-- The credits held on a channel of a link. -/
def Link.creditOf (k : Link) (vc : Nat) : Nat := Tbl.get 0 k.credit vc

/-- A flit on the wire, with its link fields and its link CRC (spec/13 R376). -/
def State.wire (s : State) (l : Nat) (x : Sent) : State :=
  let ack := (s.link l).rx
  { s with out := .flit l x.seq ack x.cvc x.ccnt (x.flit.lcrc x.seq ack x.cvc x.ccnt) x.flit :: s.out }

/-- A flit put on a link: it takes a SEQ and a credit, carries owed credits back and enters the replay buffer (spec/13
R377, R378). An IDLE flit takes no credit. mayUp: whether its escape route may still go up (R388). -/
def State.transmit (s : State) (l : Nat) (f : Flit) (mayUp : Bool := true) : State :=
  let k := s.link l
  let back := k.owed.find? (fun e => e.2 != 0)
  let cvc := match back with | some e => e.1 | none => 0
  let n := match back with | some e => min 15 e.2 | none => 0
  let x : Sent := { seq := k.tx, cvc := cvc, ccnt := n, mayUp := mayUp, flit := f }
  let k1 := { k with
    tx := (k.tx + 1) % 4096
    ackAt := if k.replay.isEmpty then s.timer else k.ackAt
    owed := if n = 0 then k.owed else Tbl.modify 0 k.owed cvc (· - n)
    credit := if f.kind = 0 then k.credit else Tbl.modify 0 k.credit f.vc (· - 1)
    replay := k.replay ++ [x] }
  (s.setLink l k1).wire l x

/-- Whether a link can take a flit of a channel now. -/
def State.ready (s : State) (l vc : Nat) : Bool :=
  s.carries l vc && decide (0 < (s.link l).creditOf vc) && decide ((s.link l).replay.length < 2048)

/-- The ready link of a list with the most credits on a channel, the lowest number on a tie (spec/13 R387). -/
def State.bestLink (s : State) (vc : Nat) (ls : List Nat) : Option Nat :=
  (ls.filter (fun l => s.ready l vc)).foldl (fun acc l => match acc with
    | none => some l
    | some b => if (s.link b).creditOf vc < (s.link l).creditOf vc then some l else some b) none

/-- The link that a waiting flit can leave by now (spec/13 R387 to R390). A flit of VC4 to VC15 that comes down where only a way up
remains takes it: its steps so far need not have been of an escape route. -/
def State.flitLink (s : State) (w : WaitFlit) : Option Nat :=
  let f := w.flit
  match w.link with
  | some l => if s.ready l f.vc then some l else none
  | none =>
    let r := s.routeLinks f.dest
    let esc := fun (up : Bool) => s.escapeLink f.dest up
    let open' := fun (o : Option Nat) => o.filter (fun l => s.ready l f.vc)
    if f.vc = 2 ∨ f.vc = 3 then
      (if f.alt then s.bestLink f.vc r.1
      else if r.1.isEmpty then (if r.2.isEmpty then none else s.bestLink f.vc r.2)
      else match s.bestLink f.vc r.1 with | some l => some l | none => s.bestLink f.vc r.2)
    else if f.vc = 1 then open' (esc w.mayUp)
    else match r.1.head? with
      | some l => if s.ready l f.vc then some l else none
      | none => open' (if (esc w.mayUp).isSome then esc w.mayUp else esc true)

/-- Whether a link is an alternate one for a destination, and no primary one (spec/13 R387). -/
def State.isAlternate (s : State) (h l : Nat) : Bool := !(s.routeLinks h).1.contains l && (s.routeLinks h).2.contains l

/-- A destination whose adaptive routes are both empty is reached by the escape channel alone (spec/13 R390). -/
def State.escapeOnly (s : State) (w : WaitFlit) : WaitFlit :=
  let r := s.routeLinks w.flit.dest
  if w.link.isNone && (w.flit.vc == 2 || w.flit.vc == 3) && r.1.isEmpty && r.2.isEmpty then
    { w with mayUp := true, flit := { w.flit with vc := 1 } }
  else w

/-- A receive buffer's slot becomes free: its credit is owed to the neighbour (spec/13 R378). -/
def State.owe (s : State) (l vc : Nat) : State := s.modLink l (fun k => { k with owed := Tbl.modify 0 k.owed vc (· + 1) })

/-- Credits owed on a link, returned in IDLE flits when no flit carries them, while the replay buffer has room (spec/13 R377, R378);
fuel bounds their number. -/
def State.returnCredits (s : State) (l : Nat) : Nat → State
  | 0 => s
  | fuel + 1 =>
    if (s.link l).owed.any (fun e => e.2 != 0) && decide (2 ≤ s.linkState l ∧ s.linkState l ≤ 4) &&
        decide ((s.link l).replay.length < 2048) then
      (s.transmit l { kind := 0, vc := 0, dest := 0x1FF, src := s.house % 512, household := 0xFFFF }).returnCredits l fuel
    else s

/-- Every link returns the credits it owes. -/
def State.returnAll (s : State) : State := s.links.foldl (fun t e => if e.2.owed.any (fun o => o.2 != 0) then t.returnCredits e.1 64 else t) s

/-- Two flits of one queue: of one channel and destination, and bound to one link if to any. -/
def WaitFlit.sameQueue (w o : WaitFlit) : Bool := o.flit.vc == w.flit.vc && o.link == w.link && o.flit.dest == w.flit.dest

/-- The waiting flits that can leave now, the oldest of each queue, with their places and their links. -/
def State.leaving (s : State) : List (Nat × Nat × WaitFlit) :=
  (s.flitWait.zip (List.range s.flitWait.length)).filterMap (fun e =>
    if (s.flitWait.take e.2).any e.1.sameQueue then none else (s.flitLink e.1).map (fun l => (e.2, l, e.1)))

/-- The flit that takes the next slot of a link: of VC0, VC1 or VC3 first, else of the channel whose turn comes next there (spec/19
R533). -/
def State.nextFlit (s : State) : Option (Nat × Nat × WaitFlit) :=
  let cs := s.leaving
  let of' := fun (vc : Nat) => cs.find? (fun e => e.2.2.flit.vc == vc)
  let wait := fun (l : Nat) (e : Nat × Nat × WaitFlit) => (e.2.2.flit.vc + 15 - (s.link l).turn) % 16
  match of' 0, of' 1, of' 3 with
  | some e, _, _ => some e
  | none, some e, _ => some e
  | none, none, some e => some e
  | none, none, none =>
    match cs with
    | [] => none
    | c :: rest => some ((rest.filter (fun e => e.2.1 == c.2.1)).foldl (fun b e => if wait c.2.1 e < wait c.2.1 b then e else b) c)

/-- A flit as it leaves by a link: one of VC2 or VC3 that leaves by an alternate link has taken one from then on (spec/13 R387). -/
def State.marked (s : State) (l : Nat) (f : Flit) : Flit :=
  { f with alt := f.alt || ((f.vc == 2 || f.vc == 3) && s.isAlternate f.dest l) }

/-- A waiting flit leaves by a link; the buffer slot that it held is free. -/
def State.leaveBy (s : State) (i l : Nat) (w : WaitFlit) : State :=
  let t := ({ s with flitWait := s.flitWait.eraseIdx i } : State).transmit l (s.marked l w.flit) w.mayUp
  let t1 := if w.flit.vc = 2 ∨ 4 ≤ w.flit.vc then t.modLink l (fun k => { k with turn := w.flit.vc }) else t
  match w.held with
  | some h => t1.owe h.1 h.2
  | none => t1

/-- The slots given out while a flit can leave; fuel is the number that waits. -/
def State.giveSlots (s : State) : Nat → State
  | 0 => s
  | fuel + 1 =>
    match s.nextFlit with
    | none => s
    | some e => (s.leaveBy e.1 e.2.1 e.2.2).giveSlots fuel

/-- The waiting flits that can leave now leave, oldest first in each queue; the others wait on, and credits owed go back. -/
def State.drainFlits (s : State) : State :=
  let s1 : State := { s with flitWait := s.flitWait.map s.escapeOnly }
  (s1.giveSlots s1.flitWait.length).returnAll

/-- Flits sent towards their destinations: each leaves at once or waits. -/
def State.sendFlits (s : State) (fs : List Flit) : State :=
  ({ s with flitWait := s.flitWait ++ fs.map (fun f => ({ since := s.timer, flit := f } : WaitFlit)) }).drainFlits

/-- A flit sent on one link. -/
def State.sendOn (s : State) (l : Nat) (f : Flit) : State :=
  ({ s with flitWait := s.flitWait ++ [({ since := s.timer, link := some l, flit := f } : WaitFlit)] }).drainFlits

/-- Bytes cut into pieces of n; fuel is at least their number. -/
def pieces (n : Nat) : Nat → List Byte → List (List Byte)
  | 0, _ => []
  | fuel + 1, bs => if bs.isEmpty then [] else bs.take n :: pieces n fuel (bs.drop n)

/-- The pieces of bytes with their offsets. -/
def piecesAt (n : Nat) (bs : List Byte) : List (Nat × List Byte) :=
  let ps := pieces n bs.length bs
  ((List.range ps.length).map (· * n)).zip ps

/-- The local allotment that holds a household (spec/10 R304). -/
def State.householdAllot (s : State) (h : Nat) : Option Nat :=
  if h = 0xFFFF then none else (List.range 256).find? (fun n => s.reg (0x3100 + n) 0x01 == 1 && s.reg (0x3100 + n) 0x0F == h)

/-! ### Receiving (spec/13 R377, R378) -/

/-- The codewords that the FEC has corrected with a flit are counted (spec/13 R399). -/
def State.fecCount (s : State) (l seq : Nat) : State :=
  s.bumpReg (0x2110 + l) 0x06 (Config.fecCorrected l seq s.timer)

/-- Every flit from ACK onward sent again, in order (spec/13 R377); each counts how often (R396). -/
def State.resend (s : State) (l : Nat) : State :=
  let k := s.link l
  k.replay.foldl (fun t x => t.wire l x)
    ((s.setLink l { k with replay := k.replay.map (fun (x : Sent) => { x with resends := x.resends + 1 }), ackAt := s.timer }).bumpReg
      (0x2110 + l) 0x08 k.replay.length)

/-- Whether a flit names a sequence number that has been replaced already (spec/13 R377): as its ACK one that the replay buffer no longer
holds, or as its SEQ one that has been taken before. -/
def Link.replaced (k : Link) (h : FlitHdr) : Bool :=
  let back := (k.rx + 4096 - h.seq) % 4096
  (h.ack != k.tx && !k.replay.any (fun x => x.seq == h.ack)) || (back != 0 && decide (back ≤ 2048))

/-- A flit taken off a link: none when the link does not carry its channel or it is not the next in SEQ order. Its ACK trims the
replay buffer and its CVC and CCNT return credits; where it names a number that has been replaced, what the buffer holds is sent
again. -/
def State.linkTake (s : State) (l : Nat) (h : FlitHdr) (kind : Nat) : Option State :=
  let k := s.link l
  if !s.carries l (if kind = 0 then 0 else h.vc) || h.seq != k.rx then none
  else
    let left := k.replay.filter (fun e => let d := (h.ack + 4096 - e.seq) % 4096; d == 0 || decide (2048 < d))
    let moved := left.length != k.replay.length
    let t := ((s.setLink l
      { k with
        rx := (k.rx + 1) % 4096
        replay := left
        ackAt := if moved then s.timer else k.ackAt
        credit := if h.ccnt = 0 then k.credit else Tbl.modify 0 k.credit h.cvc (· + h.ccnt) }).fecCount l h.seq)
    some (if k.replaced h then t.resend l else t)

/-- A flit that is not taken: it is discarded, and where it names a number that has been replaced, what the replay buffer holds is sent
again (spec/13 R377). -/
def State.linkStray (s : State) (l : Nat) (h : FlitHdr) (kind : Nat) : State :=
  if s.carries l (if kind = 0 then 0 else h.vc) && (s.link l).replaced h then s.resend l else s

/-- A flit that arrives: taken off its link, it is handled here when it is for this device, and else it goes on towards its
destination (spec/13 R380, R387). Its escape route starts anew where it is not on VC1 yet (R388). -/
def State.arrive (s : State) (l : Nat) (h : FlitHdr) (kind ctx : Nat) (body : FlitBody) (here : State → State) : Res :=
  match s.linkTake l h kind with
  | none => .next (s.linkStray l h kind)
  | some s1 =>
    if 3 ≤ kind ∧ kind ≤ 6 ∧ h.dest ≠ s.house then
      .next ({ s1 with flitWait := s1.flitWait ++
        [({ since := s.timer, mayUp := h.vc == 2 || h.vc == 3 || s.upStep l
            held := some (l, h.vc)
            flit := { kind := kind, vc := h.vc, dest := h.dest, src := h.src, household := h.household, ctx := ctx, body := body, alt := h.alt } } : WaitFlit)] }).drainFlits
    else .next ((here (if kind = 0 then s1 else s1.owe l h.vc)).drainFlits)

end Sys2Proof.Machine
end

