-- ==== Sys2Proof/Machine/GangerCode.lean ====
section
/-! DEFINITION. The encoding of Ganger instructions and of the opcode fields of engine instructions: decoding, and the
words of an instruction (spec/08 R231 to R237). -/

namespace Sys2Proof.Machine

/-- A register field with its lowest bit at lo. -/
def regField (w lo : Nat) : Reg := BitVec.ofNat 5 (w / 2 ^ lo)

/-- FUNC of G.ALU; 0xB to 0xF are reserved (spec/08 R234). -/
def aluFnOf : Nat → Option AluFn
  | 0 => some .add | 1 => some .sub | 2 => some .and | 3 => some .or | 4 => some .xor | 5 => some .sll
  | 6 => some .srl | 7 => some .sra | 8 => some .slt | 9 => some .sltu | 10 => some .mul | _ => none

/-- The codes of the arithmetic functions (spec/08). -/
def aluFnCode : AluFn → Nat
  | .add => 0 | .sub => 1 | .and => 2 | .or => 3 | .xor => 4 | .sll => 5 | .srl => 6 | .sra => 7 | .slt => 8
  | .sltu => 9 | .mul => 10

/-- KIND of G.SHI; 0b11 is reserved. -/
def shKindOf : Nat → Option ShKind
  | 0 => some .sll | 1 => some .srl | 2 => some .sra | _ => none

/-- The codes of the shifts (spec/08). -/
def shKindCode : ShKind → Nat
  | .sll => 0 | .srl => 1 | .sra => 2

/-- CC of G.B.cc; 0b110 and 0b111 are reserved. -/
def ccOf : Nat → Option Cc
  | 0 => some .eq | 1 => some .ne | 2 => some .lt | 3 => some .ge | 4 => some .ltu | 5 => some .geu | _ => none

/-- The codes of the conditions (spec/08). -/
def ccCode : Cc → Nat
  | .eq => 0 | .ne => 1 | .lt => 2 | .ge => 3 | .ltu => 4 | .geu => 5

/-- ENGINE of G.ESC; 5 to 7 are reserved. -/
def engineOf : Nat → Option Engine
  | 0 => some .ganger | 1 => some .lath | 2 => some .skimmer | 3 => some .trowel | 4 => some .moot | _ => none

/-- The codes of the engines (spec/08). -/
def engineCode : Engine → Nat
  | .ganger => 0 | .lath => 1 | .skimmer => 2 | .trowel => 3 | .moot => 4 | .saveArea => 7

/-- The instruction of a word whose opcode is not an engine instruction's (spec/08 R234); gangerIllegalWord for a
reserved opcode, a reserved code or a nonzero reserved field (spec/08 R236, R237). -/
def gangerDecode (core : Nat) (w : Nat) : Instr :=
  let bad : Instr := .gangerIllegalWord core
  let rd := regField w 21
  let ra := regField w 16
  let imm : W16 := BitVec.ofNat 16 w
  let ok := fun (b : Bool) (i : Instr) => if b then i else bad
  match fld w 31 26 with
  | 0x01 => match aluFnOf (fld w 3 0) with
    | some fn => ok (fld w 10 4 == 0) (.gAlu core rd ra (regField w 11) fn)
    | none => bad
  | 0x02 => .gAddi core rd ra imm
  | 0x03 => .gAndi core rd ra imm
  | 0x04 => .gOri core rd ra imm
  | 0x05 => .gXori core rd ra imm
  | 0x06 => match shKindOf (fld w 15 14) with
    | some k => ok (fld w 13 6 == 0) (.gShi core rd ra k (BitVec.ofNat 6 w))
    | none => bad
  | 0x07 => .gSlti core rd ra imm
  | 0x08 => ok (fld w 18 16 == 0) (.gMovk core rd (BitVec.ofNat 2 (w / 2 ^ 19)) imm)
  | 0x10 => .gLdB core rd ra imm
  | 0x11 => .gLdH core rd ra imm
  | 0x12 => .gLdW core rd ra imm
  | 0x13 => .gLdD core rd ra imm
  | 0x14 => .gStB core rd ra imm
  | 0x15 => .gStH core rd ra imm
  | 0x16 => .gStW core rd ra imm
  | 0x17 => .gStD core rd ra imm
  | 0x18 => ok (fld w 22 21 == 0) (.gNld core (BitVec.ofNat 3 (w / 2 ^ 23)) ra imm)
  | 0x20 => match ccOf (fld w 15 13) with
    | some cc => .gBCc core cc rd ra (BitVec.ofNat 13 w)
    | none => bad
  | 0x21 => .gJ core (BitVec.ofNat 26 w)
  | 0x22 => ok (fld w 20 16 == 0) (.gLoop core rd imm)
  | 0x23 => ok (fld w 25 0 == 0) (.gBrk core)
  | 0x24 =>
    if bitAt w 19 then ok (fld w 13 0 == 0) (.gWait core (BitVec.ofNat 6 (w / 2 ^ 20)) (.reg (regField w 14)))
    else ok (fld w 18 14 == 0) (.gWait core (BitVec.ofNat 6 (w / 2 ^ 20)) (.imm (BitVec.ofNat 14 w)))
  | 0x25 => ok (fld w 14 0 == 0) (.gMset core (BitVec.ofNat 6 (w / 2 ^ 20)) (regField w 15))
  | 0x26 => ok (fld w 14 0 == 0) (.gMrd core rd (BitVec.ofNat 6 (w / 2 ^ 15)))
  | 0x27 => match engineOf (fld w 20 18) with
    | some e => ok (fld w 17 0 == 0) (.gEsc core rd e)
    | none => bad
  | 0x28 => ok (fld w 25 21 == 0 && fld w 15 0 == 0) (.gPring core ra)
  | 0x29 =>
    let e : BitVec 2 := BitVec.ofNat 2 (w / 2 ^ 24)
    match fld w 23 22 with
    | 0 => ok (fld w 21 0 == 0) (.gProvOpen core e)
    | 1 => ok (fld w 21 0 == 0) (.gProvConfirm core e)
    | 2 => ok (fld w 21 0 == 0) (.gProvCancel core e)
    | _ => bad
  | 0x2A =>
    match fld w 15 13 with
    | 0 => ok (fld w 12 0 == 0) (.gTallyB core ra)
    | 1 => ok (fld w 12 0 == 0) (.gTallyH core ra)
    | 2 => ok (fld w 12 0 == 0) (.gTallyW core ra)
    | 3 => ok (fld w 12 0 == 0) (.gTallyS core ra)
    | 4 => ok (fld w 12 0 == 0) (.gTallyR core rd)
    | _ => bad
  | 0x2B => ok (fld w 20 0 == 0) (.gTime core rd)
  | 0x2C => ok (fld w 25 21 == 0 && fld w 15 0 == 0) (.gPost core ra)
  | 0x2D => ok (fld w 25 21 == 0 && fld w 15 0 == 0) (.gSwap core ra)
  | 0x2E => ok (fld w 25 0 == 0) (.gHalt core)
  | 0x2F =>
    let sh : BitVec 4 := BitVec.ofNat 4 (w / 2 ^ 12)
    if bitAt w 11 then ok (fld w 10 0 == 0) (.gAddr2 core rd ra sh) else ok (fld w 10 0 == 0) (.gAddr core rd ra sh)
  | _ => bad

/-- The word of a Ganger instruction (spec/08 R234); none for a command that is no Ganger instruction. -/
def gangerEncode : Instr → Option Nat
  | .gAlu _ rd ra rb fn =>
    some (0x01 * 2 ^ 26 + rd.toNat * 2 ^ 21 + ra.toNat * 2 ^ 16 + rb.toNat * 2 ^ 11 + aluFnCode fn)
  | .gAddi _ rd ra imm => some (0x02 * 2 ^ 26 + rd.toNat * 2 ^ 21 + ra.toNat * 2 ^ 16 + imm.toNat)
  | .gAndi _ rd ra imm => some (0x03 * 2 ^ 26 + rd.toNat * 2 ^ 21 + ra.toNat * 2 ^ 16 + imm.toNat)
  | .gOri _ rd ra imm => some (0x04 * 2 ^ 26 + rd.toNat * 2 ^ 21 + ra.toNat * 2 ^ 16 + imm.toNat)
  | .gXori _ rd ra imm => some (0x05 * 2 ^ 26 + rd.toNat * 2 ^ 21 + ra.toNat * 2 ^ 16 + imm.toNat)
  | .gShi _ rd ra k amt =>
    some (0x06 * 2 ^ 26 + rd.toNat * 2 ^ 21 + ra.toNat * 2 ^ 16 + shKindCode k * 2 ^ 14 + amt.toNat)
  | .gSlti _ rd ra imm => some (0x07 * 2 ^ 26 + rd.toNat * 2 ^ 21 + ra.toNat * 2 ^ 16 + imm.toNat)
  | .gMovk _ rd lane imm => some (0x08 * 2 ^ 26 + rd.toNat * 2 ^ 21 + lane.toNat * 2 ^ 19 + imm.toNat)
  | .gLdB _ rd ra off => some (0x10 * 2 ^ 26 + rd.toNat * 2 ^ 21 + ra.toNat * 2 ^ 16 + off.toNat)
  | .gLdH _ rd ra off => some (0x11 * 2 ^ 26 + rd.toNat * 2 ^ 21 + ra.toNat * 2 ^ 16 + off.toNat)
  | .gLdW _ rd ra off => some (0x12 * 2 ^ 26 + rd.toNat * 2 ^ 21 + ra.toNat * 2 ^ 16 + off.toNat)
  | .gLdD _ rd ra off => some (0x13 * 2 ^ 26 + rd.toNat * 2 ^ 21 + ra.toNat * 2 ^ 16 + off.toNat)
  | .gStB _ rs ra off => some (0x14 * 2 ^ 26 + rs.toNat * 2 ^ 21 + ra.toNat * 2 ^ 16 + off.toNat)
  | .gStH _ rs ra off => some (0x15 * 2 ^ 26 + rs.toNat * 2 ^ 21 + ra.toNat * 2 ^ 16 + off.toNat)
  | .gStW _ rs ra off => some (0x16 * 2 ^ 26 + rs.toNat * 2 ^ 21 + ra.toNat * 2 ^ 16 + off.toNat)
  | .gStD _ rs ra off => some (0x17 * 2 ^ 26 + rs.toNat * 2 ^ 21 + ra.toNat * 2 ^ 16 + off.toNat)
  | .gNld _ nest ra off => some (0x18 * 2 ^ 26 + nest.toNat * 2 ^ 23 + ra.toNat * 2 ^ 16 + off.toNat)
  | .gBCc _ cc ra rb off =>
    some (0x20 * 2 ^ 26 + ra.toNat * 2 ^ 21 + rb.toNat * 2 ^ 16 + ccCode cc * 2 ^ 13 + off.toNat)
  | .gJ _ off => some (0x21 * 2 ^ 26 + off.toNat)
  | .gLoop _ rc endOff => some (0x22 * 2 ^ 26 + rc.toNat * 2 ^ 21 + endOff.toNat)
  | .gBrk _ => some (0x23 * 2 ^ 26)
  | .gWait _ mark (.imm v) => some (0x24 * 2 ^ 26 + mark.toNat * 2 ^ 20 + v.toNat)
  | .gWait _ mark (.reg ra) => some (0x24 * 2 ^ 26 + mark.toNat * 2 ^ 20 + 2 ^ 19 + ra.toNat * 2 ^ 14)
  | .gMset _ mark ra => some (0x25 * 2 ^ 26 + mark.toNat * 2 ^ 20 + ra.toNat * 2 ^ 15)
  | .gMrd _ rd mark => some (0x26 * 2 ^ 26 + rd.toNat * 2 ^ 21 + mark.toNat * 2 ^ 15)
  | .gEsc _ rd e => some (0x27 * 2 ^ 26 + rd.toNat * 2 ^ 21 + engineCode e * 2 ^ 18)
  | .gPring _ ra => some (0x28 * 2 ^ 26 + ra.toNat * 2 ^ 16)
  | .gProvOpen _ e => some (0x29 * 2 ^ 26 + e.toNat * 2 ^ 24)
  | .gProvConfirm _ e => some (0x29 * 2 ^ 26 + e.toNat * 2 ^ 24 + 1 * 2 ^ 22)
  | .gProvCancel _ e => some (0x29 * 2 ^ 26 + e.toNat * 2 ^ 24 + 2 * 2 ^ 22)
  | .gTallyB _ ra => some (0x2A * 2 ^ 26 + ra.toNat * 2 ^ 16)
  | .gTallyH _ ra => some (0x2A * 2 ^ 26 + ra.toNat * 2 ^ 16 + 1 * 2 ^ 13)
  | .gTallyW _ ra => some (0x2A * 2 ^ 26 + ra.toNat * 2 ^ 16 + 2 * 2 ^ 13)
  | .gTallyS _ ra => some (0x2A * 2 ^ 26 + ra.toNat * 2 ^ 16 + 3 * 2 ^ 13)
  | .gTallyR _ rd => some (0x2A * 2 ^ 26 + rd.toNat * 2 ^ 21 + 4 * 2 ^ 13)
  | .gTime _ rd => some (0x2B * 2 ^ 26 + rd.toNat * 2 ^ 21)
  | .gPost _ ra => some (0x2C * 2 ^ 26 + ra.toNat * 2 ^ 16)
  | .gSwap _ ra => some (0x2D * 2 ^ 26 + ra.toNat * 2 ^ 16)
  | .gHalt _ => some (0x2E * 2 ^ 26)
  | .gAddr _ rb ri sh => some (0x2F * 2 ^ 26 + rb.toNat * 2 ^ 21 + ri.toNat * 2 ^ 16 + sh.toNat * 2 ^ 12)
  | .gAddr2 _ rb ri sh => some (0x2F * 2 ^ 26 + rb.toNat * 2 ^ 21 + ri.toNat * 2 ^ 16 + sh.toNat * 2 ^ 12 + 2 ^ 11)
  | _ => none

/-- Whether a word begins an engine instruction (spec/08 R231). -/
def beginsEngine (w : Nat) : Bool := decide (0x3C ≤ fld w 31 26)

/-- The command that issues an engine instruction (spec/08, table Engine operations). An instruction with a reserved OP
is issued like any other and refused at the head of its queue (spec/08 R240); it is issued by its engine's first row
(log entry 1). -/
def engineDecode (core : Nat) (w : W128) : Instr :=
  let op := fld w.toNat 25 20
  match fld w.toNat 31 26 with
  | 0x3C =>
    match op with
    | 2 => .lLoadT core w | 3 => .lPass core w | 4 => .lPasso core w | 5 => .lSplit core w | _ => .lLoad core w
  | 0x3D =>
    match op with
    | 2 => .sFma core w | 3 => .sExp core w | 4 => .sSmax core w | 5 => .sTopk core w | 6 => .sRed core w
    | _ => .sCvt core w
  | 0x3E =>
    match op with
    | 2 => .tGather core w | 3 => .tScatter core w | _ => .tCopy core w
  | _ =>
    match op with
    | 2 => .mPublish core w | _ => .mContrib core w

end Sys2Proof.Machine
end

