-- ==== Sys2Proof/Machine/Flow.lean ====
section
/-! DEFINITION. Shared operations of a core: ranges and hazards, provisional epochs, fetch and program flow, pass
records, halts and faults (spec/04 R112, spec/07, spec/10 R311). -/

namespace Sys2Proof.Machine

/-! ### Ranges -/

/-- The runs of a range, as first and past-last positions. -/
def rngRuns (r : Rng) : List (Nat × Nat) :=
  (List.range r.rows).map (fun i => (r.base + i * r.stride, r.base + i * r.stride + r.len))

/-- A run of bytes in the allotment's virtual space. -/
def vaRng (va len : Nat) : Rng := { space := .va, base := va, len := len }

/-- The virtual ranges of an operation of any engine of a core translated by the core's Trowel, whose 512 entries the allotments present on
the core share (spec/09 R261, R262). -/
def State.translate (s : State) (a c : Nat) (fp : Footprint) : State :=
  let runs := ((fp.reads ++ fp.writes).filter (fun r => r.space == .va)).flatMap rngRuns
  let share := cacheShare 512 (s.coreAllots c).length
  s.modCore c (fun k => { k with tlb := runs.foldl (fun l r => s.cacheRange share a l r.1 (r.2 - r.1)) k.tlb })

/-- One virtual range translated. -/
def State.translateVa (s : State) (a c va len : Nat) : State := s.translate a c { reads := [vaRng va len] }

/-- Whether two ranges share a position. -/
def rngMeet (a b : Rng) : Bool :=
  a.space == b.space &&
    (rngRuns a).any (fun x => (rngRuns b).any (fun y => decide (x.1 < y.2) && decide (y.1 < x.2)))

/-- Whether two lists of ranges share a position. -/
def rngsMeet (a b : List Rng) : Bool := a.any (fun x => b.any (rngMeet x))

/-- The Tub elements that a pass holds wet, as ranges (spec/04 R105). -/
def wetRngs (p : PassRun) : List Rng := p.wet.map (fun e => { space := .tub, base := e.1, len := 1 })

/-- The Tub elements that started passes hold wet. -/
def Ctx.wet (x : Ctx) : List Rng := x.passes.flatMap wetRngs

/-- The footprints of an engine's started operations (spec/07 R224). -/
def Ctx.started (x : Ctx) : Engine → List Footprint
  | .lath => (x.passes.filter (fun p => p.status == none)).map PassRun.fp ++ (x.load.toList).map LoadRun.fp
  | .skimmer => (x.skims.filter (fun p => p.status == none)).map SkimRun.fp
  | .trowel => (x.trowels.filter (fun p => p.refused == none)).map TrowelRun.fp
  | .moot => x.moots.map MootRun.fp
  | _ => []

/-- The engines with queues. -/
def engines : List Engine := [.lath, .skimmer, .trowel, .moot]

/-- What started operations of engines other than e read. -/
def Ctx.otherReads (x : Ctx) (e : Engine) : List Rng :=
  ((engines.filter (· != e)).flatMap x.started).flatMap Footprint.reads

/-- The part of a virtual range in a window: the whole of it, or what its runs have there. -/
def Rng.within (win : Nat) (r : Rng) : List Rng :=
  if (rngRuns r).all (fun u => decide (win ≤ u.1) && decide (u.2 ≤ win + windowSize)) then [r]
  else (rngRuns r).filterMap (fun u =>
    let lo := max win u.1
    let hi := min (win + windowSize) u.2
    if lo < hi then some (vaRng lo (hi - lo)) else none)

/-- The ranges that the scoreboard covers: the core's Loft window, its Hawk, its tiles and its Tub (spec/07 R224). -/
def coveredRngs (win : Nat) (rs : List Rng) : List Rng :=
  rs.flatMap (fun r => if r.space = .va then r.within win else [r])

/-- A footprint's covered ranges. -/
def Footprint.covered (win : Nat) (f : Footprint) : Footprint :=
  { reads := coveredRngs win f.reads, writes := coveredRngs win f.writes }

/-- The hazard test of checked mode (spec/07 R224) for an operation of engine e about to start. -/
def Ctx.hazard (x : Ctx) (win : Nat) (e : Engine) (fp0 : Footprint) : Bool :=
  let fp := fp0.covered win
  x.checked &&
    ((e != .lath && rngsMeet fp.reads x.wet) || rngsMeet fp.writes (x.otherReads e) ||
      (e != .lath && rngsMeet fp.writes x.wet))

/-- The ranges on the scoreboard (spec/07 R224). -/
def Ctx.scoreboard (x : Ctx) (win : Nat) : Nat :=
  (((engines.flatMap x.started).map (Footprint.covered win)).map (fun f => f.reads.length + f.writes.length)).foldl (· + ·) 0

/-- Whether the scoreboard has room for an operation; outside checked mode it always has. -/
def Ctx.boardRoom (x : Ctx) (win : Nat) (fp : Footprint) : Bool :=
  !x.checked || decide (x.scoreboard win + (fp.covered win).reads.length + (fp.covered win).writes.length ≤ 256)

/-- The ranges that make an operation wait, its own apart: provisional ranges (spec/07 R226) and the unsettled destinations of a
Tally check (spec/09 R281). An iteration is an operation of its own (spec/07 R204). -/
def Ctx.heldRngs (x : Ctx) (q : QOp) : List Rng :=
  ((x.epochs.flatMap Epoch.ranges).filter (fun r => r.issue != q.issue || r.iter != q.taken)).map ProvRng.rng ++
    (x.trowels.filter (fun t => !t.settled && (t.q.issue != q.issue || t.q.taken != q.taken))).flatMap (fun t => t.fp.writes)

/-- The provisional ranges in use, of the 64 that an allotment has on a core: those of its epochs, and the unsettled destinations of
transfers outside them (spec/07 R226, spec/19 R535). -/
def Ctx.provUsed (x : Ctx) : Nat :=
  (x.epochs.map (fun e => e.ranges.length)).foldl (· + ·) 0 +
    ((x.trowels.filter (fun t => !t.settled && t.q.epoch.isNone)).map (fun t => t.fp.writes.length)).foldl (· + ·) 0

/-- Whether an operation must wait for held ranges. -/
def Ctx.mustWait (x : Ctx) (q : QOp) (fp : Footprint) : Bool := rngsMeet (fp.reads ++ fp.writes) (x.heldRngs q)

/-! ### Engine instruction headers (spec/08, table Engine instruction header) -/

/-- Bits [hi:lo] of an engine instruction. -/
def QOp.f (q : QOp) (hi lo : Nat) : Nat := fld q.w.toNat hi lo

/-- The scalar register that a 5-bit field with lowest bit lo names, as it stood at issue; s0 supplies zero (R238). -/
def QOp.reg (q : QOp) (lo : Nat) : Nat :=
  let r := q.f (lo + 4) lo
  if r = 0 then 0 else (Tbl.get 0 q.regs r).toNat

/-- The register after a named one. -/
def QOp.regAt (q : QOp) (r : Nat) : Nat := if r = 0 then 0 else (Tbl.get 0 q.regs r).toNat

/-- The mark counter that the operation names. -/
def QOp.mark (q : QOp) : Option Nat := if bitAt q.w.toNat 19 then some (q.f 18 13) else none

/-- The operation within its engine. -/
def QOp.op (q : QOp) : Nat := q.f 25 20

/-- The levels of the nest register it runs under; one iteration without one (spec/07 R203). -/
def QOp.levels (q : QOp) : List NestLevel := if bitAt q.w.toNat 12 then q.nest else []

/-- The number of iterations. -/
def QOp.total (q : QOp) : Nat := (q.levels.map NestLevel.count).foldl (· * ·) 1

/-- The displacement of an operand in iteration k: the sum over the levels of i_l times its stride, i0 fastest. -/
def nestDisp (stride : NestLevel → Int) : List NestLevel → Nat → Int
  | [], _ => 0
  | l :: ls, k => ((k % l.count : Nat) : Int) * stride l + nestDisp stride ls (k / l.count)

/-- The displacements of operands A, B and D in the next iteration. -/
def QOp.dA (q : QOp) : Int := nestDisp NestLevel.sa q.levels q.taken
def QOp.dB (q : QOp) : Int := nestDisp NestLevel.sb q.levels q.taken
def QOp.dD (q : QOp) : Int := nestDisp NestLevel.sd q.levels q.taken

/-- i0 of the next iteration is 0 (spec/07 R206). -/
def QOp.firstOfLevel0 (q : QOp) : Bool :=
  match q.levels with
  | [] => true
  | l :: _ => q.taken % l.count == 0

/-- The header breaks R240: a nonzero reserved field, MARK without MK, NEST without NE, AS against its rule. -/
def QOp.badHeader (q : QOp) (asForm : Bool) : Bool :=
  q.f 7 0 != 0 || (!bitAt q.w.toNat 19 && q.f 18 13 != 0) || (!bitAt q.w.toNat 12 && q.f 11 9 != 0) ||
    bitAt q.w.toNat 8 != asForm

/-- The mark that a malformed operation increments: its own when MK and MARK are valid (spec/08 R240). -/
def QOp.validMark (q : QOp) : Option Nat := q.mark

/-- The queue of an engine after the next iteration of its head has been taken: the head leaves with its last
iteration (spec/07 R204). -/
def takeIter : List QOp → List QOp
  | [] => []
  | q :: rest => if q.taken + 1 < q.total then { q with taken := q.taken + 1 } :: rest else rest

/-! ### Pass records (spec/04 R112, table Pass completion record) -/

/-- The 32 bytes of a pass's completion record under a status. -/
def passRecord (a : Nat) (p : PassRun) (st : Status) : List Byte :=
  let refused := p.status.isSome
  leBytes 32
    ((if refused then 0 else p.mask % 2 ^ 128 * 2 ^ 128 + p.invalidCount % 2 ^ 32 * 2 ^ 96 + p.steps % 2 ^ 32 * 2 ^ 64) +
      p.pidx % 2 ^ 24 * 2 ^ 40 + stCode st * 2 ^ 32 + p.d % 16 * 2 ^ 28 + b2n p.passo * 2 ^ 26 + p.split % 4 * 2 ^ 24 +
      a % 256 * 2 ^ 16 + p.laths % 16 * 2 ^ 12 + b2n p.clear * 2 ^ 11 + b2n p.chainWait * 2 ^ 10 + b2n p.held * 2 ^ 9 +
      b2n p.throttled * 2 ^ 8 + b2n p.resumed * 2 ^ 7)

/-- A completion record put into its slot, and its mark incremented when asked. A record on an unwritable page is counted instead;
on a spilled page it waits with its mark (spec/04 R112). -/
def State.putRecord (s : State) (a c : Nat) (r : HeldRec) : State :=
  let x := s.ctx a c
  match Tbl.find x.pages (r.off / 0x10000) with
  | none => s.setCtx a c ((x.note .lath .accessDenied r.idx).bumpMark r.mark)
  | some d =>
    if d.spilled then s.setCtx a c { x with heldRecords := x.heldRecords ++ [r] }
    else if d.frozen then s.setCtx a c ((x.note .lath .frozenTarget r.idx).bumpMark r.mark)
    else if !d.w then s.setCtx a c ((x.note .lath .accessDenied r.idx).bumpMark r.mark)
    else (s.writeVa a (windowVa (s.coreIndex a c) + r.off) r.bytes).setCtx a c (x.bumpMark r.mark)

/-- A pass's record written in the ring that stood when it left the queue (spec/07 R219), its status taken into the Lath register. -/
def State.writeRecord (s : State) (a c : Nat) (p : PassRun) (st : Status) (mark : Option Nat) : State :=
  (s.modCtx a c (fun x => x.note .lath st p.idx)).putRecord a c
    { off := p.ring + p.pidx % 64 * 32, bytes := passRecord a p st, idx := p.idx, mark := mark }

/-- The refused passes at the front of the pass list complete, unless a load ahead of them still runs: each writes its record and increments
its mark (spec/04 R112, spec/07 R202, R210); fuel is the list's length. -/
def State.drainPasses (s : State) (a c : Nat) : Nat → State
  | 0 => s
  | fuel + 1 =>
    match (s.ctx a c).passes with
    | p :: rest =>
      match p.status, p.behindLoad with
      | some st, false =>
        let s1 := s.modCtx a c (fun x => { x with passes := rest })
        ((s1.writeRecord a c p st p.q.mark).petWatchdog a).drainPasses a c fuel
      | _, _ => s
    | [] => s

/-- Every pass without a record is ended (spec/04 R110, R117, R118): a started one under st, its mark not incremented; a
refused one as it was refused. The record of a stopped pass keeps STEPS, D, LATHS and CLEAR, and its INVALID_MASK and
INVALID_COUNT are 0, since its results are dropped (log entry 87). fuel is the list's length. -/
def State.discardPasses (s : State) (a c : Nat) (st : Status) : Nat → State
  | 0 => s
  | fuel + 1 =>
    match (s.ctx a c).passes with
    | p :: rest =>
      let s1 := s.modCtx a c (fun x => { x with passes := rest })
      ((match p.status with
        | some r => s1.writeRecord a c p r p.q.mark
        | none => s1.writeRecord a c { p with mask := 0, invalidCount := 0 } st none).petWatchdog a).discardPasses a c st fuel
    | [] => s

/-- The pass that a program resumes from: the earliest started one, or the next (spec/10 R311). -/
def Ctx.resumePass (x : Ctx) : Nat :=
  match x.passes.find? (fun p => p.status == none) with
  | some p => p.pidx
  | none => x.passIndex

/-! ### Zeroing -/

/-- A run of a core's Hawk zeroed. The zeros come from no DRAW page, no Larder page and no row: the units written in full lose their marks,
their owner and their tag, and the protected words written in full their poison (spec/06 R540, spec/09 R255, R267, spec/11 R339). -/
def State.zeroHawk (s : State) (c lo hi : Nat) : State :=
  let whole := fun (u : Nat) => decide (lo ≤ 64 * u) && decide (64 * u + 64 ≤ hi)
  s.modCore c (fun k =>
    { k with
      hawk := k.hawk.drop (fun o => decide (lo ≤ o) && decide (o < hi))
      drawn := k.drawn.filter (fun u => !whole u)
      owners := k.owners.drop whole
      hawkTags := k.hawkTags.drop whole
      hawkPoison := k.hawkPoison.filter (fun w => !(decide (lo ≤ w) && decide (w + 8 ≤ hi))) })

/-- A range written with zeros (spec/07 R228, spec/09 R281). -/
def State.zeroRng (s : State) (a c : Nat) (r : Rng) : State :=
  (rngRuns r).foldl (fun t run => match r.space with
    | .va => t.writeVa a run.1 (List.replicate (run.2 - run.1) 0)
    | .hawk =>
      let b := (s.ctx a c).hawkBase
      t.zeroHawk c (b + run.1) (b + run.2)
    | _ => t) s

/-- Every range of a list zeroed. -/
def State.zeroRngs (s : State) (a c : Nat) (rs : List Rng) : State := rs.foldl (fun t r => t.zeroRng a c r) s

/-! ### Program flow -/

/-- The Ganger's program counter moved on to an address; at the end of a hardware loop's body the back edge is taken,
or the loop ends (spec/07 R198); fuel is the number of loops. -/
def flowTo : Nat → List HwLoop → Nat → Nat × List HwLoop
  | 0, ls, pc => (pc, ls)
  | _ + 1, [], pc => (pc, [])
  | fuel + 1, l :: ls, pc =>
    if pc = l.stop then
      if 1 < l.left then (l.body, { l with left := l.left - 1 } :: ls) else flowTo fuel ls pc
    else (pc, l :: ls)

/-- A context with its program counter moved on to an address. -/
def Ctx.goTo (x : Ctx) (pc : Nat) : Ctx :=
  let r := flowTo x.loops.length x.loops pc
  { x with pc := r.1, loops := r.2 }

/-- The choice of R217 over a halt status and the five status registers. -/
def Ctx.choice (x : Ctx) (st : Status) : Status :=
  stPickAll (st :: (Engine.ganger :: engines).map (fun e => (x.est e).first))

/-- The blocks whose last instruction has been executed complete (spec/07 R193, R217); fuel is their number. -/
def State.endBlocks (s : State) (a c : Nat) : Nat → State
  | 0 => s
  | fuel + 1 =>
    let x := s.ctx a c
    match x.src, x.iq with
    | .queue, b :: rest =>
      if b.base + b.bytes.length ≤ x.pc then
        ((s.setCtx a c { x with iq := rest }).cmdDone a b.cmd c (x.choice .ok)).endBlocks a c fuel
      else s
    | _, _ => s

/-- The program moves on to an address after an instruction: loops, and blocks that end there. -/
def State.moveOn (s : State) (a c : Nat) (x : Ctx) (pc : Nat) : State :=
  let x1 := (x.goTo pc).takeIndex .ganger
  (s.setCtx a c x1).endBlocks a c x1.iq.length

/-- A halt that the Ganger makes on its own with a status (spec/07 R541): fetch stops, and operations already issued
run on. -/
def State.selfHalt (s : State) (a c : Nat) (st : Status) : State :=
  s.modCtx a c (fun x => { x.takeIndex .ganger with run := .stopping st })

/-- A halt that is also recorded in the Ganger's register (spec/08 R237). -/
def State.selfHaltNoted (s : State) (a c : Nat) (st : Status) : State :=
  s.modCtx a c (fun x => { (x.note .ganger st (x.nextIndex .ganger)).takeIndex .ganger with run := .stopping st })

/-- The choice that R230 allows for an illegal use: the core hangs until the watchdog or a HALT command. -/
def State.hang (s : State) (a c : Nat) : State := s.modCtx a c (fun x => { x.takeIndex .ganger with run := .hung })

/-- The bytes at an offset of the streamed code: the blocks' bytes from there (spec/07 R193). -/
def streamBytes (iq : List SBlock) (pc : Nat) : List Byte :=
  iq.flatMap (fun b => if pc < b.base + b.bytes.length then b.bytes.drop (pc - b.base) else [])

/-- What the Ganger finds at its fetch position (spec/07 R190, R192, R193, spec/08 R231, R232). -/
inductive Fetched where
  | word (w : Nat)
  | engine (w : W128)
  | past
  | wait
  deriving DecidableEq, Repr

/-- The bank bytes at an offset of a bank's image. -/
def State.bankBytes (s : State) (a c b off n : Nat) : List Byte :=
  s.readVa a (windowVa (s.coreIndex a c) + b * 0x40000 + off) n

/-- The word, or the four words, at the fetch position. -/
def State.fetch (s : State) (a c : Nat) (x : Ctx) : Fetched :=
  match x.src with
  | .bank b =>
    let len := (Tbl.get {} x.banks b).len
    if len < x.pc + 4 then .past
    else if s.spilledIn a (windowVa (s.coreIndex a c) + b * 0x40000 + x.pc) 16 then .wait
    else
      let w := ofLe (s.bankBytes a c b x.pc 4)
      if beginsEngine w then
        (if len < x.pc + 16 then .past else .engine (BitVec.ofNat 128 (ofLe (s.bankBytes a c b x.pc 16))))
      else .word w
  | .queue =>
    let bs := streamBytes x.iq x.pc
    if bs.length < 4 then .wait
    else
      let w := ofLe (bs.take 4)
      if beginsEngine w then
        (if bs.length < 16 then .wait else .engine (BitVec.ofNat 128 (ofLe (bs.take 16))))
      else .word w

/-- The command that the Ganger of a core is about to execute, with its allotment and context: none while it waits for
code, is not running, or does not hold the core. -/
def State.due (s : State) (c : Nat) : Option (Nat × Ctx × Instr) :=
  match s.onCore c with
  | none => none
  | some (a, x) =>
    if x.fetching then
      match s.fetch a c x with
      | .word w => some (a, x, gangerDecode c w)
      | .engine w => some (a, x, engineDecode c w)
      | .past => some (a, x, .bankFetchPastImage c)
      | .wait => none
    else none

/-- A Ganger instruction executes when it is the one due on its core; otherwise the command names no event of this
state, and nothing changes (log entry 3). -/
def State.ganger (s : State) (c : Nat) (i : Instr) (f : Nat → Ctx → State) : Res :=
  match s.due c with
  | none => .next s
  | some (a, x, j) => if j = i then .next (f a x) else .next s

/-! ### Engine completion -/

/-- The Skimmer, Trowel or Moot operation completed: status taken, mark incremented, watchdog restarted (spec/07 R210,
R216, spec/10 R313). -/
def State.engineDone (s : State) (a c : Nat) (e : Engine) (idx : Nat) (st : Status) (mark : Option Nat) : State :=
  (s.modCtx a c (fun x => (x.note e st idx).bumpMark mark)).petWatchdog a

/-- Refused Skimmer operations at the front of the started list complete in order (spec/07 R202). -/
def State.drainSkims (s : State) (a c : Nat) : Nat → State
  | 0 => s
  | fuel + 1 =>
    match (s.ctx a c).skims with
    | r :: rest =>
      match r.status with
      | some st =>
        ((s.modCtx a c (fun x => { x with skims := rest })).engineDone a c .skimmer r.idx st r.q.mark).drainSkims a c fuel
      | none => s
    | [] => s

/-- Nothing of the program is queued or started on the core (spec/07 R197). -/
def Ctx.quiet (x : Ctx) : Bool :=
  x.lathQ.isEmpty && x.passes.isEmpty && x.load == none && x.skimQ.isEmpty && x.skims.isEmpty && x.trowelQ.isEmpty &&
    x.trowels.isEmpty && x.mootQ.isEmpty && x.moots.isEmpty

/-- Every queued operation discarded, no mark incremented (spec/07 R197, spec/10 R311, R314). -/
def Ctx.dropQueues (x : Ctx) : Ctx :=
  { x with lathQ := [], lathHead := none, skimQ := [], trowelQ := [], mootQ := [] }

/-! ### Faults (spec/10 R311) -/

/-- The first byte of a poisoned word that virtual ranges touch. -/
def State.firstPoison (s : State) (a : Nat) (rs : List Rng) : Option Nat :=
  if s.poison.isEmpty then none
  else ((rs.filter (fun r => r.space == .va)).flatMap rngRuns).findSome? (fun r =>
    ((s.readP a r.1 (r.2 - r.1)).zip (List.range (r.2 - r.1))).findSome? (fun b => if b.1.2 then some (r.1 + b.2) else none))

/-- The first address of the protected word that a virtual address lies in (spec/09 R255). -/
def wordVa (va : Nat) : Nat := va - va % (if loftVa ≤ va then 8 else 32)

/-- The cause code of a fault record; a corrected error writes none. -/
def causeCode : FaultCause → Nat
  | .poison => 0
  | .pageRemoved => 1
  | .corrected => 0

/-- The 64 bytes of a fault record (spec/10, table Fault record). -/
def faultRecord (time va : Nat) (e : Engine) (cause : FaultCause) (op resume core : Nat) : List Byte :=
  leBytes 64 (time % 2 ^ 64 * 2 ^ 448 + va % 2 ^ 48 * 2 ^ 400 + stCode .passAbortedFault * 2 ^ 392 +
    engineNo e * 2 ^ 388 + causeCode cause * 2 ^ 384 + op % 2 ^ 24 * 2 ^ 360 + resume % 2 ^ 24 * 2 ^ 336 +
    core % 128 * 2 ^ 328)

/-- The fault record written into the control page, and reported in the event log (spec/10 R311, spec/16 event kind
0x02). -/
def State.writeFaultRecord (s : State) (a c va : Nat) (e : Engine) (cause : FaultCause) (op resume : Nat) : State :=
  let i := s.coreIndex a c
  let at' := windowVa i + 0x80800
  let place := match cause with
    | .poison => wordVa va
    | _ => va
  (s.writeVa a at' (faultRecord s.timer place e cause op resume i)).logEvent
    { kind := 0x02, written := at', applied := op, allot := a, status := .passAbortedFault }

/-- A program that stops because of a fault: its command will complete with PASS_ABORTED_FAULT. -/
def RunState.faulted : RunState → RunState
  | .halted => .halted
  | .stopping st => .stopping (stPick st .passAbortedFault)
  | _ => .stopping .passAbortedFault

/-- Taking a fault on one core (spec/10 R311, spec/04 R117): started passes discarded, queued operations discarded
without their marks, other started operations left to run to their end, the program stopped, the fault record written.
op is the faulting operation's index. -/
def State.takeFault (s : State) (a c : Nat) (e : Engine) (cause : FaultCause) (va op : Nat) : State :=
  let resume := (s.ctx a c).resumePass
  let s1 := s.discardPasses a c .passAbortedFault (s.ctx a c).passes.length
  let s2 := s1.modCtx a c (fun x => { x.dropQueues with run := x.run.faulted, abrupt := true, tagStore := none })
  s2.writeFaultRecord a c va e cause op resume

end Sys2Proof.Machine
end

