-- ==== Sys2Proof/Machine/Operands.lean ====
section
/-! DEFINITION. The operand fields of the Trowel's and the Moot's instructions, and the ranges that a Trowel operation
names (spec/08, sections Trowel operations and Moot operations; spec/07 R203). -/

namespace Sys2Proof.Machine

/-- A non-negative integer as a number. -/
def natOf (i : Int) : Option Nat := if i < 0 then none else some i.toNat

/-- An address that an operand's displacement moves below zero lies outside every page. -/
def vaOf (i : Int) : Nat := (natOf i).getD (2 ^ 48)

/-- An address field that does not hold an address of 48 bits: the register's bits [63:48] are not zero, or the displacement moves
it out of the field (spec/08 R239, R250). -/
def vaBad (i : Int) : Bool := decide (i < 0) || decide ((2 ^ 48 : Int) ≤ i)

/-! ### Trowel (spec/08, table Trowel instruction) -/

/-- DKIND: 0 virtual address, 1 Hawk offset, 2 weight ring, 3 reserved. -/
def QOp.tDkind (q : QOp) : Nat := q.f 112 111
/-- RING. -/
def QOp.tRing (q : QOp) : Nat := q.f 110 109
/-- EXPAND. -/
def QOp.tExpand (q : QOp) : Bool := bitAt q.w.toNat 108
/-- TMODE. -/
def QOp.tMode (q : QOp) : Nat := q.f 107 106
/-- RMK and RCORE: the mark on another core (spec/07 R214). -/
def QOp.tRmk (q : QOp) : Bool := bitAt q.w.toNat 100
def QOp.tRcore (q : QOp) : Nat := q.f 99 93
/-- The row length of a gather or scatter. -/
def QOp.tRowLen (q : QOp) : Nat := (q.f 92 85 + 1) * 32
/-- The row stride: 0 means the row length. -/
def QOp.tStride (q : QOp) : Nat := if q.f 84 69 = 0 then q.tRowLen else q.f 84 69
/-- The bytes of a copy, or the FIFO entries of a gather or scatter. -/
def QOp.tLen (q : QOp) : Nat := q.reg 113
/-- The source base in the next iteration (spec/08 R250). -/
def QOp.tSrc (q : QOp) : Int := (q.reg 123 : Int) + q.dA
/-- The destination base in the next iteration. -/
def QOp.tDst (q : QOp) : Int := (q.reg 118 : Int) + q.dD

/-- The operations of the Trowel by OP. -/
def QOp.isCopy (q : QOp) : Bool := q.op == 1
def QOp.isGather (q : QOp) : Bool := q.op == 2
def QOp.isScatter (q : QOp) : Bool := q.op == 3

/-- A copy into the fabric window (spec/13 R391). -/
def QOp.tFabric (q : QOp) : Bool :=
  q.isCopy && q.tDkind == 0 && (match natOf q.tDst with | some d => inFabric d | none => false)

/-- The space of a destination kind. -/
def dkindSpace (k : Nat) : Space := if k = 1 then .hawk else .va

/-- The destination ranges that are known before the operation runs (spec/07 R226): those of a T.COPY outside the weight
rings and of a T.GATHER; a T.SCATTER learns its rows from its FIFO entries. -/
def QOp.tDstRngs (q : QOp) : List Rng :=
  match natOf q.tDst with
  | none => []
  | some d =>
    if q.isCopy && q.tDkind < 2 then
      (if q.tLen = 0 then [] else [{ space := dkindSpace q.tDkind, base := d, len := q.tLen }])
    else if q.isGather && q.tDkind < 2 then
      (if q.tLen = 0 then []
        else [{ space := dkindSpace q.tDkind, base := d, len := q.tRowLen, rows := q.tLen, stride := q.tStride }])
    else []

/-- The source ranges that are known before the operation runs. -/
def QOp.tSrcRngs (q : QOp) : List Rng :=
  match natOf q.tSrc with
  | none => []
  | some a =>
    if q.isCopy then (if q.tLen = 0 then [] else [vaRng a q.tLen])
    else if q.isScatter then
      (if q.tLen = 0 then [] else [{ space := .va, base := a, len := q.tRowLen, rows := q.tLen, stride := q.tStride }])
    else if q.f 127 123 ≠ 0 then [vaRng a q.tRowLen]
    else []

/-- The known destination ranges of every iteration that has not started, each with its iteration. -/
def QOp.tIterDst (q : QOp) : List (Nat × Rng) :=
  (List.range (q.total - q.taken)).flatMap (fun i =>
    (({ q with taken := q.taken + i } : QOp).tDstRngs).map (fun r => (q.taken + i, r)))

/-- Those ranges alone. -/
def QOp.tAllDst (q : QOp) : List Rng := q.tIterDst.map Prod.snd

/-! ### Moot (spec/08, table Moot instruction) -/

/-- GROUP. -/
def QOp.mGroup (q : QOp) : Nat := q.f 127 124
/-- RA names s0: the rank abstains (spec/14 R410). -/
def QOp.mAbstains (q : QOp) : Bool := q.f 123 119 == 0
/-- The bucket's data address in the next iteration. -/
def QOp.mAddr (q : QOp) : Int := (q.reg 119 : Int) + q.dA
/-- The bucket length in bytes. -/
def QOp.mLen (q : QOp) : Nat := q.reg 114
/-- The bucket number in the next iteration (spec/08 R250). -/
def QOp.mBucket (q : QOp) : Int := (q.reg 109 : Int) + q.dB
/-- The step number. -/
def QOp.mStep (q : QOp) : Nat := q.reg 104
/-- The sample count. -/
def QOp.mSamples (q : QOp) : Nat := q.reg 99

end Sys2Proof.Machine
end

