-- ==== Sys2Proof/Machine/Dot.lean ====
section
/-! DEFINITION. The dot product of one output element, bit for bit (spec/03). -/

namespace Sys2Proof.Machine

/-- The operand pairs of a Lath pass (spec/03 R62): weight format, activation format. -/
def pairOk (w a : Fmt) : Bool :=
  match w, a with
  | .cf4, .cf8 | .cf4, .int8 | .cf8, .cf8 | .cf8, .int8 | .bf16, .bf16 | .binary16, .binary16 | .int8, .int8
  | .int16, .int16 => true
  | _, _ => false

/-- The segment length of a weight format's pairs (spec/03 R62). -/
def segLen (w : Fmt) : Nat :=
  match w with
  | .bf16 | .binary16 => 1
  | _ => 8

/-- Whether a pair's chain is the integer chain (spec/03 R62). -/
def intChain (w a : Fmt) : Bool := w.isInt && a.isInt

/-- The class of an output element after a pass (spec/03 R76). -/
inductive DotClass where
  | plain
  | invalid
  | propagated
  deriving DecidableEq, Repr

/-- One output element: its bits, its class and the counts that its chain makes per occurrence (spec/03 R78). -/
structure DotOut where
  acc : W32
  cls : DotClass
  infinities : Nat
  flushed : Nat
  saturated : Bool
  deriving DecidableEq, Repr

/-- A segment's value before conversion (spec/03 R67, R74): NaN propagated, invalid, an infinity, or an exact sum. -/
inductive Seg where
  | nan
  | invalid
  | inf (neg : Bool)
  | sum (d : Dy)
  deriving DecidableEq, Repr

/-- One product taken into a segment; a NaN operand takes precedence over an invalid product (spec/03 R74). -/
def Seg.addProduct (acc : Seg) (a w : Val) : Seg :=
  match acc, a.mulE w with
  | .nan, _ => .nan
  | _, some .nan => .nan
  | .invalid, _ => .invalid
  | _, none => .invalid
  | .inf n, _ => .inf n
  | .sum _, some (.inf n) => .inf n
  | .sum d, some (.fin e) => .sum (d.add e)

/-- The exact value of a segment of operand pairs (spec/03 R67). A one-product segment keeps its sign of zero (R68). -/
def segOf : List (Val × Val) → Seg
  | [] => .sum ⟨false, 0, 0⟩
  | [(a, w)] => Seg.addProduct (.sum ⟨true, 0, 0⟩) a w
  | ps => ps.foldl (fun s p => s.addProduct p.1 p.2) (.sum ⟨false, 0, 0⟩)

/-- A binary32 code is a NaN (spec/02 R36). -/
def isNan32 (w : W32) : Bool := decide (0x7F800000 < w.toNat % 2 ^ 31)

/-- The sign of a segment's zero: +0, but the product's own sign for a segment of one product (spec/03 R68). -/
def segRound (l : Nat) (d : Dy) : W32 × Ev :=
  if d.mag = 0 then (if l = 1 && d.neg then 0x80000000 else 0, {}) else toF32 (.fin d)

/-- One segment added to the running value of a float chain (spec/03 R65, R68, R69, R75, R76). Beside a NaN running value
the segment is still converted, and that conversion counts (R78). -/
def floatStep (l : Nat) (o : DotOut) (seg : Seg) : DotOut :=
  if isNan32 o.acc then
    match seg with
    | .sum d =>
      let v := segRound l d
      { o with acc := nan32, infinities := o.infinities + v.2.infinities, flushed := o.flushed + v.2.flushed }
    | _ => { o with acc := nan32 }
  else match seg with
    | .nan => { o with acc := nan32, cls := .propagated }
    | .invalid => { o with acc := nan32, cls := .invalid }
    | .inf n =>
      let r := addF32 o.acc (if n then 0xFF800000 else 0x7F800000)
      if isNan32 r.1 then { o with acc := nan32, cls := .invalid } else { o with acc := r.1 }
    | .sum d =>
      let v := segRound l d
      let r := addF32 o.acc v.1
      { o with
        acc := r.1
        cls := if isNan32 r.1 then .invalid else o.cls
        infinities := o.infinities + v.2.infinities + r.2.infinities
        flushed := o.flushed + v.2.flushed }

/-- The exact integer that a segment of integer operands sums to (spec/03 R73). -/
def segInt (ps : List (Int × Int)) : Int := (ps.map (fun p => p.1 * p.2)).foldl (· + ·) 0

/-- One segment added to the running INT32 value (spec/03 R73). -/
def intStep (wrap : Bool) (o : DotOut) (seg : Int) : DotOut :=
  let r := placeInt .int32 wrap (o.acc.toInt + seg)
  { o with acc := BitVec.ofNat 32 r.1, saturated := o.saturated || decide (0 < r.2.saturations) }

/-- Consecutive groups of l elements (spec/03 R66); fuel is at least the length. -/
def groups {α : Type} (l : Nat) : Nat → List α → List (List α)
  | 0, _ => []
  | _ + 1, [] => []
  | fuel + 1, x :: xs => (x :: xs).take l :: groups l fuel ((x :: xs).drop l)

/-- The integer that a value is. Integer formats decode to integers (spec/02 R38). -/
def Val.toInt : Val → Int
  | .fin d => d.units 0
  | _ => 0

/-- dot of spec/03 R65 over operand values in ascending K: init is the accumulator value, or zero under CLEAR. -/
def dot (w a : Fmt) (wrap : Bool) (init : W32) (ps : List (Val × Val)) : DotOut :=
  let o : DotOut := ⟨init, .plain, 0, 0, false⟩
  let segs := groups (segLen w) ps.length ps
  if intChain w a then
    segs.foldl (fun o s => intStep wrap o (segInt (s.map (fun p => (Val.toInt p.1, Val.toInt p.2))))) o
  else segs.foldl (fun o s => floatStep (segLen w) o (segOf s)) o

/-- The counts that one output element adds (spec/03 R78). -/
def DotOut.ev (o : DotOut) : Ev :=
  { invalid := b2n (o.cls == .invalid)
    propagated := b2n (o.cls == .propagated)
    infinities := o.infinities
    flushed := o.flushed
    saturations := b2n o.saturated }

end Sys2Proof.Machine
end

