-- ==== Sys2Proof/Machine/Tiles.lean ====
section
/-! DEFINITION. Stored tensors and weight tiles: storage order and padding (spec/02 R31 to R33), 2:4 tiles (spec/05 R134
to R136), digit planes (spec/05 R139 to R142) and the chunks of a weight stream (spec/08 R244). -/

namespace Sys2Proof.Machine

/-- The code of bits b at element index i of packed bytes (spec/02 R31). -/
def codeAt (b : Nat) (bs : List Byte) (i : Nat) : Nat :=
  if b = 4 then fld (bs.getD (i / 2) 0).toNat (i % 2 * 4 + 3) (i % 2 * 4)
  else if b = 8 then (bs.getD i 0).toNat
  else if b = 16 then (bs.getD (2 * i) 0).toNat + 256 * (bs.getD (2 * i + 1) 0).toNat
  else ofLe ((bs.drop (4 * i)).take 4)

/-- The stored shape of a tensor of rows by cols elements (spec/02 R32, R33): padded row length, padded rows, blocks
along a row, and rows of blocks. -/
structure Layout where
  rowLen : Nat
  rows : Nat
  blkCols : Nat
  blkRows : Nat
  deriving DecidableEq, Repr

/-- The layout of rows by cols elements under a block kind. -/
def layout (b : Blk) (rows cols : Nat) : Layout :=
  let bc := ceilDiv cols b.width
  let br := ceilDiv rows b.height
  { rowLen := bc * b.width, rows := br * b.height, blkCols := bc, blkRows := br }

/-- The index of the scale byte of element (r, c). -/
def Layout.scaleIdx (l : Layout) (b : Blk) (r c : Nat) : Nat := r / b.height * l.blkCols + c / b.width

/-- Code bytes of a stored tensor. -/
def Layout.codeBytes (l : Layout) (f : Fmt) : Nat := ceilDiv (l.rows * l.rowLen * f.bits) 8

/-- Scale bytes of a stored tensor. -/
def Layout.scaleBytes (l : Layout) (f : Fmt) : Nat := if f.isCf then l.blkCols * l.blkRows else 0

/-- The layout of a weight tile: its storage rows are the output columns, or the reduction indices under L.LOAD.T
(spec/05 R150). -/
def Tile.layout (t : Tile) : Layout := if t.transposed then Machine.layout t.blk t.kt t.n else Machine.layout t.blk t.n t.kt

/-- Groups of four along a storage row of a 2:4 tile. -/
def Tile.groups (t : Tile) : Nat := ceilDiv t.layout.rowLen 4

/-- Code bytes of the image: one per group of a 2:4 tile (spec/05 R134). -/
def Tile.codeBytes (t : Tile) : Nat := if t.sp24 then t.layout.rows * t.groups else t.layout.codeBytes t.fmt

/-- Position bytes of a 2:4 image. -/
def Tile.posBytes (t : Tile) : Nat := if t.sp24 then ceilDiv (t.layout.rows * t.groups) 2 else 0

/-- The size of the stored image (spec/04 R92). -/
def Tile.size (t : Tile) : Nat := t.codeBytes + t.posBytes + t.layout.scaleBytes t.fmt

/-- The four position bits of a group of a 2:4 image: lower position in [1:0], higher in [3:2]. -/
def Tile.posOf (t : Tile) (row g : Nat) : Nat := codeAt 4 (t.image.drop t.codeBytes) (row * t.groups + g)

/-- Whether some group's positions are not strictly ascending (spec/05 R135). Every stored group is judged, those of the padding
beyond Kt or N among them (log entry 88). -/
def Tile.badPositions (t : Tile) : Bool :=
  t.sp24 && (List.range t.layout.rows).any (fun r => (List.range t.groups).any (fun g =>
    let p := t.posOf r g
    decide (fld p 3 2 ≤ fld p 1 0)))

/-- The weight code at reduction index k, column n; 0 outside the declared tile (spec/04 R92). -/
def Tile.code (t : Tile) (k n : Nat) : Nat :=
  if t.kt ≤ k ∨ t.n ≤ n then 0
  else if t.sp24 then
    let g := k / 4
    let p := t.posOf n g
    let b := (t.image.getD (n * t.groups + g) 0).toNat
    if fld p 1 0 = k % 4 then b % 16 else if fld p 3 2 = k % 4 then b / 16 else 0
  else
    let r := if t.transposed then k else n
    let c := if t.transposed then n else k
    codeAt t.fmt.bits t.image (r * t.layout.rowLen + c)

/-- The scale code of the block that holds weight (k, n). -/
def Tile.scale (t : Tile) (k n : Nat) : Nat :=
  let r := if t.transposed then k else n
  let c := if t.transposed then n else k
  (t.image.getD (t.codeBytes + t.posBytes + t.layout.scaleIdx t.blk r c) 0).toNat

/-- The value of a code with its block's scale, where the format has one. -/
def valOf (f : Fmt) (scale code : Nat) : Val := if f.isCf then decodeScaled f scale code else decodeElem f code

/-- The value of weight (k, n). -/
def Tile.val (t : Tile) (k n : Nat) : Val := valOf t.fmt (t.scale k n) (t.code k n)

/-- The digit planes of a weight's code, low to high (spec/05, table Weight digit planes); an infinity or a NaN has
every digit zero (R142). -/
def digitPlanes (f : Fmt) (c : Nat) : List Nat :=
  match f with
  | .int8 => [fld c 3 0, fld c 7 4]
  | .int16 => [fld c 3 0, fld c 7 4, fld c 11 8, fld c 15 12]
  | .bf16 =>
    if fld c 14 7 = 0xFF then [0, 0]
    else
      let sig := c % 128 + (if fld c 14 7 = 0 then 0 else 128)
      [fld sig 3 0, fld sig 7 4]
  | .binary16 =>
    if fld c 14 10 = 0x1F then [0, 0, 0]
    else
      let sig := c % 1024 + (if fld c 14 10 = 0 then 0 else 1024)
      [fld sig 3 0, fld sig 7 4, fld sig 10 8]
  | _ => [1]

/-- The planes of a tile that are not wholly zero (spec/05 R139). -/
def Tile.planesKept (t : Tile) : Nat :=
  let all := (List.range t.kt).flatMap (fun k => (List.range t.n).map (fun n => digitPlanes t.fmt (t.code k n)))
  ((List.range (digitPlanes t.fmt 0).length).filter (fun i => all.any (fun d => d.getD i 0 != 0))).length

/-- Weight digits of a format (spec/04, table Operand digits). -/
def weightDigits : Fmt → Nat
  | .int8 | .bf16 => 2 | .binary16 => 3 | .int16 => 4 | _ => 1

/-- Activation digits of a format. -/
def actDigits : Fmt → Nat
  | .binary16 | .int16 => 2 | _ => 1

/-- Steps per product (spec/04, table Steps per product). -/
def stepsD (w a : Fmt) : Nat := weightDigits w * actDigits a

/-- Steps per product of a pair of the table Lath operand pairs; 0 for any other. -/
def pairD (w a : Fmt) : Nat := if pairOk w a then stepsD w a else 0

/-- The effective steps per product of a tile (spec/05 R133, R140). -/
def Tile.dEff (t : Tile) (a : Fmt) : Nat :=
  if t.sp24 then 2
  else if t.fmt.isCf then stepsD t.fmt a
  else max 1 t.planesKept * actDigits a

/-- The fold factor of a tile's width (spec/04, table Tub placement). -/
def foldOf (n : Nat) : Nat := if 65 ≤ n then 1 else if 33 ≤ n then 2 else 4

/-! ### Activation rows -/

/-- The code and scale pairs of an activation row of k elements from its code bytes and its scale bytes. -/
def actCodes (f : Fmt) (b : Blk) (codes scales : List Byte) (k : Nat) : List (Nat × Nat) :=
  (List.range k).map (fun i => ((scales.getD (i / b.width) 0).toNat, codeAt f.bits codes i))

/-- Code bytes of a row of k elements. -/
def rowCodeBytes (f : Fmt) (k : Nat) : Nat := ceilDiv (k * f.bits) 8

/-- Scale bytes of a row of k elements. -/
def rowScaleBytes (f : Fmt) (b : Blk) (k : Nat) : Nat := if f.isCf then ceilDiv k b.width else 0

/-! ### Weight streams (spec/08 R244) -/

/-- Scale bytes of a chunk. -/
def chunkScales (f : Fmt) (b : Blk) (n : Nat) : Nat := if f.isCf then (if b = .sq4 then 2 * n else n) else 0

/-- Bytes of a chunk of n columns. -/
def chunkBytes (f : Fmt) (b : Blk) (n : Nat) : Nat := n * f.bits + chunkScales f b n

/-- The weight (k, n) of a stream's bytes: its scale and code. -/
def streamCode (f : Fmt) (b : Blk) (trans : Bool) (cols : Nat) (bs : List Byte) (k n : Nat) : Nat × Nat :=
  let size := chunkBytes f b cols
  let chunk := (bs.drop (k / 8 * size)).take size
  let j := k % 8
  let code := codeAt f.bits chunk (if trans then j * cols + n else n * 8 + j)
  let sc := if b = .sq4 then 2 * n + j / 4 else n
  ((chunk.getD (cols * f.bits + sc) 0).toNat, code)

/-- Source bytes of a chunk of a 2:4 stream (spec/08 R247): two code bytes and one position byte per column, then the
scales. -/
def expandBytes (b : Blk) (n : Nat) : Nat := 3 * n + chunkScales .cf4 b n

/-- Whether a source chunk has a group whose positions are not strictly ascending. -/
def expandBad (n : Nat) (chunk : List Byte) : Bool :=
  (List.range n).any (fun i =>
    let p := (chunk.getD (2 * n + i) 0).toNat
    decide (fld p 3 2 ≤ fld p 1 0) || decide (fld p 7 6 ≤ fld p 5 4))

/-- The CF4 code at index j (0 to 7) of column i of a source chunk: zero at a pruned position. -/
def expandCode (n : Nat) (chunk : List Byte) (i j : Nat) : Nat :=
  let p := fld (chunk.getD (2 * n + i) 0).toNat (j / 4 * 4 + 3) (j / 4 * 4)
  let c := (chunk.getD (2 * i + j / 4) 0).toNat
  if fld p 1 0 = j % 4 then c % 16 else if fld p 3 2 = j % 4 then c / 16 else 0

/-- The dense chunk of a source chunk (spec/08 R247). -/
def expandChunk (n : Nat) (chunk : List Byte) : List Byte :=
  (List.range (4 * n)).map (fun k =>
    BitVec.ofNat 8 (expandCode n chunk (k / 4) (k % 4 * 2) + 16 * expandCode n chunk (k / 4) (k % 4 * 2 + 1))) ++
    chunk.drop (3 * n)

end Sys2Proof.Machine
end

