-- ==== Sys2Proof/Machine/LathPlan.lean ====
section
/-! DEFINITION. What a Lath operation names, and its checks in refusal order (spec/04 R92 to R100, spec/05 R122 to R150,
spec/08, section Lath operations). -/

namespace Sys2Proof.Machine

/-! ### Shared -/

/-- The sub-arrays on a side under the core's split (spec/05 R122). -/
def Ctx.q (x : Ctx) : Nat := if x.split = 0 then 1 else if x.split = 1 then 2 else 4

/-- The side of a sub-array. -/
def Ctx.side (x : Ctx) : Nat := 128 / x.q

/-- The active tile of a sub-array. -/
def Ctx.activeTile (x : Ctx) (sub : Nat) : Tile := Tbl.get {} x.active sub

/-- The tile of a sub-array that a pass would multiply by (spec/05 R125). -/
def Ctx.passTile (x : Ctx) (swap : Bool) (sub : Nat) : Tile :=
  if swap then
    match x.shadow.find sub with
    | some (.tile t) => t
    | _ => x.activeTile sub
  else x.activeTile sub

/-- The status of the shadows marked invalid that a SWAP would take up: the choice of R9 among them (spec/04 R96, spec/05 R125). -/
def Ctx.invalidShadow (x : Ctx) : Option Status :=
  match x.shadow.filterMap (fun e => match e.2 with | .invalid st => some st | .tile _ => none) with
  | [] => none
  | l => some (stPickAll l)

/-- Bytes of the allotment's Hawk part. -/
def State.hawkBytes (s : State) (c : Nat) (x : Ctx) (off n : Nat) : List Byte :=
  (List.range n).map (fun i => Tbl.get 0 (s.core c).hawk (x.hawkBase + off + i))

/-- The 64-byte units of the core's Hawk that a run of the part touches. -/
def hawkUnits (x : Ctx) (off n : Nat) : List Nat :=
  if n = 0 then []
  else (List.range ((x.hawkBase + off + n - 1) / 64 + 1 - (x.hawkBase + off) / 64)).map (fun i => (x.hawkBase + off) / 64 + i)

/-- The tag of a run of the Hawk part (spec/06 R540). -/
def State.hawkTag (s : State) (c : Nat) (x : Ctx) (off n : Nat) : Tag :=
  tagMerge ((hawkUnits x off n).map (fun u => Tbl.get .common (s.core c).hawkTags u))

/-- Whether a run of the Hawk part holds a drawn byte (spec/09 R267). -/
def State.hawkDrawn (s : State) (c : Nat) (x : Ctx) (off n : Nat) : Bool :=
  (hawkUnits x off n).any (fun u => (s.core c).drawn.contains u)

/-- Whether a run of the Hawk part holds bytes of a Larder page (spec/11 R339). -/
def State.hawkOwned (s : State) (c : Nat) (x : Ctx) (off n : Nat) : Bool :=
  (hawkUnits x off n).any (fun u => ((s.core c).owners.find u).isSome)

/-- Whether a run of the Hawk part touches a poisoned word. -/
def State.hawkPoisoned (s : State) (c : Nat) (x : Ctx) (off n : Nat) : Bool :=
  (s.core c).hawkPoison.any (fun w => decide (w < x.hawkBase + off + n) && decide (x.hawkBase + off < w + 8))

/-- Whether a run lies in the allotment's own readable Loft pages on the core's slice, none of them DRAW (spec/04 R100
order 7). -/
def State.loftReadable (s : State) (a c va n : Nat) : Bool :=
  n == 0 || (decide (loftVa ≤ va) && decide (va + n ≤ windowVa (s.coreIndex a c) + windowSize) &&
    decide (windowVa (s.coreIndex a c) ≤ va) && s.mapped a va n && s.allPages a va n (fun _ d => d.r && !d.draw))

/-- Whether the part is in ring use, which a started copy into a ring enters, and which lasts while a ring holds bytes and until the
output-stationary passes that read the rings have committed (spec/19 R528). -/
def Ctx.ringUse (x : Ctx) : Bool :=
  x.trowels.any (fun t => t.refused == none && t.q.tDkind == 2) ||
    x.rings.any (fun r => r.2.fill != r.2.drain) ||
    x.passes.any (fun p => match p.os with | some o => o.fed | none => false)

/-- Strides of the operands of a nest register that an operation has no operand for must be zero (spec/08 R250). -/
def QOp.strideOnly (q : QOp) (useA useB useD : Bool) : Bool :=
  q.levels.all (fun l => (useA || l.sa == 0) && (useB || l.sb == 0) && (useD || l.sd == 0))

/-! ### Loads -/

/-- The tile that a load names, without its bytes. -/
def QOp.loadTile (q : QOp) : Option Tile :=
  match fmtOf (q.f 127 124), blkOf (q.f 123 121) with
  | some f, some b =>
    some { fmt := f, blk := b, sp24 := bitAt q.w.toNat 120, transposed := q.op == 2, kt := q.f 119 110, n := q.f 109 102 }
  | _, _ => none

/-- The Hawk offset of a load in the next iteration. -/
def QOp.loadOff (q : QOp) : Int := (q.f 97 85 * 64 : Nat) + q.dA

/-- SUB. -/
def QOp.loadSub (q : QOp) : Nat := q.f 101 98

/-- A load that R240 refuses, or whose nest strides R250 refuses. -/
def QOp.loadMalformed (q : QOp) : Bool :=
  q.badHeader false || q.f 84 32 != 0 || q.loadTile.isNone || !q.strideOnly true false false ||
    q.levels.any (fun l => l.sa % 64 != 0)

/-- Orders 1 to 3 of the table Refusals at the Lath queue for a load, but for the positions of a 2:4 tile. -/
def Ctx.loadShapeBad (x : Ctx) (q : QOp) (t : Tile) : Bool :=
  t.fmt == .int4 || t.fmt == .binary32 || t.fmt == .int32 || !fmtBlkOk t.fmt t.blk ||
    (t.sp24 && (t.fmt != .cf4 || t.transposed)) || (t.transposed && t.fmt.isCf && !t.blk.isSquare) ||
    t.kt == 0 || decide ((if t.sp24 then 4 * x.side else x.side) < t.kt) || t.n == 0 || decide (x.side < t.n) ||
    decide (x.q * x.q ≤ q.loadSub)

/-- A tile with the bytes, the column tags and the poison that the Hawk holds from an offset on (spec/06 R166). A column's tag is that of the
units of its code bytes; those of its positions and its scales are left out, a choice (log entry 108). -/
def State.tileFrom (s : State) (c : Nat) (x : Ctx) (t : Tile) (off : Nat) : Tile :=
  let rowBytes := fun (n : Nat) =>
    if t.sp24 then (n * t.groups, t.groups)
    else (n * t.layout.rowLen * t.fmt.bits / 8, ceilDiv (t.layout.rowLen * t.fmt.bits) 8)
  { t with
    image := s.hawkBytes c x off t.size
    poisoned := s.hawkPoisoned c x off t.size
    colTags := if t.transposed then List.replicate t.n Tag.common
      else (List.range t.n).map (fun n => s.hawkTag c x (off + (rowBytes n).1) (rowBytes n).2) }

/-- The Hawk range that a load reads, where it names one. -/
def QOp.loadRng (q : QOp) : List Rng :=
  match q.loadTile, natOf q.loadOff with
  | some t, some off => [{ space := .hawk, base := off, len := t.size }]
  | _, _ => []

/-- The checks of a load at the head of the queue: its tile and Hawk offset, or its refusal (spec/04 R100, spec/05 R135,
spec/11 R339). -/
def State.loadPlan (s : State) (a c : Nat) (x : Ctx) (q : QOp) : Except Status (Tile × Nat) :=
  match q.loadTile with
  | none => .error .shapeMismatch
  | some t =>
    if q.loadMalformed || x.loadShapeBad q t then .error .shapeMismatch
    else match natOf q.loadOff with
      | none => .error .accessDenied
      | some off =>
        if x.hawkLen < off + t.size then .error .accessDenied
        else if (s.tileFrom c x t off).badPositions then .error .shapeMismatch
        else if t.transposed && s.isGreen a && s.hawkOwned c x off t.size then .error .accessDenied
        else .ok (t, off)

/-! ### Passes -/

/-- The stream of one Lath and sub-array in a pass: rows m, reduction length k, first Tub row, fold factor, first Tub
column; the addresses of the codes and scales of a row, and of a Hawk-fed part (spec/08 R241, spec/05 R126, R137). -/
structure PEnt where
  sub : Nat
  lath : Nat
  m : Nat
  k : Nat
  base : Nat
  fold : Nat
  col0 : Nat
  tile : Tile
  act : Nat
  stride : Nat
  scl : Nat
  sclStride : Nat
  row0 : Nat
  /-- Reduction indices that come from Loft; the rest come from the Hawk at hawkOff. -/
  loftK : Nat
  hawkOff : Nat
  deriving DecidableEq, Repr

/-- A pass's plan. -/
structure PassPlan where
  swap : Bool
  clear : Bool
  wrap : Bool
  afmt : Fmt
  ablk : Blk
  ents : List PEnt
  deriving DecidableEq, Repr

/-- The CLEAR flag of the next iteration (spec/07 R206): CLR 0 none, 1 every iteration, 2 those with i0 = 0. -/
def QOp.clearOf (q : QOp) (clr : Nat) : Bool := clr == 1 || (clr == 2 && q.firstOfLevel0)

/-- A pass that R240 refuses. -/
def QOp.passMalformed (q : QOp) : Bool :=
  q.badHeader false || q.f 57 32 != 0 || q.f 126 125 == 3 || (fmtOf (q.f 102 99)).isNone || (blkOf (q.f 98 96)).isNone

/-- The Loft and Hawk indices of a stream of a 2:4 tile (spec/05 R137): under 1x1 the indices above 2s come from the Hawk; under a
split the streams of the upper bands are wholly Hawk-fed. Under a split, whether K exceeds 2s is judged by the stream's own K
(log entry 88). -/
def loftIndices (x : Ctx) (t : Tile) (sub k : Nat) : Nat :=
  if t.sp24 && decide (2 * x.side < k) then
    (if x.q = 1 then 2 * x.side else if x.q / 2 ≤ sub / x.q then 0 else k)
  else k

/-- The entries of a pass on an unsplit Lath (spec/08 R241). -/
def Ctx.plainEnts (x : Ctx) (q : QOp) (swap : Bool) (act scl base : Nat) : List PEnt :=
  let t := x.passTile swap 0
  let k := q.f 123 114
  (List.range 4).map (fun l =>
    { sub := 0, lath := l, m := fld (q.reg 76) (16 * l + 15) (16 * l), k := k, base := base, fold := foldOf t.n, col0 := 0,
      tile := t, act := act, stride := q.reg 81 % 2 ^ 16, scl := scl, sclStride := fld (q.reg 81) 27 16,
      row0 := fld (q.reg 71) (16 * l + 15) (16 * l), loftK := loftIndices x t 0 k, hawkOff := q.f 70 58 * 64 })

/-- A split pass table entry as a number (spec/05, table Split pass table entry). -/
def splitWord (table : List Byte) (i : Nat) : Nat := ofLe ((table.drop (32 * i)).take 32)

/-- The entries of a split pass (spec/05 R126). -/
def Ctx.splitEnts (x : Ctx) (swap : Bool) (table : List Byte) : List PEnt :=
  (List.range (x.q * x.q * 4)).map (fun i =>
    let w := splitWord table i
    let sub := i / 4
    let t := x.passTile swap sub
    { sub := sub, lath := i % 4, m := fld w 131 120, k := fld w 108 100, base := fld w 119 109, fold := 1,
      col0 := sub % x.q * x.side, tile := t, act := fld w 255 208, stride := fld w 159 144, scl := fld w 207 160,
      sclStride := fld w 143 132, row0 := 0, loftK := loftIndices x t sub (fld w 108 100), hawkOff := fld w 99 81 })

/-- The Tub rows that a stream writes in its quarter. -/
def PEnt.tubRows (e : PEnt) : Nat := ceilDiv e.m e.fold

/-- Conditions of R128 on the whole table: differing K in one sub-array, and overlapping rows of sub-arrays in one
column band of one Lath. -/
def splitClash (x : Ctx) (es : List PEnt) : Bool :=
  es.any (fun e => es.any (fun g =>
    (e.sub == g.sub && e.k != g.k) ||
      (e.sub != g.sub && e.lath == g.lath && e.sub % x.q == g.sub % x.q && e.m != 0 && g.m != 0 &&
        decide (e.base < g.base + g.m) && decide (g.base < e.base + e.m))))

/-- Shape conditions of one stream that concern its tile: R63, R97, R98, R128; and the fields that must be zero by where the tile has the
stream come from (spec/05 R126, R137). The pair of every loaded tile of the pass is checked, an idle sub-array's too, and that of no
empty tile (log entry 88). -/
def entTileBad (x : Ctx) (afmt : Fmt) (e : PEnt) : Bool :=
  decide (e.tile.kt < e.k) || (e.tile.kt != 0 && !pairOk e.tile.fmt afmt) ||
    (e.tile.sp24 && afmt != .cf8 && afmt != .int8) || decide (2048 < e.base + e.tubRows) ||
    (x.q != 1 && e.loftK != e.k && (e.act != 0 || e.scl != 0)) || (e.loftK == e.k && e.hawkOff != 0)

/-- Shape conditions of one stream whatever its tile: R97, R128, R241; and fields that must be zero (spec/05 R126), for which the
model takes the same status (log entry 88). -/
def entFormBad (x : Ctx) (afmt : Fmt) (e : PEnt) : Bool :=
  decide ((if x.q = 1 then 4096 else 2048) < e.m) || (e.m != 0 && e.stride == 0) ||
    (x.q != 1 && decide (2048 < e.base + e.m)) || (!afmt.isCf && (e.scl != 0 || e.sclStride != 0))

/-- Shape conditions of one stream of a pass (spec/04 R100, orders 1 to 5). invalid: a refused load has marked the shadow that the
pass would swap in (R96), so that there is no tile to judge by. -/
def entShapeBad (x : Ctx) (afmt : Fmt) (invalid : Bool) (e : PEnt) : Bool :=
  entFormBad x afmt e || (!invalid && entTileBad x afmt e)

/-- Whether a format is the activation format of some pair of the table Lath operand pairs (spec/04 R100 order 1). -/
def actFmtOk (f : Fmt) : Bool := [Fmt.cf4, .cf8, .int8, .bf16, .binary16, .int16].any (fun w => pairOk w f)

/-- The bytes of a row in Loft: code and scale ranges of row m (spec/08 R241). -/
def PEnt.loftRow (e : PEnt) (f : Fmt) (b : Blk) (m : Nat) : VRange × VRange :=
  (⟨e.act + (e.row0 + m) * e.stride, rowCodeBytes f e.loftK⟩, ⟨e.scl + (e.row0 + m) * e.sclStride, rowScaleBytes f b e.loftK⟩)

/-- The bytes of a row in the Hawk: first byte and length; the codes and then the scales (spec/05 R137). -/
def PEnt.hawkRow (e : PEnt) (f : Fmt) (b : Blk) (m : Nat) : Nat × Nat :=
  (e.hawkOff + (e.row0 + m) * e.stride, rowCodeBytes f (e.k - e.loftK) + rowScaleBytes f b (e.k - e.loftK))

/-- Sources of a stream outside the allotment's own pages or part, or drawn (orders 7; spec/09 R267). -/
def State.entDenied (s : State) (a c : Nat) (x : Ctx) (f : Fmt) (b : Blk) (e : PEnt) : Bool :=
  (List.range e.m).any (fun m =>
    let lr := e.loftRow f b m
    let hr := e.hawkRow f b m
    !s.loftReadable a c lr.1.va lr.1.len || !s.loftReadable a c lr.2.va lr.2.len ||
      (decide (e.loftK < e.k) && (decide (x.hawkLen < hr.1 + hr.2) || s.hawkDrawn c x hr.1 hr.2)))

/-- RACT and RSCL of the next iteration of an L.PASS. -/
def QOp.passAct (q : QOp) : Int := (q.reg 91 : Int) + q.dA
def QOp.passScl (q : QOp) : Int := (q.reg 86 : Int) + q.dB

/-- The swap choice of the next iteration of an L.PASS: only the first of a nested one swaps (spec/07 R206). -/
def QOp.passSwap (q : QOp) : Bool := bitAt q.w.toNat 127 && q.taken == 0

/-- The streams of an L.PASS; table is the split pass table, empty where it cannot be read. -/
def Ctx.passEnts (x : Ctx) (q : QOp) (table : List Byte) : List PEnt :=
  if x.q = 1 then x.plainEnts q q.passSwap (vaOf q.passAct) (vaOf q.passScl) ((q.f 113 103 : Int) + q.dD).toNat
  else if table.isEmpty then [] else x.splitEnts q.passSwap table

/-- The plan of an L.PASS with its formats given. -/
def Ctx.passOf (x : Ctx) (q : QOp) (afmt : Fmt) (ablk : Blk) (table : List Byte) : PassPlan :=
  { swap := q.passSwap, clear := q.clearOf (q.f 126 125), wrap := bitAt q.w.toNat 124, afmt := afmt, ablk := ablk,
    ents := x.passEnts q table }

/-- Orders 1 to 6 of the table Refusals at the Lath queue for an L.PASS, and R240 and R250 before them (spec/04 R100, spec/05
R128): its plan, or its refusal. RSCL names an operand, which B may move, only for a format with block scales on an unsplit Lath;
under a split BASE names none. -/
def Ctx.passShape (x : Ctx) (q : QOp) (table : List Byte) : Except Status PassPlan :=
  match fmtOf (q.f 102 99), blkOf (q.f 98 96) with
  | some afmt, some ablk =>
    let base := (q.f 113 103 : Int) + q.dD
    let p := x.passOf q afmt ablk table
    let headBad := q.passMalformed || !q.strideOnly true (x.q == 1 && afmt.isCf) (x.q == 1) || ablk.isSquare ||
      !actFmtOk afmt || !fmtBlkOk afmt ablk || decide (base < 0) || decide (2047 < base)
    let plainBad := x.q == 1 && (decide (2 ^ 28 ≤ q.reg 81) || (!afmt.isCf && (q.f 90 86 != 0)))
    let splitBad := x.q != 1 && (q.f 90 71 != 0 || q.f 123 114 != 0 || q.f 113 103 != 0 || q.f 70 58 != 0)
    let invalid := fun (e : PEnt) => p.swap && (match x.shadow.find e.sub with | some (.invalid _) => true | _ => false)
    let reservedBad := x.q != 1 && !table.isEmpty &&
      (List.range (x.q * x.q * 4)).any (fun i => fld (splitWord table i) 80 0 != 0)
    if headBad || plainBad || splitBad || p.ents.any (fun e => entShapeBad x afmt (invalid e) e) || reservedBad ||
        (x.q != 1 && splitClash x p.ents) then .error .shapeMismatch
    else match (if p.swap then x.invalidShadow else none) with
      | some st => .error st
      | none => .ok p
  | _, _ => .error .shapeMismatch

/-- The checks of an L.PASS at the head of the queue (spec/04 R100): those of its shape, and order 7. A register that holds no
address of 48 bits names no page, whatever the pass reads (spec/08 R239). -/
def State.passPlan (s : State) (a c : Nat) (x : Ctx) (q : QOp) (table : List Byte) : Except Status PassPlan :=
  match x.passShape q table with
  | .error st => .error st
  | .ok p =>
    if vaBad q.passAct || vaBad q.passScl || (x.q != 1 && table.isEmpty) || p.ents.any (s.entDenied a c x p.afmt p.ablk) then
      .error .accessDenied
    else .ok p

/-! ### Output-stationary passes -/

/-- The plan of an L.PASSO (spec/05 R143). -/
structure OsPlan where
  clear : Bool
  wrap : Bool
  k : Nat
  n : Nat
  base : Nat
  afmt : Fmt
  ablk : Blk
  wfmt : Fmt
  wblk : Blk
  trans : Bool
  unicast : Bool
  ms : List Nat
  ents : List PEnt
  deriving DecidableEq, Repr

/-- The rings that a pass reads (spec/05 R144). -/
def OsPlan.rings (p : OsPlan) : List Nat :=
  if p.unicast then (List.range 4).filter (fun l => p.ms.getD l 0 != 0)
  else if p.ms.any (· != 0) then [0] else []

/-- The ring that Lath l reads. -/
def OsPlan.ringOf (p : OsPlan) (l : Nat) : Nat := if p.unicast then l else 0

/-- The plan fields that a started output-stationary pass needs, read again from its instruction. -/
def QOp.osShape (q : QOp) : Fmt × Fmt × Blk × Fmt × Nat × Nat × Bool × Bool × Bool :=
  ((fmtOf (q.f 88 85)).getD .cf8, (fmtOf (q.f 81 78)).getD .cf4, (blkOf (q.f 77 75)).getD .none, (fmtOf (q.f 81 78)).getD .cf4,
    q.f 124 108, q.f 107 100, bitAt q.w.toNat 73, bitAt q.w.toNat 125, bitAt q.w.toNat 72)

/-- The rings that a started output-stationary pass reads. -/
def QOp.osRings (q : QOp) : List Nat :=
  let ms := (List.range 4).map (fun l => fld (q.reg 52) (16 * l + 15) (16 * l))
  if bitAt q.w.toNat 72 then (List.range 4).filter (fun l => ms.getD l 0 != 0)
  else if ms.any (· != 0) then [0] else []

/-- The runs of the Hawk part that n bytes of ring r occupy from a count on, wrapping at the ring's end (spec/08 R243,
R245): rings are quarters of the part. -/
def Ctx.ringRuns (x : Ctx) (r count n : Nat) : List (Nat × Nat) :=
  let size := x.hawkLen / 4
  let at' := count % size
  let first := min n (size - at')
  [(r * size + at', first), (r * size, n - first)]

/-- The Hawk ranges that n bytes of ring r occupy from a count on. -/
def Ctx.ringRngs (x : Ctx) (r count n : Nat) : List Rng :=
  (x.ringRuns r count (min n (x.hawkLen / 4))).map (fun run => { space := .hawk, base := run.1, len := run.2 })

/-- The ring's counts. -/
def Ctx.ring (x : Ctx) (r : Nat) : Ring := Tbl.get {} x.rings r

/-- The bytes of ring r that the started output-stationary passes have still to take: what comes before those of the next pass
(spec/05 R144, spec/08 R245). -/
def Ctx.ringAhead (x : Ctx) (r : Nat) : Nat :=
  (x.passes.map (fun p => match p.os with
    | none => 0
    | some o => if p.q.osRings.contains r then o.chunksLeft * chunkBytes p.q.osShape.2.1 p.q.osShape.2.2.1 p.q.osShape.2.2.2.2.2.1 else 0)).foldl
    (· + ·) 0

/-- The bytes of ring r that the next n of a pass hold, as far as they are filled: from a count on, and how many. -/
def Ctx.ringNext (x : Ctx) (r skip n : Nat) : Nat × Nat :=
  let g := x.ring r
  (g.drain + skip, min n (g.fill - (g.drain + skip)))

/-- Whether the next n bytes of the rings that a pass reads, behind those that the passes ahead of it take and as far as they are filled,
include bytes of a Larder page (spec/11 R339). -/
def State.ringsOwned (s : State) (c : Nat) (x : Ctx) (rs : List Nat) (skip : Nat → Nat) (n : Nat) : Bool :=
  rs.any (fun r =>
    let b := x.ringNext r (skip r) n
    (x.ringRuns r b.1 b.2).any (fun run => s.hawkOwned c x run.1 run.2))

/-- An L.PASSO that R240 refuses. -/
def QOp.passoMalformed (q : QOp) : Bool :=
  q.badHeader false || q.f 46 32 != 0 || q.f 127 126 == 3 || (fmtOf (q.f 88 85)).isNone || (blkOf (q.f 84 82)).isNone ||
    (fmtOf (q.f 81 78)).isNone || (blkOf (q.f 77 75)).isNone

/-- M_l of an L.PASSO for each Lath. -/
def QOp.passoMs (q : QOp) : List Nat := (List.range 4).map (fun l => fld (q.reg 52) (16 * l + 15) (16 * l))

/-- RACT and RSCL of the next iteration of an L.PASSO. -/
def QOp.passoAct (q : QOp) : Int := (q.reg 67 : Int) + q.dA
def QOp.passoScl (q : QOp) : Int := (q.reg 62 : Int) + q.dB

/-- Orders 1 to 5 for an L.PASSO, and R240 and R250 before them (spec/05 R143, spec/04 R100): its plan, or its refusal. -/
def QOp.passoShape (q : QOp) : Except Status OsPlan :=
  match fmtOf (q.f 88 85), blkOf (q.f 84 82), fmtOf (q.f 81 78), blkOf (q.f 77 75) with
  | some afmt, some ablk, some wfmt, some wblk =>
    let base := (q.f 99 89 : Int) + q.dD
    let k := q.f 124 108
    let n := q.f 107 100
    let trans := bitAt q.w.toNat 73
    let sp24 := bitAt q.w.toNat 74
    let ms := q.passoMs
    let stride := q.reg 57 % 2 ^ 16
    let bad := q.passoMalformed || !q.strideOnly true afmt.isCf true || !pairOk wfmt afmt || ablk.isSquare || !fmtBlkOk afmt ablk || !fmtBlkOk wfmt wblk ||
      (trans && wfmt.isCf && !wblk.isSquare) || (sp24 && (wfmt != .cf4 || trans)) || decide (65536 < k) || decide (128 < n) ||
      ms.any (fun m => decide (128 < m)) || decide (base < 0) || decide (2047 < base) ||
      ms.any (fun m => decide (2048 < base.toNat + m)) || (ms.any (· != 0) && stride == 0) || decide (2 ^ 28 ≤ q.reg 57) ||
      (!afmt.isCf && (q.f 66 62 != 0 || fld (q.reg 57) 27 16 != 0))
    if bad then .error .shapeMismatch
    else
      let ents := (List.range 4).map (fun l =>
        ({ sub := 0, lath := l, m := ms.getD l 0, k := k, base := base.toNat, fold := 1, col0 := 0, tile := {},
           act := vaOf q.passoAct, stride := stride, scl := vaOf q.passoScl, sclStride := fld (q.reg 57) 27 16,
           row0 := fld (q.reg 47) (16 * l + 15) (16 * l), loftK := k, hawkOff := 0 } : PEnt))
      .ok { clear := q.clearOf (q.f 127 126), wrap := bitAt q.w.toNat 125, k := k, n := n, base := base.toNat, afmt := afmt,
            ablk := ablk, wfmt := wfmt, wblk := wblk, trans := trans, unicast := bitAt q.w.toNat 72, ms := ms, ents := ents }
  | _, _, _, _ => .error .shapeMismatch

/-- The checks of an L.PASSO at the head of the queue: those of its shape, and order 7 (spec/04 R100, spec/08 R239, spec/11 R339). -/
def State.passoPlan (s : State) (a c : Nat) (x : Ctx) (q : QOp) : Except Status OsPlan :=
  match q.passoShape with
  | .error st => .error st
  | .ok p =>
    if vaBad q.passoAct || vaBad q.passoScl || p.ents.any (s.entDenied a c x p.afmt p.ablk) ||
        (p.trans && s.isGreen a && s.ringsOwned c x p.rings x.ringAhead (ceilDiv p.k 8 * chunkBytes p.wfmt p.wblk p.n)) then .error .accessDenied
    else .ok p

/-- An L.SPLIT that R240 refuses: NE is 1, a reserved code or field. -/
def QOp.splitMalformed (q : QOp) : Bool :=
  q.badHeader false || q.f 125 32 != 0 || q.f 127 126 == 3 || bitAt q.w.toNat 12

end Sys2Proof.Machine
end

