-- ==== Sys2Proof/Machine/ObjTable.lean ====
section
/-! DEFINITION. The object tables of the Parish Register as data: type, access, range and clamp of every object (spec/16 R463 to
R469, and the object tables of spec/01 and spec/10 to spec/18). -/

namespace Sys2Proof.Machine

/-- The object types (spec/16 R464). -/
inductive ObjTy where
  | u8 | u16 | u32 | u64 | i32 | bool | bits256
  | octets (n : Nat)
  | text
  deriving DecidableEq, Repr

/-- The code of a type. -/
def ObjTy.code : ObjTy → Nat
  | .u8 => 0x01 | .u16 => 0x02 | .u32 => 0x03 | .u64 => 0x04 | .i32 => 0x05 | .bool => 0x06 | .bits256 => 0x07
  | .octets _ => 0x08 | .text => 0x09

/-- The bytes of a type; a STRING's are at most 64. -/
def ObjTy.size : ObjTy → Nat
  | .u8 => 1 | .u16 => 2 | .u32 => 4 | .u64 => 8 | .i32 => 4 | .bool => 1 | .bits256 => 32 | .octets n => n | .text => 64

/-- The access rights of a column entry (spec/00 R6). -/
inductive Right where
  | ro | rw | wo
  deriving DecidableEq, Repr

/-- The Range and Clamp columns (spec/16 R469): any value; the nearer end of a range; a fixed value outside a range; bits kept;
and the clamps with words of their own. -/
inductive Clamp where
  | any
  | near (lo hi : Nat)
  | nearSigned (lo hi : Nat)
  | outside (lo hi v : Nat)
  | keep (bits : Nat)
  | watchdog
  | rowBytes
  | setpoint
  | rateHalves
  deriving DecidableEq, Repr

/-- An object: type, access by role, clamp. -/
structure ObjDef where
  ty : ObjTy
  acc : List (Role × Right)
  clamp : Clamp := .any
  deriving DecidableEq, Repr

def accA : List (Role × Right) := [(.a, .ro)]
def accOro : List (Role × Right) := [(.o, .ro)]
def accOwo : List (Role × Right) := [(.o, .wo)]
def accOrw : List (Role × Right) := [(.o, .rw)]
def accOroTro : List (Role × Right) := [(.o, .ro), (.t, .ro)]
def accOrwTro : List (Role × Right) := [(.o, .rw), (.t, .ro)]
def accOroTrw : List (Role × Right) := [(.o, .ro), (.t, .rw)]
def accOrwTrw : List (Role × Right) := [(.o, .rw), (.t, .rw)]
def accOwoTwo : List (Role × Right) := [(.o, .wo), (.t, .wo)]
def accOrwAro : List (Role × Right) := [(.o, .rw), (.a, .ro)]
def accOrwMrw : List (Role × Right) := [(.o, .rw), (.m, .rw)]
def accOwoMwo : List (Role × Right) := [(.o, .wo), (.m, .wo)]
def accOroMro : List (Role × Right) := [(.o, .ro), (.m, .ro)]

/-- An apply subindex. -/
def applyDef (acc : List (Role × Right)) : Option ObjDef := some { ty := .u8, acc := acc }

/-- A bit mask of bits [hi:lo]. -/
def maskBits (hi lo : Nat) : Nat := 2 ^ (hi + 1) - 2 ^ lo

/-- Allotment objects 0x31nn (spec/10, table Allotment object). -/
def allotDef (sub : Nat) : Option ObjDef :=
  match sub with
  | 0x01 => some ⟨.u8, accOroTro, .any⟩
  | 0x02 => some ⟨.bits256, accOrwTro, .keep (2 ^ 128 - 1)⟩
  | 0x03 => some ⟨.bits256, accOrwTro, .any⟩
  | 0x04 => some ⟨.u32, accOrwTro, .near 20 100000⟩
  | 0x05 => some ⟨.u32, accOrwTro, .near 0 7680000⟩
  | 0x06 => some ⟨.u16, accOrwTro, .near 9 2048⟩
  | 0x07 => some ⟨.u32, accOrwTro, .near 0 442368⟩
  | 0x08 => some ⟨.u16, accOrwTro, .near 0 4096⟩
  | 0x09 => some ⟨.u8, accOrwTro, .near 1 16⟩
  | 0x0A => some ⟨.u8, accOrwTro, .outside 0 15 0xFF⟩
  | 0x0B => some ⟨.u32, accOrwTro, .watchdog⟩
  | 0x0C => some ⟨.bool, accOrwTro, .any⟩
  | 0x0D => some ⟨.bool, accOroTrw, .any⟩
  | 0x0E => some ⟨.bool, accOrwTro, .any⟩
  | 0x0F => some ⟨.u16, accOrwTro, .any⟩
  | 0x10 => some ⟨.u64, accOroTrw, .keep (maskBits 47 6)⟩
  | 0x11 => some ⟨.u32, accOroTrw, .near 0 65536⟩
  | 0x1E => applyDef accOwo
  | 0x1F => applyDef accOwoTwo
  | 0x20 | 0x21 | 0x22 => some ⟨.u64, accOroTro, .any⟩
  | _ => none

/-- Moot group objects (spec/14, table Moot group objects). -/
def mootDef (sub : Nat) : Option ObjDef :=
  match sub with
  | 0x01 => some ⟨.u8, accOrwTro, .any⟩
  | 0x02 => some ⟨.u16, accOrwTro, .near 1 512⟩
  | 0x03 => some ⟨.u16, accOrwTro, .near 0 511⟩
  | 0x04 => some ⟨.u32, accOrwTrw, .near 1 10000000⟩
  | 0x05 => some ⟨.u8, accOroTrw, .near 0 127⟩
  | 0x06 => some ⟨.u8, accOroTrw, .near 0 63⟩
  | 0x07 => some ⟨.u64, accOroTrw, .keep (maskBits 46 21)⟩
  | 0x08 => some ⟨.u16, accOroTrw, .near 1 256⟩
  | 0x09 => some ⟨.u64, accOroTrw, .keep (maskBits 46 16)⟩
  | 0x0A => some ⟨.u8, accA, .any⟩
  | 0x0B | 0x0C | 0x0D => some ⟨.u64, accOroTro, .any⟩
  | 0x0E => applyDef accOwoTwo
  | _ => none

/-- Host port objects (spec/17, table Host objects). -/
def portDef (sub : Nat) : Option ObjDef :=
  match sub with
  | 0x01 => some ⟨.bool, accOrwAro, .any⟩
  | 0x02 => some ⟨.u8, accA, .any⟩
  | 0x03 => some ⟨.octets 6, accA, .any⟩
  | 0x04 => some ⟨.u32, accOrwAro, .any⟩
  | 0x05 => some ⟨.octets 16, accOrwAro, .any⟩
  | 0x06 => some ⟨.bool, accOrwAro, .any⟩
  | 0x07 => some ⟨.u8, accOrwAro, .near 0 7⟩
  | 0x08 | 0x09 => some ⟨.u8, accOrwAro, .near 0 63⟩
  | 0x0A => some ⟨.u8, accOrwAro, .near 10 90⟩
  | 0x0B => some ⟨.u16, accOrwAro, .near 10 1000⟩
  | 0x0C => some ⟨.u32, accOrwAro, .rateHalves⟩
  | 0x0D => applyDef accOwo
  | 0x0E | 0x0F | 0x10 => some ⟨.u64, accOro, .any⟩
  | _ => none

/-- Fabric and link objects (spec/13, tables Fabric objects and Link objects). -/
def fabricDef (sub : Nat) : Option ObjDef :=
  match sub with
  | 0x01 => some ⟨.u8, accOrwAro, .outside 0 1 0⟩
  | 0x02 => some ⟨.u16, accOrwAro, .near 0 511⟩
  | 0x03 => some ⟨.u16, accA, .any⟩
  | 0x04 => some ⟨.u8, accOrwAro, .outside 0 1 0⟩
  | 0x05 | 0x06 => some ⟨.u16, accA, .any⟩
  | 0x07 => some ⟨.u32, accA, .any⟩
  | 0x08 => some ⟨.u8, accA, .any⟩
  | 0x09 => applyDef accOwo
  | _ => none

def linkDef (sub : Nat) : Option ObjDef :=
  match sub with
  | 0x01 => some ⟨.bool, accOrwAro, .any⟩
  | 0x02 => some ⟨.u8, accA, .any⟩
  | 0x03 => some ⟨.u16, accA, .any⟩
  | 0x04 => some ⟨.u8, accA, .any⟩
  | 0x05 => some ⟨.octets 32, accOro, .any⟩
  | 0x06 | 0x07 | 0x08 => some ⟨.u64, accOro, .any⟩
  | 0x09 => some ⟨.u8, accOro, .any⟩
  | 0x0A => applyDef accOwo
  | _ => none

/-- Larder objects 0x3300 and 0x3301 (spec/11, table Larder objects). -/
def larderDef (idx sub : Nat) : Option ObjDef :=
  match idx, sub with
  | 0x3300, 0x01 => some ⟨.u16, accA, .any⟩
  | 0x3300, 0x02 => some ⟨.u16, accOro, .any⟩
  | 0x3300, 0x03 => some ⟨.u8, accOrw, .near 0 8⟩
  | 0x3300, 0x04 => some ⟨.u32, accOrw, .near 1000 10000000⟩
  | 0x3300, 0x05 => some ⟨.bool, accOrw, .any⟩
  | 0x3301, 0x01 => some ⟨.u8, accOrwTrw, .near 1 255⟩
  | 0x3301, 0x02 => some ⟨.u32, accOrwTrw, .outside 0 0xFFFFFFFE 0xFFFFFFFE⟩
  | 0x3301, 0x03 => some ⟨.u8, accOrwTrw, .outside 1 8 8⟩
  | 0x3301, 0x04 => some ⟨.u64, accOrwTrw, .keep (maskBits 46 16)⟩
  | 0x3301, 0x05 => applyDef accOwoTwo
  | 0x3301, 0x06 => some ⟨.u8, accOroTro, .any⟩
  | 0x3301, 0x07 => some ⟨.u16, accOroTro, .any⟩
  | 0x3301, 0x08 => some ⟨.u8, accOroTro, .any⟩
  | 0x3301, 0x09 => some ⟨.u32, accOroTro, .any⟩
  | _, _ => none

/-- Well registry objects (spec/16, table Well registry objects). -/
def wellDef (idx sub : Nat) : Option ObjDef :=
  match idx, sub with
  | 0x3200, 0x01 => some ⟨.u8, accA, .any⟩
  | 0x3200, 0x02 => some ⟨.u32, accA, .any⟩
  | 0x3200, _ => none
  | _, 0x01 => some ⟨.u8, accA, .any⟩
  | _, 0x02 => some ⟨.u64, accA, .any⟩
  | _, 0x03 => some ⟨.u32, accOrwAro, .near 1 442368⟩
  | _, 0x04 => some ⟨.u64, accOrwAro, .any⟩
  | _, 0x05 => some ⟨.octets 256, accOrwAro, .any⟩
  | _, 0x06 => some ⟨.octets 32, accA, .any⟩
  | _, 0x07 => some ⟨.octets 32, accA, .any⟩
  | _, 0x08 => some ⟨.u32, accOro, .any⟩
  | _, 0x09 => some ⟨.u8, accOrw, .outside 0 4 0⟩
  | _, 0x0A => applyDef accOwo
  | _, 0x0B => some ⟨.u8, accOro, .any⟩
  | _, _ => none

/-- Objects of single indices (spec/01, spec/10, spec/15, spec/16, spec/18). -/
def deviceDef (idx sub : Nat) : Option ObjDef :=
  match idx, sub with
  | 0x1000, 0x01 => some ⟨.text, accA, .any⟩
  | 0x1000, 0x02 => some ⟨.text, accA, .any⟩
  | 0x1000, 0x03 => some ⟨.text, accA, .any⟩
  | 0x1000, 0x04 => some ⟨.text, accA, .any⟩
  | 0x1000, 0x05 => some ⟨.octets 16, accA, .any⟩
  | 0x1000, 0x06 => some ⟨.u8, accA, .any⟩
  | 0x1100, 0x01 => some ⟨.u8, accA, .any⟩
  | 0x1100, 0x02 => some ⟨.octets 32, accA, .any⟩
  | 0x1100, 0x03 => some ⟨.u8, accA, .any⟩
  | 0x1100, 0x04 => some ⟨.bool, accA, .any⟩
  | 0x1102, 0x01 => applyDef accOwo
  | 0x1102, 0x02 => some ⟨.octets 16, accOro, .any⟩
  | 0x1102, 0x03 => some ⟨.octets 29856, accOwo, .any⟩
  | 0x1200, 0x01 => some ⟨.u16, accOrwAro, .near 1200 2400⟩
  | 0x1200, 0x02 => some ⟨.u16, accA, .any⟩
  | 0x1200, 0x03 => some ⟨.u64, accOro, .any⟩
  | 0x1200, 0x04 => some ⟨.u32, accA, .any⟩
  | 0x1200, 0x05 => applyDef accOwo
  | 0x1210, 0x05 => some ⟨.i32, accOrwAro, .nearSigned 70000 95000⟩
  | 0x1210, 0x06 => some ⟨.i32, accOrwAro, .nearSigned 95000 105000⟩
  | 0x1210, 0x07 => some ⟨.i32, accA, .any⟩
  | 0x1210, 0x08 => some ⟨.u8, accA, .any⟩
  | 0x1210, 0x09 => some ⟨.u8, accA, .any⟩
  | 0x1210, 0x0A => some ⟨.u64, accOro, .any⟩
  | 0x1210, 0x0B => some ⟨.u64, accOro, .any⟩
  | 0x1210, 0x0C => some ⟨.u64, accOro, .any⟩
  | 0x1210, 0x0D => applyDef accOwo
  | 0x1300, 0x01 => applyDef accOwo
  | 0x1300, 0x02 => some ⟨.u8, accA, .any⟩
  | 0x1300, 0x03 => some ⟨.u8, accA, .any⟩
  | 0x1300, 0x04 => some ⟨.u32, accA, .any⟩
  | 0x2000, 0x01 => some ⟨.u8, accA, .any⟩
  | 0x2000, 0x02 => some ⟨.u16, accOro, .any⟩
  | 0x20F0, 0x01 => some ⟨.octets 6, accA, .any⟩
  | 0x20F0, 0x02 => some ⟨.u8, accOrwAro, .outside 0 1 0⟩
  | 0x20F0, 0x03 => some ⟨.u32, accOrwAro, .any⟩
  | 0x20F0, 0x04 => some ⟨.u8, accOrwAro, .near 1 30⟩
  | 0x20F0, 0x05 => some ⟨.bool, accOrwAro, .any⟩
  | 0x20F0, 0x06 => applyDef accOwo
  | 0x3000, 0x01 => some ⟨.u8, accOrwAro, .any⟩
  | 0x3000, 0x02 => some ⟨.u32, accOrwAro, .near 0 65536⟩
  | 0x3000, 0x03 => some ⟨.u32, accOrwAro, .near 0 65536⟩
  | 0x3000, 0x04 => some ⟨.u16, accOrwAro, .rowBytes⟩
  | 0x3000, 0x05 => applyDef accOwo
  | 0x7000, 0x01 => some ⟨.u64, accOroTro, .any⟩
  | 0x7000, 0x02 => some ⟨.u64, accOroTro, .any⟩
  | 0x7000, 0x03 => some ⟨.u64, accOrwTrw, .any⟩
  | 0x7000, 0x04 => some ⟨.u16, accA, .any⟩
  | 0x7F00, 0x01 => some ⟨.u8, accOrwMrw, .near 0x02 0x05⟩
  | 0x7F00, 0x02 => some ⟨.u8, accOrwMrw, .outside 0 4 0⟩
  | 0x7F00, 0x03 => some ⟨.u32, accOrwMrw, .near 1 16777216⟩
  | 0x7F00, 0x04 => applyDef accOwoMwo
  | 0x7F00, 0x05 => some ⟨.u8, accOroMro, .any⟩
  | 0x7F00, 0x06 => some ⟨.u8, accA, .any⟩
  | 0x7F00, 0x07 => some ⟨.octets 32, accA, .any⟩
  | 0x7F00, 0x08 => some ⟨.u8, accA, .any⟩
  | 0x7F01, 0x01 => some ⟨.octets 16777216, accOwoMwo, .any⟩
  | _, _ => none

/-- Whether an index is defined (spec/16 R467), with its highest subindex (R463). -/
def objHighest (idx : Nat) : Option Nat :=
  if 0x3100 ≤ idx ∧ idx < 0x3200 then some 0x22
  else if 0x4000 ≤ idx ∧ idx < 0x400C then some 0x0E
  else if 0x4040 ≤ idx ∧ idx < 0x4070 then some 0x80
  else if 0x5000 ≤ idx ∧ idx < 0x5100 then some 0x18
  else if 0x6000 ≤ idx ∧ idx < 0x6100 then some 0x07
  else if 0x2110 ≤ idx ∧ idx < 0x2150 then some 0x0A
  else if 0x2180 ≤ idx ∧ idx < 0x2184 then some 0x80
  else if 0x1120 ≤ idx ∧ idx < 0x1124 then some 0xFF
  else if 0x3302 ≤ idx ∧ idx < 0x3307 then some 0xFF
  else if 0x1201 ≤ idx ∧ idx < 0x1205 then some 0x04
  else if 0x2001 ≤ idx ∧ idx < 0x2005 then some 0x10
  else match idx with
    | 0x1000 => some 0x06 | 0x1100 => some 0x04 | 0x1101 => some 0x05 | 0x1102 => some 0x03 | 0x1110 => some 0x04
    | 0x1200 => some 0x05 | 0x1205 => some 0x07 | 0x1210 => some 0x0D | 0x1220 => some 0x04 | 0x1300 => some 0x04
    | 0x2000 => some 0x02 | 0x2010 => some 0xFF | 0x2011 => some 0xFF | 0x20F0 => some 0x06 | 0x2100 => some 0x09
    | 0x2184 => some 0x01 | 0x2190 => some 0xFF | 0x3000 => some 0x05 | 0x3200 => some 0x02 | 0x3201 => some 0x0B
    | 0x3202 => some 0x0B | 0x3300 => some 0x05 | 0x3301 => some 0x09 | 0x7000 => some 0x04 | 0x7001 => some 0x40
    | 0x7F00 => some 0x08 | 0x7F01 => some 0x01
    | _ => none

/-- The array objects by subindex. -/
def arrayDef (idx sub : Nat) : Option ObjDef :=
  match idx with
  | 0x1101 => if sub ≤ 5 then some ⟨.u8, accA, .any⟩ else none
  | 0x1110 => if sub ≤ 4 then some ⟨.octets 32, accOrwAro, .any⟩ else none
  | 0x1120 => some ⟨.u64, accOroTro, .any⟩
  | 0x1121 | 0x1122 => some ⟨.octets 32, accOroTro, .any⟩
  | 0x1123 => some ⟨.u8, accOroTro, .any⟩
  | 0x1205 => if sub ≤ 7 then some ⟨.u16, accOro, .any⟩ else none
  | 0x1220 => if sub ≤ 4 then some ⟨.u32, accA, .any⟩ else none
  | 0x2010 => some ⟨.u64, accOroTrw, .keep (maskBits 46 10)⟩
  | 0x2011 => some ⟨.u16, accOroTro, .any⟩
  | 0x2180 | 0x2181 | 0x2182 | 0x2183 => if sub ≤ 0x80 then some ⟨.octets 16, accOrwAro, .any⟩ else none
  | 0x2184 => if sub = 1 then applyDef accOwo else none
  | 0x2190 => some ⟨.u64, accOroTrw, .keep (maskBits 46 21)⟩
  | 0x3302 => some ⟨.u16, accOrwTro, .near 0 16384⟩
  | 0x3303 => some ⟨.u32, accOrwTro, .near 0 442368⟩
  | 0x3304 => some ⟨.u16, accOroTro, .any⟩
  | 0x3305 => some ⟨.u8, accOroTrw, .outside 0 2 0⟩
  | 0x3306 => some ⟨.octets 16, accOroTrw, .keep (2 ^ 108 - 1)⟩
  | 0x7001 => if sub ≤ 0x40 then some ⟨.octets 32, accOroTro, .any⟩ else none
  | _ => none

/-- The ward objects 0x120w (spec/18, table Power objects). -/
def wardDef (sub : Nat) : Option ObjDef :=
  match sub with
  | 0x01 => some ⟨.u16, accOrwAro, .setpoint⟩
  | 0x02 => some ⟨.u16, accA, .any⟩
  | 0x03 => some ⟨.u16, accOro, .any⟩
  | 0x04 => applyDef accOwo
  | _ => none

/-- Numeric counters (spec/12 R362, R364) and performance counters (spec/16 R468). -/
def counterDef (sub : Nat) : Option ObjDef :=
  if sub = 0x09 then applyDef accOwoTwo
  else if sub ≤ 0x0A ∨ (0x11 ≤ sub ∧ sub ≤ 0x18) then some ⟨.u64, accOroTro, .any⟩
  else none

/-- An object's definition; none where the manual defines none (spec/16 R463). -/
def objDef (idx sub : Nat) : Option ObjDef :=
  match objHighest idx with
  | none => none
  | some _ =>
    if sub = 0 then some ⟨.u8, accA, .any⟩
    else if 0x3100 ≤ idx ∧ idx < 0x3200 then allotDef sub
    else if 0x4000 ≤ idx ∧ idx < 0x400C then mootDef sub
    else if 0x4040 ≤ idx ∧ idx < 0x4070 then (if sub ≤ 0x80 then some ⟨.u32, accOrwTro, .keep (2 ^ 24 - 1)⟩ else none)
    else if 0x5000 ≤ idx ∧ idx < 0x5100 then counterDef sub
    else if 0x6000 ≤ idx ∧ idx < 0x6100 then (if sub ≤ 7 then some ⟨.u64, accOroTro, .any⟩ else none)
    else if 0x2110 ≤ idx ∧ idx < 0x2150 then linkDef sub
    else if idx = 0x2100 then fabricDef sub
    else if 0x1201 ≤ idx ∧ idx < 0x1205 then wardDef sub
    else if 0x2001 ≤ idx ∧ idx < 0x2005 then portDef sub
    else if 0x3200 ≤ idx ∧ idx < 0x3203 then wellDef idx sub
    else if idx = 0x3300 ∨ idx = 0x3301 then larderDef idx sub
    else match arrayDef idx sub with
      | some d => some d
      | none => if 0x1210 = idx ∧ 1 ≤ sub ∧ sub ≤ 4 then some ⟨.i32, accA, .any⟩ else deviceDef idx sub

/-- The nearer end of a range. -/
def nearest (lo hi v : Nat) : Nat := if v < lo then lo else if hi < v then hi else v

/-- The value that a written value takes (spec/16 R469); a BOOL other than 0 and 1 becomes TRUE. -/
def ObjDef.clampTo (d : ObjDef) (v : Nat) : Nat :=
  match d.clamp with
  | .any => if d.ty = .bool then (if v = 0 then 0 else 1) else v
  | .near lo hi => nearest lo hi v
  | .nearSigned lo hi => if 2 ^ 31 ≤ v then lo else nearest lo hi v
  | .outside lo hi x => if lo ≤ v ∧ v ≤ hi then v else x
  | .keep m => Nat.land v m
  | .watchdog => if v = 0 then 0 else nearest 10 600000000 v
  | .rowBytes => nearest 32 65504 (v / 32 * 32)
  | .setpoint => nearest 600 850 (v / 25 * 25)
  | .rateHalves => nearest 100 50000 (v / 65536) * 65536 + nearest 100 10000 (v % 65536)

/-- The apply subindex that governs an object's writes, as (index, subindex) (spec/16 R471, spec/13, spec/14 R401): none where a
write takes effect at once. -/
def applyOf (idx sub : Nat) : Option (Nat × Nat) :=
  if 0x3100 ≤ idx ∧ idx < 0x3200 then (if 0x02 ≤ sub ∧ sub ≤ 0x11 then some (idx, 0x1F) else none)
  else if 0x4000 ≤ idx ∧ idx < 0x400C then (if 0x01 ≤ sub ∧ sub ≤ 0x09 then some (idx, 0x0E) else none)
  else if 0x4040 ≤ idx ∧ idx < 0x4070 then some (0x4000 + (idx - 0x4040) / 4, 0x0E)
  else if 0x1201 ≤ idx ∧ idx < 0x1205 then (if sub = 0x01 then some (idx, 0x04) else none)
  else if 0x2001 ≤ idx ∧ idx < 0x2005 then (if sub ≤ 0x0C then some (idx, 0x0D) else none)
  else if 0x2180 ≤ idx ∧ idx < 0x2184 then some (0x2184, 0x01)
  else match idx with
    | 0x1200 => if sub = 0x01 then some (idx, 0x05) else none
    | 0x1210 => if sub = 0x05 ∨ sub = 0x06 then some (idx, 0x0D) else none
    | 0x20F0 => if sub < 0x06 then some (idx, 0x06) else none
    | 0x2100 => if sub < 0x09 then some (idx, 0x09) else none
    | 0x3000 => if sub < 0x05 then some (idx, 0x05) else none
    | 0x3201 | 0x3202 => if sub < 0x0A then some (idx, 0x0A) else none
    | 0x7F00 => if sub < 0x04 then some (idx, 0x04) else none
    | _ => none

/-- Whether a subindex is an apply or another write of 1 that starts an action. -/
def isAction (idx sub : Nat) : Bool :=
  match objDef idx sub with
  | some d => d.ty == .u8 && d.acc.all (fun e => e.2 == .wo)
  | none => false

end Sys2Proof.Machine
end

