-- ==== Sys2Proof/Machine/Register.lean ====
section
/-! DEFINITION. Sessions, roles, access, clamped writes, pending copies and applies of the Parish Register (spec/15 R441, R442,
spec/16 R463 to R473). -/

namespace Sys2Proof.Machine

/-! ### Sessions and roles -/

/-- A session. -/
def State.session (s : State) (n : Nat) : Option Session := s.sessions.find n

def State.setSession (s : State) (n : Nat) (x : Session) : State := { s with sessions := s.sessions.set n x }

def State.modSession (s : State) (n : Nat) (f : Session → Session) : State :=
  match s.session n with
  | none => s
  | some x => s.setSession n (f x)

/-- The keeper digest of an allotment (object 0x1122.nn). -/
def State.keeper (s : State) (n : Nat) : Nat := s.reg 0x1122 n

/-- Whether a session holds a role (spec/15, table Roles). -/
def State.holds (s : State) (x : Session) : Role → Bool
  | .a => true
  | .o => x.oper
  | .m => x.maker
  | .t => match x.bound with
    | some n => x.authed && s.keeper n != 0 && x.keyDigest == s.keeper n
    | none => false
  | .f => false

/-- Whether a session of a number holds a role. -/
def State.roleOf (s : State) (n : Nat) (r : Role) : Bool :=
  match s.session n with
  | none => false
  | some x => s.holds x r

/-- The allotment that an object concerns (spec/16 R466). -/
def State.objAllot (s : State) (idx sub : Nat) : Option Nat :=
  if 0x3100 ≤ idx ∧ idx < 0x3200 then some (idx - 0x3100)
  else if 0x5000 ≤ idx ∧ idx < 0x5100 then some (idx - 0x5000)
  else if 0x6000 ≤ idx ∧ idx < 0x6100 then some (idx - 0x6000)
  else if 0x1120 ≤ idx ∧ idx < 0x1124 then some sub
  else if 0x3302 ≤ idx ∧ idx < 0x3307 then some sub
  else if 0x4000 ≤ idx ∧ idx < 0x400C then some (s.reg idx 0x01)
  else if 0x4040 ≤ idx ∧ idx < 0x4070 then some (s.reg (0x4000 + (idx - 0x4040) / 4) 0x01)
  else match idx with
    | 0x2010 | 0x2011 | 0x2190 => some sub
    | _ => none

/-- Whether a right allows a write, or a read; what may only be written reads as zero (spec/00 R6). -/
def Right.allows (r : Right) (write : Bool) : Bool :=
  match r with
  | .ro => !write
  | _ => true

/-- The roles by which a session may read or write an object, in the order of the Access column (spec/16 R465, R466). -/
def State.grants (s : State) (x : Session) (idx sub : Nat) (write : Bool) : List Role :=
  match objDef idx sub with
  | none => []
  | some d =>
    (d.acc.filter (fun e => e.2.allows write && s.holds x e.1 &&
      (e.1 != .t || (match s.objAllot idx sub with
        | some n => x.bound == some n
        | none => true)))).map Prod.fst

/-- The first of them. -/
def State.grantOf (s : State) (x : Session) (idx sub : Nat) (write : Bool) : Option Role := (s.grants x idx sub write).head?

/-- Whether the Green's debug facilities are closed (spec/15 R460): an admitted slot holds a request of a confidential allotment. -/
def State.greenClosed (s : State) : Bool := s.greenSlots.any (fun e => !e.2.dead && s.reg (0x3100 + e.2.allot) 0x0D != 0)

/-- What confidential mode closes to every party but the allotment (spec/12 R365, spec/16 R468, spec/15 R458), and the Green's performance
counters while R460 closes them. The number of entries is no counter and stays readable by every role (spec/16 R463), but for the operator's
accesses to 0x50nn, every one of which R365 refuses. -/
def State.closedBy (s : State) (idx sub : Nat) (r : Role) : Bool :=
  let n := idx % 256
  let numeric := decide (0x5000 ≤ idx) && decide (idx < 0x5100)
  let perf := decide (0x6000 ≤ idx) && decide (idx < 0x6100)
  let conf := s.reg (0x3100 + n) 0x0D != 0
  if sub = 0 then numeric && conf && r == .o
  else (r != .t && (numeric || perf) && conf) || (perf && s.isGreen n && s.greenClosed)

/-- The roles that allow an access before confidential mode: the number of entries of an object is read by every session: by the allotment's
own as T, by the operator's as O. -/
def State.candidates (s : State) (x : Session) (idx sub : Nat) (write : Bool) : List Role :=
  if sub = 0 ∧ !write then
    (if (objHighest idx).isNone then []
    else if s.holds x .t && (s.objAllot idx 0).isSome && x.bound == s.objAllot idx 0 then [.t]
    else if x.oper then [.o] else [.a])
  else s.grants x idx sub write

/-- The role that allows an access after confidential mode; none: it is refused with ACCESS_DENIED. -/
def State.mayAccess (s : State) (x : Session) (idx sub : Nat) (write : Bool) : Option Role :=
  (s.candidates x idx sub write).find? (fun r => !s.closedBy idx sub r)

/-! ### Clamps and their records -/

/-- The code of a role in an event record (spec/16, table Event record). -/
def roleCode : Role → Nat
  | .m => 0 | .f => 1 | .o => 2 | .t => 3 | .a => 4

/-- A clamp's records (spec/16 R473): one for each 64-bit word that differs; fuel bounds the words. -/
def State.logClamp (s : State) (idx sub old new role : Nat) : Nat → State
  | 0 => s
  | fuel + 1 =>
    let s1 := s.logClamp idx sub old new role fuel
    let w := old / 2 ^ (64 * fuel) % 2 ^ 64
    let v := new / 2 ^ (64 * fuel) % 2 ^ 64
    if w = v then s1
    else s1.logEvent
      { written := w, applied := v, index := idx, sub := sub, kind := 0x01, allot := (s.objAllot idx sub).getD 0
        status := .clamped, word := fuel, role := role }

/-- A clamp recorded. -/
def State.noteClamp (s : State) (idx sub old new : Nat) (r : Role) : State := s.logClamp idx sub old new (roleCode r) 4

/-- A refused apply recorded (spec/16, event kind 0x06), with the role by which it was asked for; ROLE reads 1, the Verger's own, for a
descriptor that the Verger refuses with no session (spec/17 R495, log entry 112). -/
def State.noteRefusal (s : State) (idx sub : Nat) (st : Status) (r : Role := .f) : State :=
  s.logEvent { index := idx, sub := sub, kind := 0x06, allot := (s.objAllot idx sub).getD 0, status := st, role := roleCode r }

/-! ### Persistent objects (spec/18 R522) -/

/-- Whether the boot flash keeps an object. -/
def persistent (idx sub : Nat) : Bool :=
  idx == 0x1110 || (idx == 0x20F0 && decide (2 ≤ sub) && decide (sub ≤ 5)) ||
    (decide (0x2001 ≤ idx) && decide (idx ≤ 0x2004) && (sub == 1 || (decide (4 ≤ sub) && decide (sub ≤ 0x0C)))) ||
    (idx == 0x2100 && (sub == 1 || sub == 2 || sub == 4)) || (decide (0x2180 ≤ idx) && decide (idx ≤ 0x2183)) ||
    (idx == 0x1200 && sub == 1) || (decide (0x1201 ≤ idx) && decide (idx ≤ 0x1204) && sub == 1) ||
    (idx == 0x1210 && (sub == 5 || sub == 6))

/-- An object set to a value that is in force from now on; a persistent one reaches the boot flash within 100 ms. -/
def State.putReg (s : State) (idx sub v : Nat) : State :=
  let s1 := s.setReg idx sub v
  if persistent idx sub then { s1 with flashWait := s1.flashWait ++ [(objKey idx sub, v, s.timer + 100000000)] } else s1

/-! ### Writes (spec/16 R469, R471) -/

/-- Objects that hold one value for each session: the Larder's command, the log's window, the counters' snapshots. -/
def perSession (idx sub : Nat) : Bool :=
  (idx == 0x3301 && decide (1 ≤ sub) && decide (sub ≤ 9)) || (idx == 0x7000 && sub == 3) ||
    (decide (0x5000 ≤ idx) && decide (idx < 0x5100) && (sub == 0x0A || (decide (0x11 ≤ sub) && decide (sub ≤ 0x18))))

/-- A session's own value of an object. -/
def Session.ownVal (x : Session) (idx sub : Nat) : Nat := Tbl.get (objDefault idx sub) x.own (objKey idx sub)

def Session.setOwn (x : Session) (idx sub v : Nat) : Session := { x with own := x.own.set (objKey idx sub) v }

/-- The value that a session's write takes, with the clamps whose rule lies outside the Clamp column (spec/15 R457, spec/11
table Larder objects). -/
def State.clampWrite (s : State) (x : Session) (r : Role) (d : ObjDef) (idx sub v : Nat) : Nat :=
  let c := d.clampTo v
  if idx = 0x3301 ∧ sub = 0x01 ∧ r = .t then x.bound.getD c
  else if sub = 0x0D ∧ 0x3100 ≤ idx ∧ idx < 0x3200 ∧ (idx = 0x3100 ∨ s.isGreen (idx - 0x3100)) then 0
  else c

/-- Whether an object belongs to a Well slot that is sealed, which keeps its size, digest and shape (spec/16 R477). -/
def State.sealedField (s : State) (idx sub : Nat) : Bool :=
  (idx == 0x3201 || idx == 0x3202) && decide (3 ≤ sub) && decide (sub ≤ 5) && decide (2 ≤ s.wellRole (idx - 0x3201))

/-- A write to an object that starts no action: refused, or its value in force, pending or the session's own; the state, the
status and the value answered. -/
def State.writeObject (s : State) (sess idx sub v : Nat) : State × Status × Nat :=
  match s.session sess, objDef idx sub with
  | some x, some d =>
    match s.mayAccess x idx sub true with
    | none => (s, .accessDenied, 0)
    | some r =>
      if s.sealedField idx sub then (s, .accessDenied, 0)
      else if 2 ^ (8 * d.ty.size) ≤ v then (s, .shapeMismatch, 0)
      else
        let c := s.clampWrite x r d idx sub v
        let s1 := if c = v then s else s.noteClamp idx sub v c r
        let s2 :=
          if perSession idx sub then s1.modSession sess (fun y => y.setOwn idx sub c)
          else if (applyOf idx sub).isSome then s1.modSession sess (fun y => { y with pend := y.pend.set (objKey idx sub) c })
          else s1.putReg idx sub c
        (s2, if c = v then .ok else .clamped, c)
  | _, _ => (s, .accessDenied, 0)

/-! ### Applies (spec/16 R472) -/

/-- The value that an apply takes for a field: the session's pending value where the session may write the field, else the value
in force. -/
def State.applying (s : State) (sess idx sub : Nat) : Nat :=
  match s.session sess with
  | none => s.reg idx sub
  | some x =>
    match x.pend.find (objKey idx sub) with
    | some v => if (s.grantOf x idx sub true).isSome then v else s.reg idx sub
    | none => s.reg idx sub

/-- Whether a session may write an apply subindex. -/
def State.mayApply (s : State) (sess idx sub : Nat) : Bool :=
  match s.session sess with
  | none => false
  | some x => (s.grantOf x idx sub true).isSome

/-- The first role by which a session may write an object; A where none. -/
def State.applyRole (s : State) (sess idx sub : Nat) : Role :=
  match s.session sess with
  | none => .a
  | some x => (s.grantOf x idx sub true).getD .a

/-- The pending values of an apply leave its session. -/
def State.dropPend (s : State) (sess idx sub : Nat) : State :=
  s.modSession sess (fun x => { x with pend := x.pend.drop (fun k => applyOf (k / 256) (k % 256) == some (idx, sub)) })

/-- Objects set to the values of a list; an object that holds its value already is not written to the boot flash again. -/
def State.putFields (s : State) (vals : List (Nat × Nat × Nat)) : State :=
  vals.foldl (fun t e => if t.reg e.1 e.2.1 = e.2.2 then t else t.putReg e.1 e.2.1 e.2.2) s

/-- The pending fields of an apply that its session may write take effect. -/
def State.takeFields (s : State) (sess idx sub : Nat) (vals : List (Nat × Nat × Nat)) : State := (s.putFields vals).dropPend sess idx sub

/-- A refused apply of a session: nothing takes effect, the pending copy is kept. -/
def State.refuseApply (s : State) (sess idx sub : Nat) (st : Status) : State × Status := (s.noteRefusal idx sub st (s.applyRole sess idx sub), st)

/-- The result of a register write or an apply that a command makes outside a message. -/
def State.wrote (r : State × Status) (sess idx sub : Nat) : Res := .next (r.1.emit (.wrote sess idx sub r.2))

/-- A message on a session: one that has ended, or never was, is answered with InvalidSession (spec/15 R443). -/
def State.onSession (s : State) (sess : Nat) (r : Res) : Res :=
  if (s.session sess).isNone then .next (s.emit (.spdm (some sess) .invalidSession)) else r

/-- Whether the device is up: it runs, the boot has released the cores (spec/18 R523), and it is not in recovery. -/
def State.up (s : State) : Bool := s.power == .running && decide (5 ≤ s.reg 0x1300 0x02) && decide (s.reg 0x1300 0x02 ≤ 7)

/-- Whether the runtime answers LMP: not while a live activation runs (spec/15 R451). -/
def State.answers (s : State) : Bool := s.up && s.activating.isNone

/-- Whether the Verger loader answers instead: in recovery (spec/16 R487) and from phase 2 of the boot until the runtime does (spec/18, table
Bring-up). -/
def State.inRecovery (s : State) : Bool :=
  s.power == .running && (s.reg 0x1300 0x02 == 0xEE || (decide (2 ≤ s.reg 0x1300 0x02) && decide (s.reg 0x1300 0x02 < 5)))

/-- Whether the Verger or its loader answers anything at all: the device runs, and phase 2 of the boot has ended (spec/18 R509, R518, R523). -/
def State.talks (s : State) : Bool := s.power == .running && decide (2 ≤ s.reg 0x1300 0x02)

/-- Whether no operation of a session waits for its action: later ones wait behind that (spec/16 R484). -/
def State.sessionIdle (s : State) (sess : Nat) : Bool :=
  match s.session sess with
  | none => true
  | some x => !x.waiting && !x.alone

/-- A register write or apply of an object that a command asks for on a session: InvalidSession on a session that has ended, refused in
recovery (spec/16 R487), unanswered where nothing answers; behind an operation that waits it waits too, and its command comes again (log
entry 116). -/
def State.rowOf (s : State) (sess idx sub : Nat) (r : Res) : Res :=
  if s.answers then (if s.sessionIdle sess then s.onSession sess r else .next s)
  else if s.inRecovery then s.onSession sess (.next (s.emit (.wrote sess idx sub .accessDenied)))
  else .next s

/-! ### SPDM answers (spec/16 R480, R481) -/

/-- What the device advertises in SPDM: the transfer size of a path, and the size of the largest message, which chunking carries. -/
def dataTransferSize : LmpPath → Nat
  | .management => 1400
  | .inBand _ => 4000
def maxSpdmMessage : Nat := 65536

/-- The secured messages that carry so many bytes on a path: one, or as many chunks as they take (log entry 115). -/
def chunksOf (path : LmpPath) (bytes : Nat) : Nat := max 1 (ceilDiv bytes (dataTransferSize path))

/-- The bytes that an SPDM answer carries, but for its headers. -/
def SpdmAns.size : SpdmAns → Nat
  | .measurements _ blocks _ => 32 + (blocks.map (fun b => b.2.length)).foldl (· + ·) 0 + 17088
  | .challengeAuth _ _ => 32 + 17088
  | .lych _ data => 1 + data.length
  | _ => 1

/-- An SPDM answer: on an open session a secured message with the session's next SEQUENCE, counted from 0; else outside one. -/
def State.reply (s : State) (sess : Option Nat) (ans : SpdmAns) : State :=
  match sess with
  | none => s.emit (.spdm none ans)
  | some n =>
    match s.session n with
    | none => s.emit (.spdm sess ans)
    | some x => (s.setSession n { x with sent := x.sent + chunksOf x.path ans.size }).emit (.secure n x.sent ans)

/-! ### Trace (spec/15 R458, R460) -/

/-- Whether the Verger lets a party other than the allotment trace a core: not one of a confidential allotment, and not one of the Green
while its debug facilities are closed (spec/15 R458, R460). -/
def State.mayTrace (s : State) (core : Nat) : Bool :=
  (List.range 256).all (fun n =>
    !bitAt (s.reg (0x3100 + n) 0x02) core || (s.reg (0x3100 + n) 0x0D == 0 && !(s.isGreen n && s.greenClosed)))

end Sys2Proof.Machine
end

