-- ==== Sys2Proof/Machine/Moot.lean ====
section
/-! DEFINITION. The Moot: groups, the reduction tree, landing, publishing and lost members (spec/14). -/

namespace Sys2Proof.Machine

/-! ### Groups and ranks -/

/-- A group slot's object (spec/14 R401). -/
def State.mReg (s : State) (g sub : Nat) : Nat := s.reg (0x4000 + g) sub

/-- The allotment that owns a group slot. -/
def State.mOwner (s : State) (g : Nat) : Nat := s.mReg g 0x01
/-- The ranks of a group slot. -/
def State.mRanks (s : State) (g : Nat) : Nat := s.mReg g 0x02
/-- This device's rank in it. -/
def State.mRank (s : State) (g : Nat) : Nat := s.mReg g 0x03
/-- The state of a group slot: 0 free, 1 defined, 2 open, 3 lost. -/
def State.mState (s : State) (g : Nat) : Nat := s.mReg g 0x0A

/-- The member of a rank: its house and its local allotment. -/
def State.member (s : State) (g r : Nat) : Nat := s.reg (0x4040 + 4 * g + r / 128) (r % 128 + 1)
def State.memberHouse (s : State) (g r : Nat) : Nat := fld (s.member g r) 15 0
def State.memberAllot (s : State) (g r : Nat) : Nat := fld (s.member g r) 23 16

/-- A group slot's own state. -/
def State.group (s : State) (g : Nat) : MGroup := Tbl.get {} s.groups g

def State.modGroup (s : State) (g : Nat) (f : MGroup → MGroup) : State := { s with groups := s.groups.set g (f (s.group g)) }

/-- The key of a bucket: its group and its number mod 256 (spec/14 R411). -/
def bucketKey (g b : Nat) : Nat := g * 256 + b % 256

def State.bucketAt (s : State) (g b : Nat) : Option Bucket := s.buckets.find (bucketKey g b)

def State.setBucket (s : State) (g b : Nat) (k : Bucket) : State := { s with buckets := s.buckets.set (bucketKey g b) k }

def State.modBucket (s : State) (g b : Nat) (f : Bucket → Bucket) : State :=
  match s.bucketAt g b with
  | none => s
  | some k => s.setBucket g b (f k)

/-- The open buckets of a group. -/
def State.openBuckets (s : State) (g : Nat) : List (Nat × Bucket) := s.buckets.filter (fun e => e.1 / 256 == g)

/-- The highest level of a rank's nodes: L at rank 0, else the number of times that 2 divides it (spec/14 R404, R405). -/
def topLevel (n r : Nat) : Nat :=
  if r = 0 then ((List.range 11).find? (fun k => decide (n ≤ 2 ^ k))).getD 0
  else ((List.range 10).find? (fun k => r % 2 ^ (k + 1) != 0)).getD 0

/-- The rank that holds the right child of a rank's node of a level; none when it is empty (spec/14 R405). -/
def rightChild (n r level : Nat) : Option Nat := if r + 2 ^ (level - 1) < n then some (r + 2 ^ (level - 1)) else none

/-- The ranks that a rank forwards a published shard to: the right children of its nodes, from the highest level down, without
the owner; the owner sends to rank 0 first (spec/14 R416, R417). -/
def shardTargets (n r owner : Nat) : List Nat :=
  (if r = owner ∧ r ≠ 0 then [0] else []) ++
    (((List.range (topLevel n r)).reverse.filterMap (fun k => rightChild n r (k + 1))).filter (· != owner))

/-- Ranks in a roll call. -/
def popCount (roll : Nat) : Nat := ((List.range 512).filter (fun i => bitAt roll i)).length

/-- The status of a bucket (spec/14 R422). -/
def rollStatus (n roll : Nat) : Status := if (List.range n).all (fun i => bitAt roll i) then .ok else .deadlinePartial

/-! ### Flits (spec/14 R406, R424) -/

/-- F of a partial's, reduced bucket's or shard's Tally (spec/14 R406). -/
def mootF (pub : Bool) (step bucket : Nat) : Nat := seqForm (b2n pub * 2 ^ 54 + step % 2 ^ 22 * 2 ^ 32 + bucket % 2 ^ 32)

/-- CTX of a Moot flit. -/
def mootCtx (sub : Nat) (pub : Bool) (level bslot offset : Nat) : Nat :=
  sub * 2 ^ 44 + b2n pub * 2 ^ 43 + level % 16 * 2 ^ 39 + bslot % 256 * 2 ^ 31 + offset

/-- The flits of a partial, reduced bucket or shard to a rank: OPEN, DATA, CLOSE. -/
def State.mootFlits (s : State) (g rank level : Nat) (pub : Bool) (st : MStream) : List Flit :=
  let base : Flit :=
    { kind := 6, vc := 4 + g, dest := s.memberHouse g rank, src := s.house, household := s.reg (0x3100 + s.mOwner g) 0x0F }
  let cx := fun sub off => mootCtx sub pub level st.bucket off
  { base with
    ctx := cx 0 0
    body := .mootOpen { rollCall := st.roll, step := st.step, samples := st.samples, bucket := st.bucket
                        length := st.bytes.length, faulty := st.faulty } } ::
    (piecesAt 236 st.bytes).map (fun p => { base with ctx := cx 1 (p.1 / 4), body := .bytes p.2 }) ++
    [{ base with ctx := cx 2 0, body := .mootClose (tally (s.memberAllot g rank) (mootF pub st.step st.bucket) st.bytes) }]

/-- The FAIL flit of a bucket to a rank. -/
def State.failFlit (s : State) (g rank bucket : Nat) : Flit :=
  { kind := 6, vc := 4 + g, dest := s.memberHouse g rank, src := s.house
    household := s.reg (0x3100 + s.mOwner g) 0x0F, ctx := mootCtx 3 true 0 bucket 0 }

/-- A part as it streams out. -/
def Bucket.stream (k : Bucket) (p : MPart) : MStream :=
  { step := k.step, bucket := k.bucket, roll := p.roll, samples := p.samples, faulty := p.faulty
    length := 4 * p.data.length, bytes := p.data.flatMap (fun w => leBytes 4 w.toNat) }

/-- The 32-bit elements of bytes. -/
def wordsOf : Nat → List Byte → List W32
  | 0, _ => []
  | n + 1, bs => BitVec.ofNat 32 (ofLe (bs.take 4)) :: wordsOf n (bs.drop 4)

/-- The part that a stream carries. -/
def MStream.part (m : MStream) : MPart :=
  { roll := m.roll, samples := m.samples, faulty := m.faulty, data := wordsOf (m.bytes.length / 4) m.bytes }

/-! ### The tree (spec/14 R404 to R409) -/

/-- One element's sum with what it counts: a NaN operand counts only when it comes from a contribution that no node has added yet
(spec/14 R409). fresh: the operand is such a contribution. -/
def nodeAdd (freshA freshB : Bool) (a b : W32) : W32 × Ev :=
  let r := addF32 a b
  let nanA := (f32 a) == Val.nan
  let nanB := (f32 b) == Val.nan
  (r.1,
   { invalid := r.2.invalid, infinities := r.2.infinities
     propagated := b2n ((nanA && freshA) || (nanB && freshB)) })

/-- A node's result from its children present (spec/14 R404, R407). A child that stands alone passes with its bits as they are, a NaN that is
not the canonical one too, a choice (log entry 109). -/
def combine (a b : MPart) : MPart × Ev :=
  if b.roll = 0 then ({ a with faulty := a.faulty + b.faulty }, {})
  else if a.roll = 0 then ({ b with faulty := a.faulty + b.faulty }, {})
  else
    let rs := (a.data.zip b.data).map (fun e => nodeAdd (popCount a.roll == 1) (popCount b.roll == 1) e.1 e.2)
    ({ roll := Nat.lor a.roll b.roll, samples := (a.samples + b.samples) % 2 ^ 64, faulty := a.faulty + b.faulty
       data := rs.map Prod.fst }, Ev.sum (rs.map Prod.snd))

/-- The instant at which a deadline expires (spec/19 R529): when the Verger times the slot, at the next whole microsecond. -/
def State.expiryOf (s : State) (g at' : Nat) : Nat := if (s.group g).verger then (at' + 999) / 1000 * 1000 else at'

/-- The comparators of the group slots after a change of their deadlines (spec/19 R529, spec/14 R423). -/
def State.mootTimers (s : State) (g : Nat) : State :=
  let k := s.group g
  if (s.openBuckets g).any (fun e => e.2.deadline.isSome) then
    if k.comparator.isSome || k.verger then s
    else
      let used := s.groups.filterMap (fun e => e.2.comparator)
      match (List.range 7).find? (fun i => !used.contains i) with
      | some i => s.modGroup g (fun x => { x with comparator := some i })
      | none => s.modGroup g (fun x => { x with verger := true })
  else if k.comparator.isSome || k.verger then s.modGroup g (fun x => { x with comparator := none, verger := false })
  else s

/-- A bucket that has sent what it owes, forwarded the shard and completed its M.PUBLISH closes (spec/14 R411). -/
def State.tryClose (s : State) (g b : Nat) : State :=
  match s.bucketAt g b with
  | none => s
  | some k =>
    if k.sentUp && k.forwarded && k.published then
      let s1 := { s with buckets := s.buckets.erase (bucketKey g b) }
      if (s1.openBuckets g).isEmpty && s1.mState g == 2 then s1.setReg (0x4000 + g) 0x0A 1 else s1
    else s

/-- A finished node's part goes on: to the next node, to the parent, or to the bucket's owner; a node with a right child starts its
deadline (spec/14 R405, R413, R420). A held ward adds after the hold (spec/14 R428). fuel bounds the levels. -/
def State.mootAdvance (s : State) (g b : Nat) : Nat → State
  | 0 => s
  | fuel + 1 =>
    match s.bucketAt g b with
    | none => s
    | some k =>
      match k.left with
      | none => s
      | some p =>
        let n := s.mRanks g
        let r := s.mRank g
        if k.level = topLevel n r then
          if k.sentUp then s
          else
            let s1 := s.setBucket g b { k with sentUp := true }
            (if r ≠ 0 then s1.sendFlits (s1.mootFlits g (r - 2 ^ k.level) (k.level + 1) false (k.stream p))
            else if k.bucket % n = 0 then s1.setBucket g b { k with sentUp := true, reduced := some p }
            else s1.sendFlits (s1.mootFlits g (k.bucket % n) 0xF false (k.stream p))).tryClose g b
        else
          match rightChild n r (k.level + 1) with
          | none => (s.setBucket g b { k with level := k.level + 1 }).mootAdvance g b fuel
          | some _ =>
            match k.rights.find (k.level + 1) with
            | some q =>
              if s.wardHeld (k.core / 32) then s
              else
                let c := combine p q
                let part := { c.1 with faulty := c.1.faulty + Tbl.get 0 k.faultyAdd (k.level + 1) }
                ((s.setBucket g b { k with level := k.level + 1, left := some part, deadline := none }).count (s.mOwner g)
                  c.2).mootAdvance g b fuel
            | none =>
              if k.deadline.isSome then s
              else s.setBucket g b { k with deadline := some (s.timer + s.mReg g 0x04 * 1000) }

/-- The tree of a bucket run as far as it goes. -/
def State.mootRun (s : State) (g b : Nat) : State := (s.mootAdvance g b 12).mootTimers g

/-- The running node finishes with its left child alone (spec/14 R420). -/
def State.nodeExpire (s : State) (g b : Nat) : State :=
  match s.bucketAt g b with
  | none => s
  | some k =>
    let l := k.level + 1
    (s.setBucket g b
      { k with
        level := l, deadline := none, expired := k.expired.set l s.timer
        left := k.left.map (fun p => { p with faulty := p.faulty + Tbl.get 0 k.faultyAdd l }) }).mootRun g b

/-- A right child's arrival at a node (spec/14 R420, R421). A CLOSE that comes at the instant of an expiry already taken has
lost to it at the arbiter. -/
def State.partialArrives (s : State) (g b : Nat) (k : Bucket) (level : Nat) (m : MStream) (good : Bool) : State :=
  let p := m.part
  let late := fun (t : State) => t.bumpReg (0x4000 + g) 0x0B 1
  if !good || m.bytes.length != (if p.roll = 0 then 0 else k.len) then
    let s1 := s.bumpReg (0x4000 + g) 0x0C 1
    if level ≤ k.level then s1
    else s1.setBucket g b { k with faultyAdd := Tbl.modify 0 k.faultyAdd level (· + popCount p.roll) }
  else if level ≤ k.level then
    (if k.expired.find level = some s.timer then (late s).bumpReg (0x4000 + g) 0x0D 1 else late s)
  else
    let take := fun (t : State) => (t.setBucket g b { k with rights := k.rights.set level p, deadline := none }).mootRun g b
    match (if level = k.level + 1 then k.deadline else none) with
    | none => s.setBucket g b { k with rights := k.rights.set level p }
    | some e =>
      let x := s.expiryOf g e
      if s.timer < x then take s
      else if s.timer = x then
        let d := s.drawBool
        if d.1 then take d.2 else ((late d.2).bumpReg (0x4000 + g) 0x0D 1).nodeExpire g b
      else late (s.nodeExpire g b)

/-! ### Records -/

/-- The 128 bytes of a Moot record (spec/14, table Moot record). -/
def mootRecord (publish : Bool) (n : Nat) (step bucket roll samples faulty length : Nat) (st : Status) : List Byte :=
  leBytes 128
    (roll % 2 ^ 512 * 2 ^ 512 + step % 2 ^ 64 * 2 ^ 448 + samples % 2 ^ 64 * 2 ^ 384 + bucket % 2 ^ 32 * 2 ^ 352 +
      length % 2 ^ 32 * 2 ^ 320 + stCode st * 2 ^ 312 + b2n publish * 2 ^ 304 + popCount roll % 2 ^ 16 * 2 ^ 288 +
      faulty % 2 ^ 16 * 2 ^ 272 + n % 2 ^ 16 * 2 ^ 256)

/-- Bytes written when the owner may write every byte of the places; else they are skipped, and counted as an operation in the Moot status
register of a core, where the allotment has one (spec/14 R413). -/
def State.mootWrite (s : State) (a : Nat) (c : Option Nat) (places : List VRange) (ws : List (Nat × List Byte)) : State :=
  match s.transferCheck a [] places false with
  | .ok => ws.foldl (fun t w => t.writeVa a w.1 w.2) s
  | st =>
    let st' : Status := if st = .frozenTarget then .frozenTarget else .accessDenied
    c.elim s (fun core => s.modCtx a core (fun x => x.note .moot st' (x.nextIndex .moot)))

/-- A publish record (spec/14 R418, R419). -/
def State.publishRecord (s : State) (a c g : Nat) (step bucket roll samples faulty length : Nat) (st : Status) : State :=
  let at' := s.mReg g 0x09 + 32768 + bucket % 256 * 128
  s.mootWrite a (some c) [⟨at', 128⟩] [(at', mootRecord true (s.mRanks g) step bucket roll samples faulty length st)]

/-! ### Landing (spec/14 R413, R414) -/

/-- The landing slot of a bucket number. -/
def State.landSlot (s : State) (g bucket : Nat) : Nat := g * 256 + bucket % s.mReg g 0x08

/-- A reduced bucket lands: its bytes and its reduce record are written, and the landing mark is incremented. Where .05 names a
core that the allotment does not have, there is no mark to increment. -/
def State.land (s : State) (g b : Nat) (k : Bucket) (p : MPart) : State :=
  let a := s.mOwner g
  let n := s.mRanks g
  let bytes := (k.stream p).bytes
  let c := s.coreAt a (s.mReg g 0x05)
  let slot := s.mReg g 0x07 + k.bucket % s.mReg g 0x08 * 4194304
  let recAt := s.mReg g 0x09 + k.bucket % 256 * 128
  let data := if bytes.isEmpty then [] else [(slot, bytes)]
  let rec' := mootRecord false n k.step k.bucket p.roll p.samples p.faulty bytes.length (rollStatus n p.roll)
  let s1 := s.mootWrite a c [⟨slot, 4194304⟩, ⟨recAt, 128⟩] (data ++ [(recAt, rec')])
  let s2 := { s1.setBucket g b { k with landed := true, deferred := false } with
    landingSlots := s1.landingSlots.set (s.landSlot g k.bucket) (k.bucket % 256) }
  c.elim s2 (fun core => s2.modCtx a core (fun x => x.bumpMark (some (s.mReg g 0x06))))

/-- The landing slot of a bucket is freed (spec/14 R414). -/
def State.unland (s : State) (g bucket : Nat) : State :=
  let key := s.landSlot g bucket
  if s.landingSlots.find key = some (bucket % 256) then { s with landingSlots := s.landingSlots.erase key } else s

/-- BUCKET_LANDING: the reduced bucket at its owner lands, or is kept while its slot holds an earlier bucket. -/
def execBucketLanding (g b : Nat) (s : State) : Res :=
  match s.bucketAt g b with
  | none => .next s
  | some k =>
    match k.reduced with
    | none => .next s
    | some p =>
      if k.landed || k.deferred then .next s
      else if (s.landingSlots.find (s.landSlot g k.bucket)).isSome then .next (s.setBucket g b { k with deferred := true })
      else .next (s.land g b k p)

/-- DEFERRED_LANDING: a kept bucket lands when its slot is free. -/
def execDeferredLanding (g b : Nat) (s : State) : Res :=
  match s.bucketAt g b with
  | none => .next s
  | some k =>
    match k.reduced with
    | none => .next s
    | some p =>
      if k.deferred && (s.landingSlots.find (s.landSlot g k.bucket)).isNone then .next (s.land g b k p) else .next s

/-! ### The queue (spec/14 R410 to R412, R416, R418) -/

/-- An M.CONTRIB, against an M.PUBLISH. -/
def QOp.isContrib (q : QOp) : Bool := q.op == 1
def QOp.isPublish (q : QOp) : Bool := q.op == 2

/-- The bucket number, where it is one of 32 bits. -/
def QOp.mBucketNo (q : QOp) : Nat := (natOf q.mBucket).getD (2 ^ 32)

/-- What R240 and order 1 of the table Refusals at the Moot queue refuse, but for an opened bucket. -/
def QOp.mootMalformed (q : QOp) : Bool :=
  !(q.isContrib || q.isPublish) || q.badHeader false || q.f 98 32 != 0 || decide (12 ≤ q.mGroup) || !q.strideOnly true true false ||
    decide (q.mLen < 4) || decide (4194304 < q.mLen) || q.mLen % 4 != 0 || decide (2 ^ 32 ≤ q.mBucketNo) ||
    decide (2 ^ 32 ≤ q.mSamples) || ((q.isPublish || q.mAbstains) && q.f 103 99 != 0)

/-- Whether this device owns the bucket of an operation. -/
def State.mOwns (s : State) (q : QOp) : Bool := s.mRank q.mGroup == q.mBucketNo % s.mRanks q.mGroup

/-- The page checks of orders 4 to 6. -/
def State.mootPages (s : State) (a c : Nat) (q : QOp) : Status :=
  let va := (natOf q.mAddr).getD (2 ^ 48)
  let win := s.windowOf a c
  if q.isContrib && q.mAbstains then .ok
  else if loftVa ≤ va && !(decide (win ≤ va) && decide (va + q.mLen ≤ win + windowSize)) then .accessDenied
  else if q.isContrib || s.mOwns q then s.transferCheck a [⟨va, q.mLen⟩] [] false
  else s.transferCheck a [] [⟨va, q.mLen⟩] false

/-- The checks of a Moot operation at the head of its queue, but for hazards (spec/14 R412). One that waited in the queue when its
group lost a member ends with that (R426). -/
def State.mootCheck (s : State) (a c : Nat) (q : QOp) : Status :=
  let g := q.mGroup
  if q.lost then .memberLost
  else if q.mootMalformed then .shapeMismatch
  else if q.isContrib && (s.group g).opened.contains (q.mStep, q.mBucketNo) then .shapeMismatch
  else if s.mOwner g = 0 || s.mOwner g != a || s.mState g == 0 then .accessDenied
  else if s.mState g == 3 then .memberLost
  else s.mootPages a c q

/-- What a Moot operation reads and writes. -/
def State.mootFp (s : State) (q : QOp) : Footprint :=
  let r := [vaRng ((natOf q.mAddr).getD 0) q.mLen]
  if q.isContrib && q.mAbstains then {}
  else if q.isContrib || s.mOwns q then { reads := r }
  else { writes := r }

/-- An M.PUBLISH has completed: its bucket may close, and at the owner its landing slot is free (spec/14 R411, R414). -/
def State.publishDone (s : State) (q : QOp) : State :=
  let g := q.mGroup
  let b := q.mBucketNo
  match s.bucketAt g b with
  | none => s
  | some k =>
    if k.step != q.mStep || k.bucket != b then s
    else
      let s1 := s.setBucket g b { k with published := true }
      (if s.mOwns q then s1.unland g b else s1).tryClose g b

/-- Completed Moot operations leave in queue order (spec/07 R202); fuel is their number. -/
def State.drainMoots (s : State) (a c : Nat) : Nat → State
  | 0 => s
  | fuel + 1 =>
    match (s.ctx a c).moots with
    | r :: rest =>
      let leave := fun (st : Status) => (s.modCtx a c (fun x => { x with moots := rest })).engineDone a c .moot r.idx st r.q.mark
      match r.phase with
      | .refused st => (leave st).drainMoots a c fuel
      | .done st => (if r.q.isPublish then (leave st).publishDone r.q else leave st).drainMoots a c fuel
      | _ => s
    | [] => s

/-- Completed Moot operations of a core leave. -/
def State.settleMoots (s : State) (a c : Nat) : State := s.drainMoots a c (s.ctx a c).moots.length

/-- The head of the Moot queue taken into the started list. -/
def Ctx.takeMoot (x : Ctx) (q : QOp) (ph : MootPhase) (fp : Footprint) : Ctx :=
  { x.takeIndex .moot with
    mootQ := takeIter x.mootQ, moots := x.moots ++ [{ idx := x.nextIndex .moot, q := q, phase := ph, fp := fp }] }

/-- The Moot's operations started on a core and not complete, whichever allotment's (spec/07 R201). -/
def State.mootStarted (s : State) (core : Nat) : Nat :=
  ((s.ctxs.filter (fun e => e.1 % 128 == core)).map (fun e => e.2.moots.length)).foldl (· + ·) 0

/-- The bucket that an M.CONTRIB opens. -/
def State.openBucket (s : State) (a c : Nat) (q : QOp) : State :=
  let g := q.mGroup
  let b := q.mBucketNo
  let n := s.mRanks g
  let none' := (shardTargets n (s.mRank g) (b % n)).isEmpty
  let s1 := s.modGroup g (fun k => { k with opened := (q.mStep, b) :: k.opened })
  (s1.setBucket g b
    { step := q.mStep, bucket := b, len := q.mLen, allot := a, core := c, forwarded := !s.mOwns q && none' }).setReg
    (0x4000 + g) 0x0A 2

/-- The phase of a core's operation changed by its place in the started list. -/
def State.setPhase (s : State) (a c i : Nat) (ph : MootPhase) : State :=
  s.modCtx a c (fun x => { x with moots := x.moots.modify i (fun r => { r with phase := ph }) })

/-- A non-owner's M.PUBLISH that waits completes once its bucket's shard has come or failed (spec/14 R418, R419). -/
def State.finishPublish (s : State) (a c i : Nat) (r : MootRun) : State :=
  match r.phase with
  | .waitShard g b =>
    match s.bucketAt g b with
    | none => s
    | some k =>
      if k.step != r.q.mStep || k.bucket != r.q.mBucketNo then s
      else
        let close := fun (t : State) (st : Status) => t.setPhase a c i (.done st)
        match k.shard with
        | .none => s
        | .good m =>
          if m.bytes.length = r.q.mLen then
            let st := rollStatus (s.mRanks g) m.roll
            close ((s.writeVa a ((natOf r.q.mAddr).getD 0) m.bytes).publishRecord a c g m.step m.bucket m.roll m.samples m.faulty
              m.bytes.length st) st
          else close s .shapeMismatch
        | .failed =>
          let f := s.freeCtr
          close (({ s with freeCtr := f + 3 }).publishRecord a c g k.step k.bucket (Config.freeNat f) (Config.freeNat (f + 1))
            (Config.freeNat (f + 2)) 0 .tallyMismatch) .tallyMismatch
  | _ => s

/-- Every waiting M.PUBLISH of an allotment that can complete does. -/
def State.wakePublish (s : State) (a : Nat) : State :=
  (s.allotCores a).foldl (fun t c =>
    let rs := (t.ctx a c).moots
    ((rs.zip (List.range rs.length)).foldl (fun u e => u.finishPublish a c e.2 e.1) t).settleMoots a c) s

/-! ### Arrivals at an open bucket -/

/-- A shard, or the word that its check failed, goes on to the ranks below (spec/14 R417, R419). -/
def State.forwardShard (s : State) (g bucket : Nat) (m : MStream) (good : Bool) : State :=
  s.sendFlits ((shardTargets (s.mRanks g) (s.mRank g) (bucket % s.mRanks g)).flatMap (fun t =>
    if good then s.mootFlits g t 0 true m else [s.failFlit g t bucket]))

/-- A published shard, or its failure, at this device: it is kept, forwarded unless that is done, and handed to the M.PUBLISH that
waits (spec/14 R417 to R419). -/
def State.shardArrives (s : State) (g b : Nat) (k : Bucket) (m : MStream) (good sent : Bool) : State :=
  if s.mRank g = k.bucket % s.mRanks g ∨ k.shard ≠ .none then s
  else
    let s1 := s.setBucket g b { k with shard := if good then .good m else .failed, forwarded := true }
    let s2 := if sent then s1 else s1.forwardShard g k.bucket m good
    (s2.wakePublish (s2.mOwner g)).tryClose g b

/-- What has come for a bucket is taken by it. -/
def State.deliverMoot (s : State) (g b level : Nat) (m : MStream) (good sent : Bool) : State :=
  match s.bucketAt g b with
  | none => s
  | some k =>
    if level = 16 then s.shardArrives g b k m good sent
    else if level = 17 then s.shardArrives g b k m false false
    else if level = 15 then
      (if !good then s.bumpReg (0x4000 + g) 0x0C 1
      else if s.mRank g = k.bucket % s.mRanks g ∧ k.reduced.isNone then s.setBucket g b { k with reduced := some m.part }
      else s)
    else s.partialArrives g b k level m good

/-- A message that has come in whole: taken by its open bucket; counted late, or faulty, when its bucket has closed; else it waits for
this device's M.CONTRIB, but a shard goes on to the ranks below at once (spec/14 R411, R417, R420, R424). -/
def State.mootMessage (s : State) (g b level : Nat) (m : MStream) (good : Bool) : State :=
  match s.bucketAt g b with
  | some k =>
    if k.step = m.step ∧ k.bucket = m.bucket then s.deliverMoot g b level m good false else s.bumpReg (0x4000 + g) 0x0C 1
  | none =>
    if (s.group g).opened.contains (m.step, m.bucket) then
      (if 15 < level ∨ (level = 15 ∧ good) then s else s.bumpReg (0x4000 + g) (if good then 0x0B else 0x0C) 1)
    else
      let sent := level == 16 && s.mRank g != m.bucket % s.mRanks g
      (if sent then s.forwardShard g m.bucket m good else s).modGroup g (fun x =>
        { x with early := x.early ++ [({ level := level, stream := m, good := good, sent := sent } : MEarly)] })

/-- What waited for an M.CONTRIB is taken by the bucket that it opens. -/
def State.takeEarly (s : State) (g step bucket : Nat) : State :=
  let mine := fun (e : MEarly) =>
    if e.level = 17 then e.stream.bucket % 256 == bucket % 256 else e.stream.step == step && e.stream.bucket == bucket
  let es := (s.group g).early.filter mine
  es.foldl (fun t e => t.deliverMoot g bucket e.level e.stream e.good e.sent)
    (s.modGroup g (fun x => { x with early := x.early.filter (fun e => !mine e) }))

/-- An M.CONTRIB's contribution is known: present, or absent (spec/14 R410). -/
def State.contribute (s : State) (g b : Nat) (p : MPart) : State :=
  (s.modBucket g b (fun k => { k with left := some p })).mootRun g b

/-- MOOT_QUEUE_HEAD: the head of the Moot queue is refused, waits, or starts. An owner's M.PUBLISH waits at the head until
PUBLISH_START takes it (spec/14 R412, R416). -/
def execMootQueueHead (core : Nat) (s : State) : Res :=
  match s.onCore core with
  | none => .next s
  | some (a, x) =>
    match x.mootQ with
    | [] => .next s
    | q :: _ =>
      let va := (natOf q.mAddr).getD 0
      if decide (64 ≤ s.mootStarted core) || (!q.lost && !(q.isContrib && q.mAbstains) && s.spilledIn a va q.mLen) then .next s
      else
        match s.mootCheck a core q with
        | .ok =>
          let g := q.mGroup
          let b := q.mBucketNo
          let fp := s.mootFp q
          let open' := s.openBuckets g
          let full := decide (268435456 < ((open'.map (fun e => 2 * e.2.len)).foldl (· + ·) 0) + 2 * q.mLen)
          if q.isContrib && ((s.bucketAt g b).isSome || full) then .next s
          else if x.mustWait q fp || !x.boardRoom (s.windowOf a core) fp then .next s
          else if q.isPublish && s.mOwns q then .next s
          else if x.hazard (s.windowOf a core) .moot fp then
            .next (((s.noteHazard a core).setCtx a core (x.takeMoot q (.refused .hazard) {})).settleMoots a core)
          else if q.isPublish then
            .next (((s.translate a core fp).setCtx a core (x.takeMoot q (.waitShard g b) fp)).wakePublish a)
          else
            let s1 := (s.translate a core fp).openBucket a core q
            if q.mAbstains then
              let s2 := (s1.setCtx a core (x.takeMoot q (.done .ok) {})).settleMoots a core
              .next ((s2.takeEarly g q.mStep b).contribute g b {})
            else .next ((s1.setCtx a core (x.takeMoot q (.reading g b) fp)).takeEarly g q.mStep b)
        | st => .next ((s.setCtx a core (x.takeMoot q (.refused st) {})).settleMoots a core)

/-- The first operation of a list that reads its contribution. -/
def firstReading : List MootRun → Nat → Option (Nat × MootRun × Nat × Nat)
  | [], _ => none
  | r :: rs, i => match r.phase with
    | .reading g b => some (i, r, g, b)
    | _ => firstReading rs (i + 1)

/-- CONTRIB_READ_DONE: the first M.CONTRIB that reads has read its source; the level-1 node's left child is ready. One that meets a
poisoned word faults, and its contribution is absent (spec/14 R410, spec/10 R311). -/
def execContribReadDone (a core : Nat) (s : State) : Res :=
  if s.wardHeld (core / 32) then .next s
  else match s.ctx? a core with
    | none => .next s
    | some x =>
      match firstReading x.moots 0 with
      | none => .next s
      | some (i, r, g, b) =>
        let va := (natOf r.q.mAddr).getD 0
        let bs := s.readP a va r.q.mLen
        if bs.any Prod.snd then
          let s1 := (((s.setPhase a core i (.done .passAbortedFault)).settleMoots a core).contribute g b {})
          .next (s1.takeFault a core .moot .poison (va + bs.findIdx Prod.snd) r.idx)
        else
          let p : MPart :=
            { roll := 2 ^ s.mRank g, samples := r.q.mSamples, data := wordsOf (r.q.mLen / 4) (bs.map Prod.fst) }
          .next (((s.setPhase a core i (.done .ok)).settleMoots a core).contribute g b p)

/-- NODE_DEADLINE_EXPIRY: the running node of a level finishes with its left child alone. -/
def execNodeDeadlineExpiry (g b level : Nat) (s : State) : Res :=
  match s.bucketAt g b with
  | none => .next s
  | some k =>
    match k.deadline with
    | none => .next s
    | some e => if level = k.level + 1 ∧ s.expiryOf g e ≤ s.timer then .next (s.nodeExpire g b) else .next s

/-- PUBLISH_START: the owner's M.PUBLISH at the head of its queue reads its shard once its bucket has landed, and sends it (spec/14
R416, R417). -/
def execPublishStart (a core : Nat) (s : State) : Res :=
  match s.onCore core with
  | none => .next s
  | some (a', x) =>
    match x.mootQ with
    | [] => .next s
    | q :: _ =>
      let g := q.mGroup
      let b := q.mBucketNo
      let fp := s.mootFp q
      let va := (natOf q.mAddr).getD 0
      match s.bucketAt g b with
      | none => .next s
      | some k =>
        if a' != a || !q.isPublish || decide (64 ≤ s.mootStarted core) || s.spilledIn a va q.mLen || s.mootCheck a core q != .ok || !s.mOwns q ||
            k.step != q.mStep || k.bucket != b || !k.landed || x.mustWait q fp || !x.boardRoom (s.windowOf a core) fp then .next s
        else if x.hazard (s.windowOf a core) .moot fp then
          .next (((s.noteHazard a core).setCtx a core (x.takeMoot q (.refused .hazard) {})).settleMoots a core)
        else
          let bs := s.readP a va q.mLen
          let s := s.translate a core fp
          let p := k.reduced.getD {}
          let idx := x.nextIndex .moot
          if bs.any Prod.snd then
            let s1 := (s.setCtx a core (x.takeMoot q (.done .passAbortedFault) {})).settleMoots a core
            .next (s1.takeFault a core .moot .poison (va + bs.findIdx Prod.snd) idx)
          else
            let m : MStream :=
              { step := k.step, bucket := k.bucket, roll := p.roll, samples := p.samples, faulty := p.faulty, length := bs.length
                bytes := bs.map Prod.fst }
            let s1 := s.setCtx a core (x.takeMoot q (.done (rollStatus (s.mRanks g) p.roll)) {})
            .next (((s1.modBucket g b (fun y => { y with forwarded := true })).forwardShard g b m true).settleMoots a core)

/-! ### Flits that arrive (spec/14 R424) -/

/-- The key of a stream that comes in. -/
def streamKey (c : MootCtx) : Nat := c.bslot % 256 * 32 + (if c.pub then 16 else c.level)

/-- A Moot flit at its destination: one that names a slot without a defined owner is discarded and counted, one of a lost slot is
discarded. One whose household no local allotment holds is dropped and logged (spec/10 R304), and one of another household than the
owner's is discarded and counted with the faulty partials. -/
def State.mootFlit (s : State) (hdr : FlitHdr) (f : State → State) : State :=
  let g := hdr.vc - 4
  if 12 ≤ g then s
  else if (s.householdAllot hdr.household).isNone then s.logDrop hdr.src 0
  else if s.mOwner g = 0 ∨ s.mState g = 0 ∨ s.householdAllot hdr.household ≠ some (s.mOwner g) then s.bumpReg (0x4000 + g) 0x0C 1
  else if s.mState g = 3 then s
  else f s

/-- The CLOSE of a stream: its Tally is checked with this device's allotment (spec/14 R406). -/
def State.mootClose (s : State) (g : Nat) (c : MootCtx) (v : W32) : State :=
  let key := streamKey c
  match (s.group g).streams.find key with
  | none => s
  | some m =>
    let good := m.bytes.length == m.length && tally (s.mOwner g) (mootF c.pub m.step m.bucket) m.bytes == v
    (s.modGroup g (fun x => { x with streams := x.streams.erase key })).mootMessage g m.bucket (if c.pub then 16 else c.level) m good

/-- PARTIAL_CLOSE_ARRIVAL: the CLOSE of a partial or of a reduced bucket. -/
def execPartialCloseArrival (l : Nat) (hdr : FlitHdr) (ctx : MootCtx) (v : W32) (s : State) : Res :=
  s.arrive l hdr 6 (mootCtx 2 ctx.pub ctx.level ctx.bslot 0) (.mootClose v) (fun t =>
    if ctx.pub then t else t.mootFlit hdr (fun u => u.mootClose (hdr.vc - 4) ctx v))

/-- SHARD_ARRIVAL: the CLOSE of a published shard. -/
def execShardArrival (l : Nat) (hdr : FlitHdr) (ctx : MootCtx) (v : W32) (s : State) : Res :=
  s.arrive l hdr 6 (mootCtx 2 ctx.pub ctx.level ctx.bslot 0) (.mootClose v) (fun t =>
    if ctx.pub then t.mootFlit hdr (fun u => u.mootClose (hdr.vc - 4) ctx v) else t)

/-- FAIL_FLIT_ARRIVAL: the shard of the open bucket of its BSLOT has failed above (spec/14 R419). With no bucket open it names no
bucket, and it is kept for the one that an M.CONTRIB of its number opens. -/
def execFailFlitArrival (l : Nat) (hdr : FlitHdr) (ctx : MootCtx) (s : State) : Res :=
  s.arrive l hdr 6 (mootCtx 3 ctx.pub ctx.level ctx.bslot 0) .none (fun t => t.mootFlit hdr (fun u =>
    let g := hdr.vc - 4
    match u.bucketAt g ctx.bslot with
    | some k => u.shardArrives g ctx.bslot k { step := k.step, bucket := k.bucket, roll := 0, samples := 0, faulty := 0, length := 0 } false false
    | none =>
      let m : MStream := { step := 0, bucket := ctx.bslot, roll := 0, samples := 0, faulty := 0, length := 0 }
      u.modGroup g (fun x => { x with early := x.early ++ [{ level := 17, stream := m, good := false }] })))

/-- MOOT_FLIT_OPEN: the OPEN of a stream; one that does not match the open bucket of its BSLOT is discarded and counted. -/
def execMootFlitOpen (l : Nat) (hdr : FlitHdr) (ctx : MootCtx) (body : MootOpen) (s : State) : Res :=
  s.arrive l hdr 6 (mootCtx 0 ctx.pub ctx.level ctx.bslot 0) (.mootOpen body) (fun t => t.mootFlit hdr (fun u =>
    let g := hdr.vc - 4
    let bad := match u.bucketAt g ctx.bslot with
      | some k => k.step != body.step || k.bucket != body.bucket
      | none => body.bucket % 256 != ctx.bslot % 256
    if bad then u.bumpReg (0x4000 + g) 0x0C 1
    else
      let m : MStream :=
        { step := body.step, bucket := body.bucket, roll := body.rollCall, samples := body.samples, faulty := body.faulty
          length := body.length }
      u.modGroup g (fun x => { x with streams := x.streams.set (streamKey ctx) m })))

/-- MOOT_FLIT_DATA: bytes of a stream, in ascending OFFSET; bytes out of place are not taken, and the check then fails. -/
def execMootFlitData (l : Nat) (hdr : FlitHdr) (ctx : MootCtx) (offset : Nat) (data : List Byte) (s : State) : Res :=
  s.arrive l hdr 6 (mootCtx 1 ctx.pub ctx.level ctx.bslot offset) (.bytes data) (fun t => t.mootFlit hdr (fun u =>
    let g := hdr.vc - 4
    let key := streamKey ctx
    match (u.group g).streams.find key with
    | none => u
    | some m =>
      if 4 * offset = m.bytes.length then
        u.modGroup g (fun x => { x with streams := x.streams.set key { m with bytes := m.bytes ++ data } })
      else u))

/-! ### Lost members and ended operations -/

/-- A started Moot operation ended with a status: its M.CONTRIB is absent from the tree, its M.PUBLISH counts as completed (spec/14
R428). -/
def State.endMoot (s : State) (a c i : Nat) (r : MootRun) (st : Status) : State :=
  match r.phase with
  | .reading g b => (s.setPhase a c i (.done st)).contribute g b {}
  | .waitShard _ _ => s.setPhase a c i (.done st)
  | _ => s

/-- Every started Moot operation of a context ended with a status; their completions follow in order. -/
def State.endMoots (s : State) (a c : Nat) (st : Status) : State :=
  let rs := (s.ctx a c).moots
  ((rs.zip (List.range rs.length)).foldl (fun t e => t.endMoot a c e.2 e.1 st) s).settleMoots a c

/-- A context's Moot operations of a group that has lost a member: the started ones end with that, and those that wait in the queue
will (spec/14 R426). -/
def Ctx.loseMoots (x : Ctx) (g : Nat) : Ctx :=
  { x with
    moots := x.moots.map (fun (r : MootRun) => if r.q.mGroup = g then { r with phase := .done .memberLost } else r)
    mootQ := x.mootQ.map (fun (q : QOp) => if q.mGroup = g then { q with lost := true } else q) }

/-- A group slot becomes lost (spec/14 R426). -/
def State.loseGroup (s : State) (g : Nat) : State :=
  let a := s.mOwner g
  let s1 := (s.allotCores a).foldl (fun t c => (t.modCtx a c (fun x => x.loseMoots g)).settleMoots a c) s
  let s2 := (s1.group g).frames.foldl (fun t f => t.zeroRange (f * 0x200000) ((f + 1) * 0x200000)) s1
  (({ s2 with
      buckets := s2.buckets.drop (fun k => k / 256 == g), landingSlots := s2.landingSlots.drop (fun k => k / 256 == g) }).modGroup g
    (fun x => { x with comparator := none, verger := false, streams := [], early := [] })).setReg (0x4000 + g) 0x0A 3

/-- GROUP_LOST: a member's house has left the topology (spec/13 R397, spec/14 R426). -/
def execGroupLost (g house : Nat) (s : State) : Res :=
  let member := (List.range (s.mRanks g)).any (fun r => r != s.mRank g && s.memberHouse g r == house)
  if (s.mState g = 1 ∨ s.mState g = 2) ∧ member ∧ !s.reachable house then .next (s.loseGroup g) else .next s

/-! ### Definition (spec/14 R401 to R403) -/

/-- HBM pages that an allotment's .07 allows and that nothing uses: its mapped pages, its groups' reservations and its Larder pages
count (spec/10 R284, spec/14 R403). -/
def State.pagesUsed (s : State) (a : Nat) : Nat :=
  (s.hbmPages.filter (fun e => e.1 / 2 ^ 26 == a && !(decide (0x7E0000000000 ≤ e.1 % 2 ^ 26 * 0x200000) &&
    decide (e.1 % 2 ^ 26 * 0x200000 < 0x7F0000000000)))).length +
    128 * ((List.range 12).filter (fun g => s.mOwner g == a && s.mState g != 0)).length

/-- The number of the device's HBM frames (spec/09 R253). -/
def hbmFrames : Nat := 442368

/-- n free HBM frames, lowest first, beyond those that page quotas reserve; fuel is n. -/
def freeFrames (used : List Nat) : Nat → Nat → List Nat
  | 0, _ => []
  | n + 1, from' =>
    let f := lowestFree used from'
    if f < hbmFrames then f :: freeFrames used n (f + 1) else []

/-- Frames taken. -/
def State.useFrames (s : State) (fs : List Nat) : State := { s with hbmUsed := fs.foldl insertNat s.hbmUsed }

/-- Frames zeroed and given back (spec/09 R270). -/
def State.dropFrames (s : State) (fs : List Nat) : State :=
  let s1 := fs.foldl (fun t f => t.zeroRange (f * 0x200000) ((f + 1) * 0x200000)) s
  { s1 with hbmUsed := s1.hbmUsed.filter (fun f => !fs.contains f) }

/-- The fields of a group slot's apply: its objects and members with the values judged (spec/14 R401, spec/16 R472). -/
def State.groupFields (s : State) (sess g : Nat) : List (Nat × Nat × Nat) :=
  ((List.range 9).map (fun i => (0x4000 + g, i + 1))  ++
    (List.range 512).map (fun r => (0x4040 + 4 * g + r / 128, r % 128 + 1))).map
    (fun (e : Nat × Nat) => (e.1, e.2, s.applying sess e.1 e.2))

/-- Whether an allotment may write every page of a region of HBM. -/
def State.writableHbm (s : State) (a va len : Nat) : Bool :=
  decide (va + len ≤ loftVa) && s.transferCheck a [] [⟨va, len⟩] false == .ok

/-- Whether R402 refuses an apply whose fields take the values v. -/
def State.groupRefused (s : State) (g : Nat) (v : Nat → Nat) (members : List Nat) (changed : Bool) : Bool :=
  let a := v 1
  let n := v 2
  let houses := (members.take n).map (fun m => fld m 15 0)
  let takes := s.mState g = 0 || s.mOwner g != a
  if a = 0 then s.mState g == 2
  else
    s.reg (0x3100 + a) 0x01 == 0 || (decide (1 < n) && s.reg (0x3100 + a) 0x0F == 0xFFFF) || decide (n ≤ v 3) ||
      fld (members.getD (v 3) 0xFFFF) 15 0 != s.house || houses.contains 0xFFFF || !houses.Nodup ||
      (s.mState g == 2 && changed) || !s.writableHbm a (v 7) (v 8 * 4194304) || !s.writableHbm a (v 9) 65536 ||
      (takes && (decide (s.reg (0x3100 + a) 0x07 < s.pagesUsed a + 128) || decide ((freeFrames s.hbmUsed 128 0).length < 128)))

/-- MOOT_GROUP_APPLY's effect and status (spec/14 R402, R403, R426). -/
def State.applyGroup (s : State) (sess g : Nat) : State × Status :=
  let fs := s.groupFields sess g
  let v := fun i => s.applying sess (0x4000 + g) i
  let members := (List.range 512).map (fun r => s.applying sess (0x4040 + 4 * g + r / 128) (r % 128 + 1))
  let changed := fs.any (fun e => s.reg e.1 e.2.1 != e.2.2 && !(e.1 == 0x4000 + g && e.2.1 == 4))
  if !s.mayApply sess (0x4000 + g) 0x0E || decide (12 ≤ g) then (s, .accessDenied)
  else if s.groupRefused g v members changed then s.refuseApply sess (0x4000 + g) 0x0E .accessDenied
  else
    let keep := s.mState g != 0 && s.mOwner g == v 1 && v 1 != 0
    let s1 := if keep then s else (s.dropFrames (s.group g).frames).modGroup g (fun x => { x with frames := [] })
    let s2 := s1.takeFields sess (0x4000 + g) 0x0E fs
    let s3 := if v 1 = 0 ∨ keep then s2
      else
        let frames := freeFrames s2.hbmUsed 128 0
        (s2.useFrames frames).modGroup g (fun x => { x with frames := frames })
    if s.mState g = 2 then (s3, .ok)
    else ((s3.modGroup g (fun x => { x with opened := [], streams := [], early := [] })).setReg (0x4000 + g) 0x0A
      (if v 1 = 0 then 0 else 1), .ok)

/-- MOOT_GROUP_APPLY. -/
def execMootGroupApply (sess g : Nat) (s : State) : Res :=
  s.rowOf sess (0x4000 + g) 0x0E (State.wrote (s.applyGroup sess g) sess (0x4000 + g) 0x0E)

end Sys2Proof.Machine
end

