-- ==== Sys2Proof/Machine/Fabric.lean ====
section
/-! DEFINITION. The fabric: bring-up of links, hellos, topology and house numbers, transfers between devices, lost links and houses, and
the fabric objects (spec/13). -/

namespace Sys2Proof.Machine

/-! ### Topology and numbering (spec/13 R383 to R386) -/

/-- The house mode in force: 0 automatic, 1 operator. -/
def State.houseMode (s : State) : Nat := s.reg 0x2100 0x01

/-- This device's topology entry. -/
def State.ownEntry (s : State) : TopoEntry :=
  { digest := s.digest, house := s.house, epoch := s.reg 0x2100 0x07
    links := s.upLinks.map (fun l =>
      ({ link := l, neighbour := s.nbrDigest l, neighbourLink := s.reg (0x2110 + l) 0x04 } : TopoLink))
    assign := [] }

/-- A TOPOLOGY flit. -/
def State.topologyFlit (s : State) (e : TopoEntry) : Flit :=
  { kind := 2, vc := 0, dest := 0x1FF, src := s.house % 512, household := 0xFFFF, body := .topology e }

/-- An entry sent on links. -/
def State.flood (s : State) (e : TopoEntry) (ls : List Nat) : State := ls.foldl (fun t l => t.sendOn l (s.topologyFlit e)) s

/-- This device's entry sent on every UP link under a new epoch. -/
def State.announce (s : State) : State :=
  let s1 := s.setReg 0x2100 0x07 ((s.reg 0x2100 0x07 + 1) % 2 ^ 32)
  s1.flood s1.ownEntry s1.upLinks

/-- The nodes next to a node in ascending order of its link numbers. -/
def State.orderedNbrs (s : State) (n : Nat) : List Nat :=
  if n = 0 then s.ownEdges.map Prod.snd
  else match s.topo[n - 1]? with
    | none => []
    | some e => (List.range 64).flatMap (fun l => (e.links.filter (fun k => k.link == l)).filterMap (fun k => s.nodeOf k.neighbour))

/-- A breadth-first visit from this device: the nodes in the order of their first visit (spec/13 R384). -/
def State.visit (s : State) : Nat → List Nat → List Nat → List Nat
  | 0, _, seen => seen
  | _ + 1, [], seen => seen
  | fuel + 1, n :: queue, seen =>
    let fresh := ((s.orderedNbrs n).filter (fun m => !seen.contains m)).foldl
      (fun acc m => if acc.contains m then acc else acc ++ [m]) []
    s.visit fuel (queue ++ fresh) (seen ++ fresh)

/-- The house numbers in the topology, this device's included. -/
def State.houses (s : State) : List Nat := (List.range s.nodes).map s.nodeHouse

/-- The lowest house number below 512 that a list does not hold. -/
def freeHouse (used : List Nat) : Option Nat := (List.range 512).find? (fun h => !used.contains h)

/-- The entry of a node that has no number. -/
def State.unnumbered (s : State) (n : Nat) : Option TopoEntry := if s.nodeHouse n = 0xFFFF then s.topo[n - 1]? else none

/-- The numbers given so far as (digest, number) and the numbers in use, after a node: without a number it takes the lowest free one. -/
def State.assignOne (s : State) (acc : List (Nat × Nat) × List Nat) (n : Nat) : List (Nat × Nat) × List Nat :=
  match s.unnumbered n, freeHouse acc.2 with
  | some e, some h => (acc.1 ++ [(e.digest, h)], h :: acc.2)
  | _, _ => acc

/-- The numbers that the authority gives: each unnumbered device of the visit takes the lowest free number. -/
def State.assignments (s : State) (nodes used : List Nat) : List (Nat × Nat) := (nodes.foldl s.assignOne ([], used)).1

/-- Whether a link carries the management channel in HELLO, UP or HELD. -/
def State.speaks (s : State) (l : Nat) : Bool := decide (2 ≤ s.linkState l ∧ s.linkState l ≤ 4)

/-- Entries of devices that no longer have a path leave; those received over a link that is not UP yet wait for their path (spec/13
R383). -/
def State.pruneTopo (s : State) : State :=
  let all : State := { s with topo := s.topo ++ s.topoWait.map Prod.snd }
  let d := all.distances 0
  let has := fun (i : Nat) => (d.getD (i + 1) none).isSome
  let m := s.topo.length
  { s with
    topo := ((all.topo.zip (List.range all.topo.length)).filter (fun e => has e.2)).map Prod.fst
    topoWait := ((s.topoWait.zip (List.range s.topoWait.length)).filter (fun e => !has (m + e.2) && s.speaks e.1.1)).map Prod.fst }

/-- The smallest number of a list. -/
def least : List Nat → Option Nat
  | [] => none
  | h :: t => some (t.foldl min h)

/-- The authority's house: the lowest in the fabric; 0xFFFF while no device is numbered. -/
def State.authority (s : State) : Nat := (least (s.houses.filter (· < 512))).getD 0xFFFF

/-- Whether a link of this device is HELD because no number could be given (spec/13 R385). -/
def State.lacksNumber (s : State) : Bool := (List.range 64).any (fun l => (s.link l).noNumber)

/-- This device's own number (spec/13 R384, R385): the requested one in operator mode; 0 for the lowest digest of a fabric of which no
device is numbered, unless a full fabric lies beyond a link of it. -/
def State.numberSelf (s : State) : State :=
  if s.house ≠ 0xFFFF then s
  else if s.houseMode = 1 then s.setReg 0x2100 0x03 (s.reg 0x2100 0x02)
  else if !s.lacksNumber && !s.topo.isEmpty && s.houses.all (· == 0xFFFF) && s.topo.all (fun e => decide (s.digest < e.digest)) then s.setReg 0x2100 0x03 0
  else s

/-- Whether a device other than that of a digest holds a house number in this topology. -/
def State.houseTaken (s : State) (digest house : Nat) : Bool :=
  house != 0xFFFF && ((s.digest != digest && s.house == house) || s.topo.any (fun e => e.digest != digest && e.house == house))

/-- The number of a device as this one knows it: its own, the one of the last hello over a link, or the one of the entry held. -/
def State.knownHouse (s : State) (l digest : Nat) : Option Nat :=
  if digest = s.digest then some s.house
  else match (s.link l).nbr with
    | some h => if h.digest = digest then some h.house else (s.topo.find? (fun e => e.digest == digest)).map TopoEntry.house
    | none => (s.topo.find? (fun e => e.digest == digest)).map TopoEntry.house

/-- Whether a number held twice still holds a link: neither of its two devices is known to have another number; where two fabrics meet,
a device here has it (spec/13 R386, R400, log entry 98). -/
def State.clashes (s : State) (l : Nat) : Bool :=
  match (s.link l).clash with
  | none => false
  | some c => match c.rival with
    | none => s.houseTaken c.digest c.house
    | some r => [c.digest, r].all (fun d => ((s.knownHouse l d).map (· == c.house)).getD true)

/-- Another device of this topology that holds a number. -/
def State.rivalOf (s : State) (digest house : Nat) : Option Nat :=
  (((s.digest, s.house) :: s.topo.map (fun e => (e.digest, e.house))).find? (fun (e : Nat × Nat) =>
    house != 0xFFFF && e.1 != digest && e.2 == house)).map Prod.fst

/-- What two devices of this topology with one number make of a link: it is marked where this device or its neighbour is one of the two
(spec/13 R386). -/
def State.markClash (s : State) (l : Nat) : State :=
  let ends := (s.digest, s.house) :: (s.topo.filter (fun e => e.digest == s.nbrDigest l)).map (fun e => (e.digest, e.house))
  match ends.findSome? (fun (e : Nat × Nat) => (s.rivalOf e.1 e.2).map (fun r => ({ digest := e.1, house := e.2, rival := some r } : Clash))) with
  | some c => if (s.link l).nbr.isNone || (s.link l).clash == some c then s else s.modLink l (fun k => { k with clash := some c })
  | none => if (s.link l).clash.isSome && !s.clashes l then s.modLink l (fun k => { k with clash := none }) else s

/-- The reason that a link is held for under its neighbour's hello; 0 for none (spec/13 R382, R385, R386, R400). An unnumbered device,
which no longer sees the full fabric beyond its HELD links, keeps reason 3 (log entry 98). -/
def State.holdReason (s : State) (l : Nat) (h : Hello) : Nat :=
  let full := (freeHouse s.houses).isNone || (s.house == 0xFFFF && (s.link l).noNumber)
  if h.mode ≠ s.houseMode then 1
  else if s.houseTaken h.digest h.house ∨ s.clashes l then 2
  else if s.house ≠ 0xFFFF ∧ (s.topo.filter (fun e => e.digest != h.digest)).any (fun e => e.house == s.house) then 2
  else if full ∧ (h.house = 0xFFFF) ≠ (s.house = 0xFFFF) then 3
  else 0

/-- A link judged by its neighbour's last hello: HELLO and UP go to HELD, HELD returns to HELLO, and a HELD one shows the reason that holds
it now (spec/13 R382, R385, R386). -/
def State.judgeLink (s : State) (l : Nat) : State :=
  match (s.link l).nbr with
  | none => s
  | some h =>
    let r := s.holdReason l h
    let st := s.linkState l
    let s1 := if st < 2 ∨ 4 < st ∨ (s.link l).noNumber = (r == 3) then s else s.modLink l (fun k => { k with noNumber := r == 3 })
    if r ≠ 0 ∧ (st = 2 ∨ st = 3) then (s1.linkTo l 4).setReg (0x2110 + l) 0x09 r
    else if r = 0 ∧ st = 4 then (s1.linkTo l 2).setReg (0x2110 + l) 0x09 0
    else if st = 4 ∧ s.reg (0x2110 + l) 0x09 ≠ r then s1.setReg (0x2110 + l) 0x09 r
    else s1

/-- Every link judged by the topology held, and then the entries that no path leads to any more (spec/13 R383, R386). -/
def State.settleLinks (s : State) : State :=
  ((List.range 64).foldl State.judgeLink ((List.range 64).foldl State.markClash s)).pruneTopo

/-! ### Houses that leave (spec/13 R397) -/

/-- A fabric transfer of a core ends with a status: its T.COPY can complete. -/
def State.endXfer (s : State) (tag : Nat) (x : Xfer) (st : Status) : State :=
  let s1 := { s with xfers := s.xfers.set tag { x with phase := .closed s.timer } }
  match s1.ctx? x.allot x.core with
  | none => s1
  | some y =>
    s1.setCtx x.allot x.core
      { y with trowels := y.trowels.map (fun t => if t.xtag = some tag ∧ t.fabricDone.isNone then { t with fabricDone := some st } else t) }

/-- Transfers to houses without a path end with MEMBER_LOST, and flits for them leave the queues and the buffers that they lie in. -/
def State.dropDeparted (s : State) : State :=
  let s1 := s.xfers.foldl (fun t e => if e.2.phase = .opened ∧ !t.reachable e.2.house then t.endXfer e.1 e.2 .memberLost else t) s
  let stays := fun (w : WaitFlit) => w.link.isSome || s1.reachable w.flit.dest
  (s1.flitWait.filter (fun w => !stays w)).foldl (fun t w => w.held.elim t (fun h => t.owe h.1 h.2))
    { s1 with flitWait := s1.flitWait.filter stays }

/-- Whether a group slot has a member, not this device, at one of the houses. -/
def State.hasMember (s : State) (g : Nat) (houses : List Nat) : Bool :=
  (s.mState g == 1 || s.mState g == 2) &&
    (List.range (s.mRanks g)).any (fun r => r != s.mRank g && houses.contains (s.memberHouse g r))

/-- What the leaving of houses does: the groups that have a member there are lost (spec/14 R426), and what this device holds of their
transfers is forgotten. -/
def State.housesLeft (s : State) (houses : List Nat) : State :=
  let s1 := (List.range 12).foldl (fun t g => if t.hasMember g houses then t.loseGroup g else t) s
  { s1 with inbound := s1.inbound.drop (fun k => houses.contains (k / 1024)) }

/-- The houses of the devices in the topology beside this one. -/
def State.farHouses (s : State) : List Nat := (s.topo.map TopoEntry.house).filter (· != 0xFFFF)

/-- The fabric after a change of links or topology: holds, entries, numbers, routes (spec/13 R383 to R390, R397). The authority sends a
number in the entry of its new holder, under a higher epoch (R384). -/
def State.refabric (s : State) (linksChanged : Bool) : State :=
  let s2 := s.settleLinks.numberSelf
  let auth := s2.authority
  let given := if s2.house = auth ∧ auth ≠ 0xFFFF ∧ s2.houseMode = 0 then s2.assignments (s2.visit (s2.nodes + 1) [0] [0]) s2.houses else []
  let s3 : State := { s2 with topo := s2.topo.map (fun (e : TopoEntry) => match given.find? (fun p => p.1 == e.digest) with
    | some p => { e with house := p.2, epoch := e.epoch + 1, assign := [p] }
    | none => e) }
  let s4 := s3.settleLinks
  let full := (freeHouse s4.houses).isNone || s4.lacksNumber
  let s5 := ((s4.setReg 0x2100 0x05 s4.authority).setReg 0x2100 0x06 s4.nodes).setReg 0x2100 0x08
    (if s4.house ≠ 0xFFFF then 1 else if full then 2 else 0)
  let s6 := if linksChanged || s5.house != s.house || s5.upLinks != s.upLinks then s5.announce else s5
  let s7 := (s6.topo.filter (fun e => given.any (fun p => p.1 == e.digest))).foldl (fun t e => t.flood e t.upLinks) s6
  (s7.publishRoutes.dropDeparted.housesLeft (s.farHouses.filter (fun h => !s7.farHouses.contains h))).drainFlits

/-! ### Bring-up (spec/13 R381) -/

/-- The links may leave DARK once the boot has released them (spec/18 R523). -/
def State.linksReleased (s : State) : Bool := s.power == .running && decide (6 ≤ s.reg 0x1300 0x02) && decide (s.reg 0x1300 0x02 ≤ 7)

/-- Object .01 of a link (spec/13 R399). -/
def State.linkEnabled (s : State) (l : Nat) : Bool := s.reg (0x2110 + l) 0x01 != 0

/-- Whether a link that carries nothing can begin training: it is released, enabled, and has signal on both lanes. -/
def State.canTrain (s : State) (l : Nat) : Bool := decide s.linksReleased && s.linkEnabled l && (s.link l).signal

/-- A DARK link that can begins training. -/
def State.wakeLink (s : State) (l : Nat) : State := if s.linkState l = 0 ∧ s.canTrain l then s.linkTo l 1 else s

/-- LINK_SIGNAL_DETECT: a link has signal on both lanes; an enabled DARK one begins training. -/
def execLinkSignalDetect (l : Nat) (s : State) : Res :=
  if l < 64 then .next ((s.modLink l (fun k => { k with signal := true })).wakeLink l) else .next s

/-- LINK_FEC_LOCK: a training link reaches HELLO with the credits of the table Virtual channels. -/
def execLinkFecLock (l : Nat) (s : State) : Res :=
  if s.linkState l = 1 then
    .next ((s.setLink l { signal := true, since := s.timer, credit := fullCredit, heard := s.timer, helloAt := s.timer }).linkTo l 2)
  else .next s

/-- A link goes DOWN: what its replay buffer holds of VC1 to VC15 is sent again on other routes, what waits for it alone is lost, and its
neighbour is forgotten (spec/13 R396). signal: whether it still has signal. -/
def State.downLink (s : State) (l : Nat) (signal : Bool := (s.link l).signal) : State :=
  let again := (s.link l).replay.filterMap (fun x =>
    if x.flit.kind < 3 then none
    else some ({ since := s.timer, mayUp := x.flit.vc != 1 || x.mayUp, flit := x.flit } : WaitFlit))
  let wasUp := s.linkState l == 3
  let s1 := ((s.setLink l { signal := signal, since := s.timer }).setReg (0x2110 + l) 0x02 5)
  let s2 := (((s1.setReg (0x2110 + l) 0x03 0xFFFF).setReg (0x2110 + l) 0x04 0xFF).setReg (0x2110 + l) 0x05 0).setReg (0x2110 + l) 0x09 0
  let s3 : State := { s2 with flitWait := (s2.flitWait.filter (fun (w : WaitFlit) => w.link != some l)).map (fun (w : WaitFlit) =>
    match w.held with
    | some h => if h.1 = l then { w with held := none } else w
    | none => w) ++ again }
  s3.refabric wasUp

/-- TRAINING_TIMEOUT: a link that has not reached HELLO within 50 ms goes DOWN. -/
def execTrainingTimeout (l : Nat) (s : State) : Res :=
  if s.linkState l = 1 ∧ (s.link l).since + 50000000 ≤ s.timer then .next (s.downLink l) else .next s

/-- DOWN_RETRAIN_TIMER: 1 s after DOWN an enabled link with signal trains again; any other is DARK. -/
def execDownRetrainTimer (l : Nat) (s : State) : Res :=
  if s.linkState l = 5 ∧ (s.link l).since + 1000000000 ≤ s.timer then .next (s.linkTo l (if s.canTrain l then 1 else 0)) else .next s

/-- LINK_DOWN: FEC lock lost, three hellos missed, or a flit resent eight times. Where the lock is lost, signal has to be detected
anew (log entry 31). -/
def execLinkDown (l : Nat) (cause : DownCause) (s : State) : Res :=
  let k := s.link l
  let due : Bool := match cause with
    | .fecLost => true
    | .helloMissed => decide (k.heard + 30000 ≤ s.timer)
    | .resendFailed => k.replay.any (fun x => decide (8 ≤ x.resends))
  if 2 ≤ s.linkState l ∧ s.linkState l ≤ 4 ∧ due then .next (s.downLink l ((s.link l).signal && cause != .fecLost)) else .next s

/-! ### Hellos and topologies -/

/-- HELLO_TIMER: every 10 µs a link that carries VC0 sends a HELLO (spec/13 R382). -/
def execHelloTimer (l : Nat) (s : State) : Res :=
  if s.carries l 0 ∧ (s.link l).helloAt + 10000 ≤ s.timer then
    .next ((s.modLink l (fun k => { k with helloAt := s.timer })).sendOn l
      { kind := 1, vc := 0, dest := 0x1FF, src := s.house % 512, household := 0xFFFF
        body := .hello { digest := s.digest, house := s.house, mode := s.houseMode, link := l, epoch := s.reg 0x2100 0x07 } })
  else .next s

/-- HELLO_RECEIVE: the neighbour's hello is kept and checked; a link in HELLO goes UP when nothing holds it. -/
def execHelloReceive (l : Nat) (hdr : FlitHdr) (body : Hello) (s : State) : Res :=
  s.arrive l hdr 1 0 (.hello body) (fun t =>
    let t1 := ((t.modLink l (fun k => { k with nbr := some body, heard := t.timer })).setReg (0x2110 + l) 0x03 body.house)
    let t2 := (t1.setReg (0x2110 + l) 0x04 body.link).setReg (0x2110 + l) 0x05 body.digest
    if t2.holdReason l body = 0 ∧ t2.linkState l = 2 then (t2.linkTo l 3).refabric true
    else if t2.linkState l = 3 ∧ t2.holdReason l body ≠ 0 then (t2.judgeLink l).refabric true
    else t2.judgeLink l)

/-- The entry held of a digest, with a path or waiting for one. -/
def State.topoEntryOf (s : State) (digest : Nat) : Option TopoEntry :=
  (s.topo ++ s.topoWait.map Prod.snd).find? (fun e => e.digest == digest)

/-- An entry put in place of the one held. One of a device that no path leads to yet waits for the link that it came over (spec/13
R383). -/
def State.putEntry (s : State) (l : Nat) (e : TopoEntry) : State :=
  let s1 : State := { s with
    topo := s.topo.filter (fun (x : TopoEntry) => x.digest != e.digest) ++ [e]
    topoWait := s.topoWait.filter (fun (x : Nat × TopoEntry) => x.2.digest != e.digest) }
  if s.topo.any (fun x => x.digest == e.digest) || ((s1.distances 0).getD s1.topo.length none).isSome then s1
  else { s1 with topo := s.topo, topoWait := s1.topoWait ++ [(l, e)] }

/-- A number that the authority has given to this device while it has none: it becomes its own, under an epoch above that of the entry
that brings it (spec/13 R384). -/
def State.takeNumber (s : State) (e : TopoEntry) : State :=
  match e.assign.find? (fun p => p.1 == s.digest) with
  | none => s
  | some p =>
    if s.house = 0xFFFF ∧ s.houseMode = 0 then (s.setReg 0x2100 0x03 p.2).setReg 0x2100 0x07 (max (s.reg 0x2100 0x07) e.epoch) else s

/-- TOPOLOGY_RECEIVE: an entry of a higher epoch replaces the one held, goes on to every other UP link, and the routes follow; a number
assigned to this device while it is unnumbered becomes its own (spec/13 R383, R384). Where the devices number themselves, an entry of a
device not known before that lies beyond the neighbour and whose house another device of this fabric holds joins two fabrics: its link
is HELD, and it is not taken (R386, R400, log entry 98). A neighbour that sends entries holds the link no longer (R385). -/
def execTopologyReceive (l : Nat) (hdr : FlitHdr) (entry : TopoEntry) (s : State) : Res :=
  s.arrive l hdr 2 0 (.topology entry) (fun t0 =>
    let t := if (t0.link l).noNumber then t0.modLink l (fun k => { k with noNumber := false }) else t0
    let held := t.topoEntryOf entry.digest
    let newer := match held with
      | none => true
      | some e => decide (e.epoch < entry.epoch)
    if entry.digest = t.digest then
      (let t1 := t.takeNumber entry
       if t1.house = t.house then t else t1.refabric true)
    else if !newer then t
    else if held.isNone ∧ t.houseMode = 0 ∧ entry.digest ≠ t.nbrDigest l ∧ t.houseTaken entry.digest entry.house then
      ((t.modLink l (fun k => { k with clash := some { digest := entry.digest, house := entry.house } })).judgeLink l).refabric true
    else
      let t1 := (t.putEntry l entry).takeNumber entry
      (t1.flood entry (t1.upLinks.filter (· != l))).refabric (t1.house != t.house))

/-! ### Transfers (spec/13 R392 to R395) -/

/-- The allotment and the base of the receive window that a household's flits go to. -/
def State.receiveWindow (s : State) (h : Nat) : Option (Nat × Nat) :=
  match s.householdAllot h with
  | none => none
  | some a => let b := s.reg 0x2190 a; if a = 0 ∨ b = 0 then none else some (a, b)

/-- The key of an inbound transfer: its source house and its tag. -/
def inKey (src xtag : Nat) : Nat := src * 1024 + xtag

/-- The inbound transfer that a flit belongs to: a new one when none is held under its generation; none when it belongs to one that has
been closed (spec/13 R395). -/
def State.inboundOf (s : State) (src xtag : Nat) (gen : Bool) (household : Nat) : Option Inbound :=
  match s.inbound.find (inKey src xtag) with
  | some x =>
    if x.gen = gen then (if x.closed then none else some x)
    else if x.closed then some { gen := gen, household := household, otherClosed := true }
    else if x.otherClosed then none
    else some { gen := gen, household := household }
  | none => some { gen := gen, household := household }

/-- An inbound transfer whose bytes have all come: its mark is incremented, unless its ward is held, and its DONE is sent. -/
def State.settleInbound (s : State) (src xtag : Nat) : State :=
  match s.inbound.find (inKey src xtag) with
  | none => s
  | some x =>
    let sum := (x.seen.map Prod.snd).foldl (· + ·) 0
    match x.total with
    | none => s
    | some n =>
      let win := s.receiveWindow x.household
      let core := match win, x.mark with
        | some w, some m => s.coreAt w.1 m.1
        | _, _ => none
      let held := match core with
        | some c => s.wardHeld (c / 32)
        | none => false
      if x.closed || decide (sum < n) || held then s
      else
        let s1 := match win, core, x.mark with
          | some w, some c, some m => s.modCtx w.1 c (fun y => y.bumpMark (some m.2))
          | _, _, _ => s
        let st : Status := if win.isNone then .accessDenied else x.status
        ({ s1 with inbound := s1.inbound.set (inKey src xtag) { x with closed := true, seen := [] } }).sendFlits
          [{ kind := 5, vc := 3, dest := src, src := s1.house, household := x.household
             ctx := xtag * 2 ^ 36 + b2n x.gen * 2 ^ 35, body := .done st }]

/-- A message whose household or window is missing is dropped and logged (spec/10 R304). -/
def State.logDropped (s : State) (src : Nat) : State := s.logDrop src 0

/-- OPEN_FLIT: the total and the mark of a transfer. -/
def execOpenFlit (l : Nat) (hdr : FlitHdr) (xtag : Nat) (gen : Bool) (total : Nat) (markAt : Option (Nat × Nat)) (s : State) : Res :=
  s.arrive l hdr 3 (xtag * 2 ^ 36 + b2n gen * 2 ^ 35) (.openX total markAt) (fun t =>
    match t.inboundOf hdr.src xtag gen hdr.household with
    | none => t
    | some x =>
      let t1 := if (t.receiveWindow hdr.household).isNone then t.logDropped hdr.src else t
      ({ t1 with inbound := t1.inbound.set (inKey hdr.src xtag) { x with total := some total, mark := markAt } }).settleInbound hdr.src xtag)

/-- DATA_FLIT: its bytes are checked and written to the receive window, and its OFFSET is counted once. -/
def execDataFlit (l : Nat) (hdr : FlitHdr) (xtag : Nat) (gen : Bool) (offset : Nat) (data : List Byte) (s : State) : Res :=
  s.arrive l hdr 4 (xtag * 2 ^ 36 + b2n gen * 2 ^ 35 + offset) (.bytes data) (fun t =>
    match t.inboundOf hdr.src xtag gen hdr.household with
    | none => t
    | some x =>
      let seen := if x.seen.any (fun e => e.1 == offset) then x.seen else x.seen ++ [(offset, data.length)]
      let keep := fun (u : State) (st : Status) =>
        ({ u with inbound := u.inbound.set (inKey hdr.src xtag) { x with seen := seen, status := stPick x.status st } }).settleInbound
          hdr.src xtag
      match t.receiveWindow hdr.household with
      | none => keep (t.logDropped hdr.src) .accessDenied
      | some w =>
        match t.transferCheck w.1 [] [⟨w.2 + offset, data.length⟩] false with
        | .ok => keep (t.writeVa w.1 (w.2 + offset) data) .ok
        | st => keep t st)

/-- Whether a DONE closes an open transfer: of its tag, its generation and the house it comes from, of the allotment that holds its
household (spec/10 R304, spec/13 R394). -/
def State.doneFor (s : State) (hdr : FlitHdr) (gen : Bool) (x : Xfer) : Bool :=
  s.reg (0x3100 + x.allot) 0x0F == hdr.household && x.phase == .opened && x.gen == gen && x.house == hdr.src

/-- DONE_FLIT: the T.COPY whose transfer it closes can complete with its status. One whose household no local allotment holds is dropped and
logged (spec/10 R304). -/
def execDoneFlit (l : Nat) (hdr : FlitHdr) (xtag : Nat) (gen : Bool) (status : Status) (s : State) : Res :=
  s.arrive l hdr 5 (xtag * 2 ^ 36 + b2n gen * 2 ^ 35) (.done status) (fun t =>
    match (t.xfers.find xtag).filter (t.doneFor hdr gen) with
    | some x => t.endXfer xtag x status
    | none => if (t.householdAllot hdr.household).isNone then t.logDropped hdr.src else t)

/-- TRANSFER_TAG_REUSE: 1 ms after the DONE that closed it, a tag is free again under the other generation. -/
def execTransferTagReuse (xtag : Nat) (s : State) : Res :=
  match s.xfers.find xtag with
  | none => .next s
  | some x => match x.phase with
    | .closed t =>
      if t + 1000000 ≤ s.timer then .next { s with xfers := s.xfers.set xtag { x with phase := .free, gen := !x.gen } } else .next s
    | _ => .next s

/-! ### Other flits and timers -/

/-- IDLE_FLIT: it returns credits and acknowledges. -/
def execIdleFlit (l : Nat) (hdr : FlitHdr) (s : State) : Res := s.arrive l hdr 0 0 .none id

/-- FLIT_BAD: a flit whose check fails is discarded; ACK stays at its number. An uncorrectable codeword is counted (spec/13 R377,
R399). -/
def execFlitBad (l : Nat) (uncorrectable : Bool) (s : State) : Res :=
  .next (if uncorrectable then s.bumpReg (0x2110 + l) 0x07 1 else s)

/-- FLIT_RESERVED: acknowledged, discarded and logged (spec/13 R379). -/
def execFlitReserved (l : Nat) (hdr : FlitHdr) (s : State) : Res :=
  match s.linkTake l hdr 7 with
  | none => .next (s.linkStray l hdr 7)
  | some t => .next (((t.owe l hdr.vc).logDropped hdr.src).drainFlits)

/-- 16 flit times of 5.12 ns, in whole nanoseconds (spec/13 R375, R377). -/
def replayTime : Nat := 82

/-- REPLAY_TIMEOUT: with ACK unchanged for 16 flit times, every flit from ACK onward is sent again, in order (spec/13 R377). -/
def execReplayTimeout (l : Nat) (s : State) : Res :=
  let k := s.link l
  if k.replay.isEmpty ∨ !s.carries l 0 ∨ s.timer < k.ackAt + replayTime then .next s else .next (s.resend l)

/-- ESCAPE_TIMEOUT: a flit that has waited 2 µs on VC2 or VC3 moves to VC1, where its escape route begins (spec/13 R388). -/
def execEscapeTimeout (index : Nat) (s : State) : Res :=
  match s.flitWait[index]? with
  | none => .next s
  | some w =>
    if (w.flit.vc = 2 ∨ w.flit.vc = 3) ∧ w.since + 2000 ≤ s.timer ∧ (s.flitLink w).isNone then
      .next ({ s with flitWait := s.flitWait.set index { w with mayUp := true, flit := { w.flit with vc := 1 } } }).drainFlits
    else .next s

/-! ### Fabric objects (spec/13 R399) -/

/-- FABRIC_APPLY's effect and status. -/
def State.applyFabric (s : State) (sess : Nat) : State × Status :=
  let inUse := (List.range 256).any (fun n => s.reg (0x3100 + n) 0x01 != 0 && s.reg (0x3100 + n) 0x0F != 0xFFFF)
  if !s.mayApply sess 0x2100 0x09 then (s, .accessDenied)
  else if inUse then s.refuseApply sess 0x2100 0x09 .accessDenied
  else
    let v := fun i => s.applying sess 0x2100 i
    let s1 := s.takeFields sess 0x2100 0x09 [(0x2100, 1, v 1), (0x2100, 2, v 2), (0x2100, 4, v 4)]
    let s2 := if v 1 = 1 then s1.setReg 0x2100 0x03 (v 2) else s1
    (s2.refabric (s2.house != s.house || s2.houseMode != s.houseMode), .ok)

/-- FABRIC_APPLY (spec/13 R385, R399). -/
def execFabricApply (sess : Nat) (s : State) : Res :=
  s.rowOf sess 0x2100 0x09 (State.wrote (s.applyFabric sess) sess 0x2100 0x09)

/-- ROUTES_APPLY's effect and status (spec/13 R390). -/
def State.applyRoutes (s : State) (sess : Nat) : State × Status :=
  if !s.mayApply sess 0x2184 0x01 then (s, .accessDenied)
  else
    let pend : Tbl Nat := match s.session sess with
      | none => []
      | some x => x.pend.filter (fun (e : Nat × Nat) => decide (0x2180 ≤ e.1 / 256) && decide (e.1 / 256 < 0x2184))
    let s1 := pend.foldl (fun (t : State) (e : Nat × Nat) =>
      { t with
        routes := t.routes.set ((e.1 / 256 - 0x2180) * 128 + e.1 % 256 - 1) e.2
        flashWait := t.flashWait ++ [(e.1, e.2, t.timer + 100000000)] }) s
    ((s1.dropPend sess 0x2184 0x01).publishRoutes.drainFlits, .ok)

/-- ROUTES_APPLY (spec/13 R390). -/
def execRoutesApply (sess : Nat) (s : State) : Res :=
  s.rowOf sess 0x2184 0x01 (State.wrote (s.applyRoutes sess) sess 0x2184 0x01)

/-- LINK_RETRAIN's effect and status (spec/13 R396). -/
def State.retrain (s : State) (sess l : Nat) : State × Status :=
  if !s.mayApply sess (0x2110 + l) 0x0A || decide (64 ≤ l) then (s, .accessDenied)
  else if s.linkState l ≤ 4 then (s.downLink l, .ok)
  else (s, .ok)

/-- LINK_RETRAIN (spec/13 R396). -/
def execLinkRetrain (sess l : Nat) (s : State) : Res :=
  s.rowOf sess (0x2110 + l) 0x0A (State.wrote (s.retrain sess l) sess (0x2110 + l) 0x0A)

/-- LINK_ENABLE_WRITE's effect, status and value: clearing Enable takes a link DOWN unless it is DARK, and setting it lets a DARK link
with signal train (spec/13 R381, R396). -/
def State.writeEnable (s : State) (sess l v : Nat) : State × Status × Nat :=
  let r := s.writeObject sess (0x2110 + l) 0x01 v
  if 64 ≤ l then (s, .accessDenied, 0)
  else if r.2.1 = .accessDenied ∨ r.2.1 = .shapeMismatch then r
  else if r.2.2 ≠ 0 then (r.1.wakeLink l, r.2.1, r.2.2)
  else if 1 ≤ s.linkState l ∧ s.linkState l ≤ 4 then (r.1.downLink l, r.2.1, r.2.2)
  else r

/-- LINK_ENABLE_WRITE (spec/13 R381, R396). -/
def execLinkEnableWrite (sess l : Nat) (v : Byte) (s : State) : Res :=
  let r := s.writeEnable sess l v.toNat
  s.rowOf sess (0x2110 + l) 0x01 (State.wrote (r.1, r.2.1) sess (0x2110 + l) 0x01)

end Sys2Proof.Machine
end

