-- ==== Sys2Proof/Machine/Flags.lean ====
section
/-! DEFINITION. The results and conditions that Ganger instructions compute (spec/08 R234, spec/07 R212). The Ganger
has no flags register; a compare writes 0 or 1, and a branch computes its condition. -/

namespace Sys2Proof.Machine

/-- The result of G.ALU (spec/08 R234): 64-bit, wrapping; shifts use the low six bits of the second operand. -/
def aluResult (fn : AluFn) (a b : W64) : W64 :=
  match fn with
  | .add => a + b
  | .sub => a - b
  | .and => a &&& b
  | .or => a ||| b
  | .xor => a ^^^ b
  | .sll => a <<< (b.toNat % 64)
  | .srl => a >>> (b.toNat % 64)
  | .sra => a.sshiftRight (b.toNat % 64)
  | .slt => if a.slt b then 1 else 0
  | .sltu => if a.ult b then 1 else 0
  | .mul => a * b

/-- The result of G.SHI (spec/08 R234). -/
def shiftResult (k : ShKind) (a : W64) (n : Nat) : W64 :=
  match k with
  | .sll => a <<< n
  | .srl => a >>> n
  | .sra => a.sshiftRight n

/-- The condition of G.B.cc (spec/08 R234). -/
def ccHolds (cc : Cc) (a b : W64) : Bool :=
  match cc with
  | .eq => a == b
  | .ne => a != b
  | .lt => a.slt b
  | .ge => !a.slt b
  | .ltu => a.ult b
  | .geu => !a.ult b

/-- The condition of G.WAIT (spec/07 R212): (counter - v) mod 2^32 is below 2^31. -/
def waitOver (counter v : W32) : Bool := decide ((counter - v).toNat < 2 ^ 31)

/-- The 16-bit lane of a register replaced (spec/08 R234, G.MOVK). -/
def movkResult (old : W64) (lane : Nat) (imm : W16) : W64 :=
  BitVec.ofNat 64 (old.toNat - fld old.toNat (16 * lane + 15) (16 * lane) * 2 ^ (16 * lane) + imm.toNat * 2 ^ (16 * lane))

end Sys2Proof.Machine
end

