-- ==== Sys2Proof/Machine/Ganger.lean ====
section
/-! DEFINITION. The Ganger's instructions (spec/07, section The Ganger; spec/08 R234 to R237). -/

namespace Sys2Proof.Machine

/-! ### Shared operations -/

/-- A scalar result written and the program moved on by one word. -/
def State.gWrite (s : State) (a c : Nat) (x : Ctx) (rd : Reg) (v : W64) : State :=
  s.moveOn a c (x.setS rd v) (x.pc + 4)

/-- The effective address of a load or store of n bytes: the low bits below the size ignored (spec/07 R199). -/
def gAddress (x : Ctx) (ra : Reg) (off : W16) (n : Nat) : Nat := (x.s ra + off.signExtend 64).toNat / n * n

/-- What a Ganger access of n bytes meets (spec/07 R199, spec/09 R263). -/
inductive Access where
  | ok
  | outside
  | frozen
  | wait
  deriving DecidableEq, Repr

/-- The check of a Ganger access to the allotment's Loft pages on the core's own slice. A store to a page without W is
outside them (log entry 15). -/
def State.gAccess (s : State) (a c va : Nat) (store : Bool) : Access :=
  if va < loftVa ∨ 2 ^ 48 ≤ va then .outside
  else match s.loftPlace a va with
    | none => .outside
    | some (k, _) =>
      if k ≠ c then .outside
      else match s.pageOf a va with
        | none => .outside
        | some d =>
          if d.spilled then .wait
          else if store then
            (if d.draw then .outside else if d.frozen then .frozen else if d.w then .ok else .outside)
          else if !d.r || d.draw then .outside
          else .ok

/-- The Ganger halts on a poisoned word that a load reads (spec/10 R311). -/
def State.gPoison (s : State) (a c : Nat) (x : Ctx) (va : Nat) : State :=
  ((s.setCtx a c ((x.note .ganger .passAbortedFault (x.nextIndex .ganger)).takeIndex .ganger)).takeFault a c .ganger .poison va
    (x.nextIndex .ganger))

/-- A load of n bytes, zero-extended (spec/08 R234, spec/07 R199), its address translated by the core's Trowel (spec/09 R261). -/
def State.gLoad (s : State) (a c : Nat) (x : Ctx) (rd ra : Reg) (off : W16) (n : Nat) : State :=
  let va := gAddress x ra off n
  let u := s.translateVa a c va n
  match s.gAccess a c va false with
  | .wait => s
  | .ok =>
    if s.poisonedVa a va n then u.gPoison a c x va
    else u.gWrite a c x rd (BitVec.ofNat 64 (ofLe (s.readVa a va n)))
  | _ => u.selfHalt a c .accessDenied

/-- A tag-map entry's 32 bytes as a number, and whether it is valid and well formed (spec/10 R301). -/
def tagMapBad (w : Nat) : Bool := fld w 255 176 != 0 || fld w 95 64 != 0 || fld w 47 1 != 0

/-- The entry that 32 bytes describe. -/
def tagMapEnt (w : Nat) : TagMapEnt :=
  { base := fld w 175 128, pitch := fld w 127 112, rows := fld w 111 96 + 1, first := fld w 63 48 }

/-- The roster slots of an allotment (spec/10 R284, R296). -/
def State.rosterSlots (s : State) (a : Nat) : Nat :=
  if s.isGreen a then s.reg 0x3000 0x02 else s.reg (0x3100 + a) 0x11

/-- Whether the entry i with the 32 bytes w is refused (spec/10 R301). -/
def State.tagMapRefused (s : State) (a c : Nat) (x : Ctx) (i w : Nat) : Bool :=
  let e := tagMapEnt w
  let win := windowVa (s.coreIndex a c)
  tagMapBad w || (bitAt w 0 &&
    (e.pitch == 0 || decide (e.base < win) || decide (win + windowSize < e.base + e.pitch * e.rows) ||
      x.tagMap.any (fun o => o.1 != i && decide (o.2.base < e.base + e.pitch * e.rows) &&
        decide (e.base < o.2.base + o.2.pitch * o.2.rows)) ||
      decide (s.rosterSlots a < e.first + e.rows)))

/-- The 32 bytes of tag-map entry i as they would stand after a store of bytes at an address. -/
def State.tagMapWord (s : State) (a c i va : Nat) (bs : List Byte) : Nat :=
  let base := windowVa (s.coreIndex a c) + 0x81800 + 32 * i
  let old := s.readVa a base 32
  ofLe (old.take (va - base) ++ bs ++ old.drop (va - base + bs.length))

/-- The tag-map entry whose word that holds VALID an access touches (spec/10 R289, R301). -/
def State.tagMapHit (s : State) (a c va : Nat) : Option Nat :=
  let lo := windowVa (s.coreIndex a c) + 0x81800
  if lo ≤ va ∧ va < lo + 256 ∧ (va - lo) % 32 < 8 then some ((va - lo) / 32) else none

/-- A tag-map entry put in force, or removed when VALID is 0. -/
def Ctx.setTagMap (x : Ctx) (i w : Nat) : Ctx :=
  { x with tagMap := if bitAt w 0 then x.tagMap.set i (tagMapEnt w) else x.tagMap.erase i }

/-- A dropped store, counted in the Ganger's register (spec/07 R199, R224, spec/10 R301); the program goes on. -/
def State.gDrop (s : State) (a c : Nat) (x : Ctx) (st : Status) : State :=
  s.moveOn a c (x.note .ganger st (x.nextIndex .ganger)) (x.pc + 4)

/-- A store of n bytes (spec/07 R199, R200, R224; spec/10 R301), its address translated by the core's Trowel (spec/09 R261). -/
def State.gStore (s : State) (a c : Nat) (x : Ctx) (rs ra : Reg) (off : W16) (n : Nat) : State :=
  let va := gAddress x ra off n
  let u := s.translateVa a c va n
  match s.gAccess a c va true with
  | .wait => s
  | .outside => u.selfHalt a c .accessDenied
  | .frozen => u.gDrop a c x .frozenTarget
  | .ok =>
    if x.checked &&
        rngsMeet [vaRng va n] ((engines.flatMap x.started).flatMap Footprint.reads) then
      (u.gDrop a c x .hazard).noteHazard a c
    else
      let bs := leBytes n (x.s rs).toNat
      match s.tagMapHit a c va with
      | none => (u.writeVa a va bs).moveOn a c x (x.pc + 4)
      | some i =>
        let w := s.tagMapWord a c i va bs
        if s.tagMapRefused a c x i w then u.gDrop a c x .shapeMismatch
        else if s.isGreen a then u.setCtx a c { x with tagStore := some (i * 2 ^ 256 + w) }
        else (u.writeVa a va bs).moveOn a c (x.setTagMap i w) (x.pc + 4)

/-- Whether an offset lies in a loop's body. -/
def HwLoop.holds (l : HwLoop) (pc : Nat) : Bool := decide (l.body ≤ pc) && decide (pc < l.stop)

/-- The end of the block that holds an offset of streamed code. -/
def blockSpan (iq : List SBlock) (pc : Nat) : Option (Nat × Nat) :=
  (iq.find? (fun b => decide (b.base ≤ pc) && decide (pc < b.base + b.bytes.length))).map
    (fun b => (b.base, b.base + b.bytes.length))

/-- Whether a branch from the fetch position to a target is illegal (spec/07 R229, R193). -/
def Ctx.branchIllegal (x : Ctx) (target : Int) : Bool :=
  x.loops.any (fun l => l.holds x.pc != (decide (0 ≤ target) && l.holds target.toNat)) ||
    (match x.src with
      | .bank _ => false
      | .queue => match blockSpan x.iq x.pc with
        | none => true
        | some (lo, hi) => !(decide ((lo : Int) ≤ target) && decide (target < (hi : Int))))

/-- A branch taken (spec/07 R194, R229). A target below offset 0 of a bank lies past every image (log entry 16). -/
def State.gBranch (s : State) (a c : Nat) (x : Ctx) (words : Int) : State :=
  let target := (x.pc : Int) + 4 * words
  if x.branchIllegal target then s.hang a c
  else
    let pc := if target < 0 then 0x40000 else target.toNat
    let x1 := { x.takeIndex .ganger with pc := pc }
    (s.setCtx a c x1).endBlocks a c x1.iq.length

/-! ### Arithmetic and logic (spec/08 R234) -/

/-- G.ALU. -/
def execGAlu (core : Nat) (rd ra rb : Reg) (fn : AluFn) (s : State) : Res :=
  s.ganger core (.gAlu core rd ra rb fn) (fun a x => s.gWrite a core x rd (aluResult fn (x.s ra) (x.s rb)))

/-- G.ADDI. -/
def execGAddi (core : Nat) (rd ra : Reg) (imm : W16) (s : State) : Res :=
  s.ganger core (.gAddi core rd ra imm) (fun a x => s.gWrite a core x rd (x.s ra + imm.signExtend 64))

/-- G.ANDI. -/
def execGAndi (core : Nat) (rd ra : Reg) (imm : W16) (s : State) : Res :=
  s.ganger core (.gAndi core rd ra imm) (fun a x => s.gWrite a core x rd (x.s ra &&& imm.zeroExtend 64))

/-- G.ORI. -/
def execGOri (core : Nat) (rd ra : Reg) (imm : W16) (s : State) : Res :=
  s.ganger core (.gOri core rd ra imm) (fun a x => s.gWrite a core x rd (x.s ra ||| imm.zeroExtend 64))

/-- G.XORI. -/
def execGXori (core : Nat) (rd ra : Reg) (imm : W16) (s : State) : Res :=
  s.ganger core (.gXori core rd ra imm) (fun a x => s.gWrite a core x rd (x.s ra ^^^ imm.zeroExtend 64))

/-- G.SHI. -/
def execGShi (core : Nat) (rd ra : Reg) (kind : ShKind) (amount : BitVec 6) (s : State) : Res :=
  s.ganger core (.gShi core rd ra kind amount)
    (fun a x => s.gWrite a core x rd (shiftResult kind (x.s ra) amount.toNat))

/-- G.SLTI. -/
def execGSlti (core : Nat) (rd ra : Reg) (imm : W16) (s : State) : Res :=
  s.ganger core (.gSlti core rd ra imm)
    (fun a x => s.gWrite a core x rd (if (x.s ra).slt (imm.signExtend 64) then 1 else 0))

/-- G.MOVK. -/
def execGMovk (core : Nat) (rd : Reg) (lane : BitVec 2) (imm : W16) (s : State) : Res :=
  s.ganger core (.gMovk core rd lane imm) (fun a x => s.gWrite a core x rd (movkResult (x.s rd) lane.toNat imm))

/-! ### Loads and stores (spec/07 R199) -/

/-- G.LD.B. -/
def execGLdB (core : Nat) (rd ra : Reg) (off : W16) (s : State) : Res :=
  s.ganger core (.gLdB core rd ra off) (fun a x => s.gLoad a core x rd ra off 1)

/-- G.LD.H. -/
def execGLdH (core : Nat) (rd ra : Reg) (off : W16) (s : State) : Res :=
  s.ganger core (.gLdH core rd ra off) (fun a x => s.gLoad a core x rd ra off 2)

/-- G.LD.W. -/
def execGLdW (core : Nat) (rd ra : Reg) (off : W16) (s : State) : Res :=
  s.ganger core (.gLdW core rd ra off) (fun a x => s.gLoad a core x rd ra off 4)

/-- G.LD.D. -/
def execGLdD (core : Nat) (rd ra : Reg) (off : W16) (s : State) : Res :=
  s.ganger core (.gLdD core rd ra off) (fun a x => s.gLoad a core x rd ra off 8)

/-- G.ST.B. -/
def execGStB (core : Nat) (rs ra : Reg) (off : W16) (s : State) : Res :=
  s.ganger core (.gStB core rs ra off) (fun a x => s.gStore a core x rs ra off 1)

/-- G.ST.H. -/
def execGStH (core : Nat) (rs ra : Reg) (off : W16) (s : State) : Res :=
  s.ganger core (.gStH core rs ra off) (fun a x => s.gStore a core x rs ra off 2)

/-- G.ST.W. -/
def execGStW (core : Nat) (rs ra : Reg) (off : W16) (s : State) : Res :=
  s.ganger core (.gStW core rs ra off) (fun a x => s.gStore a core x rs ra off 4)

/-- G.ST.D, which may install a tag-map entry (spec/10 R301). -/
def execGStD (core : Nat) (rs ra : Reg) (off : W16) (s : State) : Res :=
  s.ganger core (.gStD core rs ra off) (fun a x => s.gStore a core x rs ra off 8)

/-- One level of a nest register from its 16 bytes (spec/08 R249, table Nest level). -/
def nestLevelOf (w : Nat) : NestLevel :=
  { count := fld w 127 112 + 1, sa := sext 32 (fld w 111 80), sb := sext 32 (fld w 79 48), sd := sext 32 (fld w 47 16) }

/-- The four levels of a 64-byte image. -/
def nestOf (bs : List Byte) : List NestLevel :=
  (List.range 4).map (fun l => nestLevelOf (ofLe ((bs.drop (16 * l)).take 16)))

/-- A nest image with a nonzero reserved field (spec/08 R249). -/
def nestBad (bs : List Byte) : Bool :=
  (List.range 4).any (fun l => ofLe ((bs.drop (16 * l)).take 2) != 0)

/-- G.NLD (spec/07 R205, spec/08 R249). -/
def execGNld (core : Nat) (nest : BitVec 3) (ra : Reg) (off : W16) (s : State) : Res :=
  s.ganger core (.gNld core nest ra off) (fun a x =>
    let va := gAddress x ra off 64
    let u := s.translateVa a core va 64
    match s.gAccess a core va false with
    | .wait => s
    | .ok =>
      if s.poisonedVa a va 64 then u.gPoison a core x va
      else
        let bs := s.readVa a va 64
        if nestBad bs then u.selfHaltNoted a core .shapeMismatch
        else u.moveOn a core { x with nests := x.nests.set nest.toNat (nestOf bs) } (x.pc + 4)
    | _ => u.selfHalt a core .accessDenied)

/-! ### Program flow (spec/07 R194, R198) -/

/-- G.B.cc. -/
def execGBCc (core : Nat) (cc : Cc) (ra rb : Reg) (off : BitVec 13) (s : State) : Res :=
  s.ganger core (.gBCc core cc ra rb off) (fun a x =>
    if ccHolds cc (x.s ra) (x.s rb) then s.gBranch a core x off.toInt else s.moveOn a core x (x.pc + 4))

/-- G.J. -/
def execGJ (core : Nat) (off : BitVec 26) (s : State) : Res :=
  s.ganger core (.gJ core off) (fun a x => s.gBranch a core x off.toInt)

/-- G.LOOP (spec/07 R198, R229, spec/08 R235). -/
def execGLoop (core : Nat) (rc : Reg) (endOff : W16) (s : State) : Res :=
  s.ganger core (.gLoop core rc endOff) (fun a x =>
    let stop := x.pc + 4 * endOff.toNat
    let outside := match x.src with
      | .bank _ => false
      | .queue => match blockSpan x.iq x.pc with
        | none => true
        | some (_, hi) => decide (hi < stop)
    let n := fld (x.s rc).toNat 31 0
    if decide (endOff.toNat ≤ 1) || decide (4 ≤ x.loops.length) || outside then s.hang a core
    else if n = 0 then s.moveOn a core x stop
    else s.moveOn a core { x with loops := { body := x.pc + 4, stop := stop, left := n } :: x.loops } (x.pc + 4))

/-- G.BRK (spec/07 R198, R229). -/
def execGBrk (core : Nat) (s : State) : Res :=
  s.ganger core (.gBrk core) (fun a x =>
    match x.loops with
    | [] => s.hang a core
    | l :: ls => s.moveOn a core { x with loops := ls } l.stop)

/-! ### Marks and status registers (spec/07 R212, R218) -/

/-- The value that G.WAIT compares with (spec/08 R236). -/
def waitValue (x : Ctx) : WaitVal → W32
  | .imm v => v.zeroExtend 32
  | .reg ra => (x.s ra).truncate 32

/-- G.WAIT: the Ganger stays at the instruction until the condition holds. -/
def execGWait (core : Nat) (mark : BitVec 6) (v : WaitVal) (s : State) : Res :=
  s.ganger core (.gWait core mark v) (fun a x =>
    if waitOver (x.mark mark.toNat) (waitValue x v) then s.moveOn a core x (x.pc + 4) else s)

/-- G.MSET. -/
def execGMset (core : Nat) (mark : BitVec 6) (ra : Reg) (s : State) : Res :=
  s.ganger core (.gMset core mark ra) (fun a x =>
    s.moveOn a core (x.setMark mark.toNat ((x.s ra).truncate 32)) (x.pc + 4))

/-- G.MRD. -/
def execGMrd (core : Nat) (rd : Reg) (mark : BitVec 6) (s : State) : Res :=
  s.ganger core (.gMrd core rd mark) (fun a x => s.gWrite a core x rd ((x.mark mark.toNat).zeroExtend 64))

/-- G.ESC: the register is read, then cleared. -/
def execGEsc (core : Nat) (rd : Reg) (engine : Engine) (s : State) : Res :=
  s.ganger core (.gEsc core rd engine) (fun a x =>
    s.gWrite a core { x with estat := x.estat.set (engineNo engine) {} } rd (x.est engine).word)

/-- G.PRING (spec/07 R219, R220). -/
def execGPring (core : Nat) (ra : Reg) (s : State) : Res :=
  s.ganger core (.gPring core ra) (fun a x =>
    let va := (x.s ra).toNat
    let win := windowVa (s.coreIndex a core)
    if va % 2048 == 0 && decide (win ≤ va) && decide (va < win + windowSize) &&
        s.allPages a va 2048 (fun _ d => d.w && !d.frozen && !d.draw) then
      s.moveOn a core { x with passRing := va - win } (x.pc + 4)
    else s.selfHalt a core .accessDenied)

/-! ### Provisional epochs (spec/07 R225 to R229) -/

/-- The open instance of epoch e. -/
def Ctx.openEpoch (x : Ctx) (e : Nat) : Option Epoch := x.epochs.find? (fun p => p.e == e && p.state == .opened)

/-- An epoch instance changed by its serial. -/
def Ctx.modEpoch (x : Ctx) (serial : Nat) (f : Epoch → Epoch) : Ctx :=
  { x with epochs := x.epochs.map (fun p => if p.serial = serial then f p else p) }

/-- G.PROV.OPEN: the newest instance stands first. -/
def execGProvOpen (core : Nat) (epoch : BitVec 2) (s : State) : Res :=
  s.ganger core (.gProvOpen core epoch) (fun a x =>
    match x.openEpoch epoch.toNat with
    | some _ => s.hang a core
    | none =>
      s.moveOn a core
        { x with epochs := { e := epoch.toNat, serial := x.epochSerial } :: x.epochs, epochSerial := x.epochSerial + 1 }
        (x.pc + 4))

/-- The bytes of completed ring copies of an epoch added to the rings' fill counts (spec/07 R226). -/
def Ctx.addRingBytes (x : Ctx) (l : Tbl Nat) : Ctx :=
  { x with rings := l.foldl (fun r e => Tbl.modify {} r e.1 (fun g => { g with fill := g.fill + e.2 })) x.rings }

/-- G.PROV.CONFIRM. -/
def execGProvConfirm (core : Nat) (epoch : BitVec 2) (s : State) : Res :=
  s.ganger core (.gProvConfirm core epoch) (fun a x =>
    match x.openEpoch epoch.toNat with
    | none => s.hang a core
    | some p =>
      s.moveOn a core
        ((x.modEpoch p.serial (fun q => { q with state := .confirmed, ringBytes := [] })).addRingBytes p.ringBytes)
        (x.pc + 4))

/-- The mark that a Trowel operation increments when it completes: the counter MARK on its own core, or under RMK on core
RCORE of the allotment (spec/07 R214); a copy into the fabric window keeps its own (spec/13 R393). -/
def State.trowelMark (s : State) (a c : Nat) (q : QOp) : Option (Nat × Nat) :=
  match q.mark with
  | none => none
  | some m => if q.tRmk && !q.tFabric then (s.coreAt a q.tRcore).map (fun k => (k, m)) else some (c, m)

/-- The marks of the iterations of a queued operation that have not started. -/
def State.pendingMarks (s : State) (a c : Nat) (q : QOp) : List Nat :=
  match s.trowelMark a c q with
  | none => []
  | some m => List.replicate (q.total - q.taken) (m.1 * 64 + m.2)

/-- G.PROV.CANCEL: the operations of the epoch that have not started are discarded; their marks are incremented when its
ranges have been zeroed (PROV_RANGES_RELEASE). -/
def execGProvCancel (core : Nat) (epoch : BitVec 2) (s : State) : Res :=
  s.ganger core (.gProvCancel core epoch) (fun a x =>
    match x.openEpoch epoch.toNat with
    | none => s.hang a core
    | some p =>
      let mine := fun (q : QOp) => q.epoch == some p.serial
      let dropped := (x.trowelQ.filter mine).flatMap (s.pendingMarks a core)
      let x1 := { x with trowelQ := x.trowelQ.filter (fun q => !mine q) }
      s.moveOn a core
        (x1.modEpoch p.serial (fun q => { q with state := .cancelled, marks := dropped, ringBytes := [] })) (x.pc + 4))

/-! ### The software-fed Tally (spec/09 R283) -/

/-- Bytes absorbed by the core's Tally. -/
def State.gTally (s : State) (a c : Nat) (x : Ctx) (bs : List Byte) : State :=
  s.moveOn a c { x with tally := crcBytes x.tally bs } (x.pc + 4)

/-- G.TALLY.B. -/
def execGTallyB (core : Nat) (ra : Reg) (s : State) : Res :=
  s.ganger core (.gTallyB core ra) (fun a x => s.gTally a core x (leBytes 1 (x.s ra).toNat))

/-- G.TALLY.H. -/
def execGTallyH (core : Nat) (ra : Reg) (s : State) : Res :=
  s.ganger core (.gTallyH core ra) (fun a x => s.gTally a core x (leBytes 2 (x.s ra).toNat))

/-- G.TALLY.W. -/
def execGTallyW (core : Nat) (ra : Reg) (s : State) : Res :=
  s.ganger core (.gTallyW core ra) (fun a x => s.gTally a core x (leBytes 4 (x.s ra).toNat))

/-- G.TALLY.S. -/
def execGTallyS (core : Nat) (ra : Reg) (s : State) : Res :=
  s.ganger core (.gTallyS core ra) (fun a x =>
    if fld (x.s ra).toNat 63 56 ≠ 0 then s.selfHaltNoted a core .shapeMismatch
    else s.gTally a core { x with tally := 0xFFFFFFFF } (tallyHead a (x.s ra).toNat))

/-- G.TALLY.R. -/
def execGTallyR (core : Nat) (rd : Reg) (s : State) : Res :=
  s.ganger core (.gTallyR core rd) (fun a x => s.gWrite a core x rd ((crcValue x.tally).zeroExtend 64))

/-! ### Timer, posts, banks and halts -/

/-- G.TIME (spec/07 R194). -/
def execGTime (core : Nat) (rd : Reg) (s : State) : Res :=
  s.ganger core (.gTime core rd) (fun a x => s.gWrite a core x rd (BitVec.ofNat 64 s.timer))

/-- The command that the program runs under: its START, or the STREAM command of the block being executed. -/
def Ctx.current (x : Ctx) : Option Nat :=
  match x.src with
  | .bank _ => x.cmd
  | .queue =>
    match x.iq.find? (fun b => decide (b.base ≤ x.pc) && decide (x.pc < b.base + b.bytes.length)) with
    | some b => some b.cmd
    | none => x.cmd

/-- The port that carries a stream's completions. -/
def State.streamPort (s : State) (a n : Nat) : Nat :=
  match (s.stream a n).desc with
  | none => 0
  | some d => match s.qps.find d.cqQp with
    | none => 0
    | some q => q.port

/-- G.POST (spec/07 R194, spec/17 R499): dropped when 256 completions wait. -/
def execGPost (core : Nat) (ra : Reg) (s : State) : Res :=
  s.ganger core (.gPost core ra) (fun a x =>
    let s1 := s.moveOn a core x (x.pc + 4)
    match x.current.bind (fun id => (s.allot a).cmds.find id) with
    | none => s1
    | some k =>
      if 256 ≤ (s.stream a k.stream).waiting.length then s1.dropPort (s.streamPort a k.stream) 0x08 a
      else s1.post a k.stream { cookie := (x.s ra).toNat, kind := 0x2, core := s.coreIndex a core })

/-- G.SWAP (spec/07 R191, R192, R229). An offset below the image length that is no multiple of 4 is fetched at as it stands, a choice
(log entry 106). -/
def execGSwap (core : Nat) (ra : Reg) (s : State) : Res :=
  s.ganger core (.gSwap core ra) (fun a x =>
    match x.src with
    | .queue => s.hang a core
    | .bank b =>
      let other : Bank := Tbl.get {} x.banks (1 - b)
      let off := (x.s ra).toNat
      if other.loading then s
      else if other.len ≤ off then s.selfHalt a core .accessDenied
      else s.setCtx a core { x.takeIndex .ganger with src := .bank (1 - b), pc := off, loops := [] })

/-- G.HALT (spec/07 R197). -/
def execGHalt (core : Nat) (s : State) : Res := s.ganger core (.gHalt core) (fun a _ => s.selfHalt a core .ok)

/-! ### The address FIFO (spec/07 R207 to R209, spec/08 R251) -/

/-- The entry of an index: a zero entry for 0xFFFF_FFFF, none for an address that R209 refuses. -/
def State.fifoEntry (s : State) (a base index shift : Nat) : Option FifoEntry :=
  if index = 0xFFFFFFFF then some none
  else
    let va := base + index * 2 ^ shift
    if decide (va < 2 ^ 48) && s.anyPage a va 1 (fun _ d => d.r) then some (some va) else none

/-- Entries pushed in order, each address translated by the Trowel; a refused address halts the core with none pushed, since the instruction
is not executed (spec/07 R209, R541); a full FIFO stalls. -/
def State.gPush (s : State) (a c : Nat) (x : Ctx) (rb : Reg) (shift : Nat) (ids : List Nat) : State :=
  if 64 < x.fifo.length + ids.length then s
  else
    let es := ids.map (fun i => s.fifoEntry a (x.s rb).toNat i shift)
    let u := es.foldl (fun (t : State) e => match e with
      | some (some va) => t.translateVa a c va 1
      | _ => t) s
    if es.all Option.isSome then u.moveOn a c { x with fifo := x.fifo ++ es.filterMap id } (x.pc + 4) else u.selfHalt a c .accessDenied

/-- G.ADDR. -/
def execGAddr (core : Nat) (rb ri : Reg) (shift : BitVec 4) (s : State) : Res :=
  s.ganger core (.gAddr core rb ri shift) (fun a x => s.gPush a core x rb shift.toNat [fld (x.s ri).toNat 31 0])

/-- G.ADDR2. -/
def execGAddr2 (core : Nat) (rb ri : Reg) (shift : BitVec 4) (s : State) : Res :=
  s.ganger core (.gAddr2 core rb ri shift) (fun a x =>
    s.gPush a core x rb shift.toNat [fld (x.s ri).toNat 31 0, fld (x.s ri).toNat 63 32])

/-! ### Decode events -/

/-- A reserved word, code or field (spec/08 R237). -/
def execGangerIllegalWord (core : Nat) (s : State) : Res :=
  s.ganger core (.gangerIllegalWord core) (fun a _ => s.selfHaltNoted a core .shapeMismatch)

/-- A fetch at or beyond the image length (spec/07 R192, spec/08 R232). -/
def execBankFetchPastImage (core : Nat) (s : State) : Res :=
  s.ganger core (.bankFetchPastImage core)
    (fun a x => s.setCtx a core { x with run := .stopping .accessDenied })

end Sys2Proof.Machine
end

