-- ==== Sys2Proof/Machine/Lath.lean ====
section
/-! DEFINITION. The Lath engine: the head of its queue, weight loads, passes and splits (spec/04, spec/05). -/

namespace Sys2Proof.Machine

/-! ### Shared operations -/

/-- The resident context of a core whose ward is not held: its started operations run on, also while a switch waits for
them (spec/10 R308, spec/04 R114, R120). -/
def State.resident (s : State) (c : Nat) : Option (Nat × Ctx) :=
  if s.wardHeld (c / 32) then none
  else match (s.core c).resident with
    | none => none
    | some a => (s.ctx? a c).map (fun x => (a, x))

/-- The head of the Lath queue taken: its index, and the head's checks spent. -/
def Ctx.takeLath (x : Ctx) : Ctx := { x.takeIndex .lath with lathQ := takeIter x.lathQ, lathHead := none }

/-- A refusal's shadow marks (spec/04 R96): the sub-array named, or every one when SUB names none of the split. -/
def Ctx.markShadow (x : Ctx) (sub : Nat) (st : Status) : Ctx :=
  let subs := if sub < x.q * x.q then [sub] else List.range (x.q * x.q)
  { x with shadow := subs.foldl (fun t i => t.set i (.invalid st)) x.shadow }

/-- A load refused. -/
def State.refuseLoad (s : State) (a c : Nat) (x : Ctx) (q : QOp) (st : Status) : State :=
  let s1 := if st = .hazard then s.noteHazard a c else s
  (s1.setCtx a c (((x.takeLath.markShadow q.loadSub st).note .lath st (x.nextIndex .lath)).bumpMark q.validMark)).petWatchdog a

/-- The largest row count of a list of streams. -/
def maxRows (es : List PEnt) : Nat := (es.map PEnt.m).foldl max 0

/-- Bit l for each Lath with rows. -/
def lathBits (es : List PEnt) : Nat := ((es.filter (fun e => e.m != 0)).map (fun e => 2 ^ e.lath)).foldl Nat.lor 0

/-- The streams that run. A sub-array with rows and K = 0 is not among them, so that its tile has no part in the pass's steps, a choice
(log entry 107). -/
def PassPlan.used (p : PassPlan) : List PEnt := p.ents.filter (fun e => e.m != 0 && e.k != 0)

/-- The effective steps per product of a pass (spec/05 R140): the largest over the sub-arrays that it uses, the whole Lath being one
under 1x1; at least the activation digits. -/
def PassPlan.dEff (p : PassPlan) : Nat :=
  let es := if p.ents.all (fun e => e.sub == 0) then p.ents else p.used
  ((es.filter (fun e => e.tile.kt != 0)).map (fun e => e.tile.dEff p.afmt)).foldl max (actDigits p.afmt)

/-- The steps per product of the record's D field: those of the first stream that runs, else of the first with a tile; 0 with no
tile (log entry 89). -/
def PassPlan.dTable (p : PassPlan) : Nat :=
  match p.used ++ p.ents.filter (fun e => e.tile.kt != 0) with
  | e :: _ => pairD e.tile.fmt p.afmt
  | [] => 0

/-- LATHS and D of the record of an L.PASS or an L.PASSO, as its instruction and table name them (spec/04 R112): 0 where they
cannot be read. -/
def Ctx.recLaths (x : Ctx) (q : QOp) (passo : Bool) (table : List Byte) : Nat × Nat :=
  if passo then
    let l := (((q.passoMs.zip (List.range 4)).filter (fun e => e.1 != 0)).map (fun e => 2 ^ e.2)).foldl Nat.lor 0
    match fmtOf (q.f 88 85), fmtOf (q.f 81 78) with
    | some a, some w => (l, pairD w a)
    | _, _ => (l, 0)
  else
    match fmtOf (q.f 102 99), blkOf (q.f 98 96) with
    | some f, some b =>
      let p := x.passOf q f b table
      (lathBits p.ents, p.dTable)
    | _, _ => (lathBits (x.passEnts q table), 0)

/-- The pass record fields that hold of a refused pass too (spec/04 R112, R113): SPLIT is the split in force, an L.PASSO's too (log
entry 89). -/
def Ctx.newPass (x : Ctx) (q : QOp) (passo : Bool) (table : List Byte) : PassRun :=
  let r := x.recLaths q passo table
  { idx := x.nextIndex .lath, pidx := x.passIndex, q := q, ring := x.passRing, passo := passo, split := x.split, laths := r.1,
    d := r.2, resumed := x.resumed, behindLoad := x.load.isSome }

/-- The pass index taken (spec/04 R113). -/
def Ctx.takePass (x : Ctx) : Ctx := { x with passIndex := (x.passIndex + 1) % 2 ^ 24, resumed := false }

/-- A pass refused: its record waits for its place in pass order (spec/04 R112). -/
def State.refusePass (s : State) (a c : Nat) (x : Ctx) (q : QOp) (passo : Bool) (table : List Byte) (st : Status) : State :=
  let s1 := if st = .hazard then s.noteHazard a c else s
  let p := { x.newPass q passo table with status := some st }
  let x1 := { x.takeLath.takePass with passes := x.passes ++ [p] }
  (s1.setCtx a c x1).drainPasses a c x1.passes.length

/-- An L.SPLIT or an instruction with a reserved OP refused. -/
def State.refuseOther (s : State) (a c : Nat) (x : Ctx) (q : QOp) (st : Status) : State :=
  (s.setCtx a c ((x.takeLath.note .lath st (x.nextIndex .lath)).bumpMark q.validMark)).petWatchdog a

/-- A started pass with no record yet. -/
def Ctx.startedPasses (x : Ctx) : List PassRun := x.passes.filter (fun p => p.status == none)

/-- The value of a Tub element that the Lath queue sees: the latest wet value, or the dry one (spec/04 R103). -/
def Ctx.forwarded (x : Ctx) (key : Nat) : TubElem :=
  match (x.startedPasses.reverse.filterMap (fun p => p.wet.find key)).head? with
  | some e => e
  | none => Tbl.get {} x.tub key

/-- The number of Tub element (row, column) of quarter l. -/
def tubKey (l row col : Nat) : Nat := (l * 2048 + row) * 128 + col

/-- The tag that an accumulation leaves (spec/06 R167): under CLEAR the incoming one. -/
def tagAccum (clear : Bool) (old new : Tag) : Tag :=
  if clear || old == .common then new else if new == .common || old == new then old else .mixed

/-- One output element: its Tub number, its new contents, its class and counts. -/
structure ElemOut where
  key : Nat
  elem : TubElem
  cls : DotClass
  ev : Ev
  deriving DecidableEq, Repr

/-- One output element formed by R65 from its initial element. -/
def elemOut (wfmt afmt : Fmt) (wrap clear : Bool) (key : Nat) (old : TubElem) (acts ws : List Val) (rtag ctag : Tag) : ElemOut :=
  let o := dot wfmt afmt wrap (if clear then 0 else old.v) (acts.zip ws)
  { key := key
    elem := { v := o.acc, rtag := tagAccum clear old.rtag rtag, ctag := tagAccum clear old.ctag ctag }
    cls := o.cls
    ev := o.ev }

/-- The elements' results as the pass's wet face, counts, invalid mask and invalid count (spec/03 R77, R78): colOf gives
the mask's bit of a Tub element. -/
def PassRun.take (p : PassRun) (outs : List ElemOut) (colOf : Nat → Nat) : PassRun :=
  let bad := outs.filter (fun o => o.cls == .invalid)
  { p with
    wet := outs.foldl (fun t o => t.set o.key o.elem) p.wet
    ev := p.ev.add (Ev.sum (outs.map ElemOut.ev))
    mask := Nat.lor p.mask ((bad.map (fun o => 2 ^ colOf o.key)).foldl Nat.lor 0)
    invalidCount := p.invalidCount + bad.length }

/-- The rows of 128 Tub elements that a stream covers. -/
def PEnt.tubRng (e : PEnt) : Rng := { space := .tub, base := tubKey e.lath e.base 0, len := e.tubRows * 128 }

/-- The Loft and Hawk ranges that a stream reads. -/
def PEnt.readRngs (e : PEnt) (f : Fmt) (b : Blk) : List Rng :=
  let r0 := e.loftRow f b 0
  let h0 := e.hawkRow f b 0
  [{ space := .va, base := r0.1.va, len := r0.1.len, rows := e.m, stride := e.stride },
   { space := .va, base := r0.2.va, len := r0.2.len, rows := e.m, stride := e.sclStride },
   { space := .hawk, base := h0.1, len := (if e.loftK < e.k then h0.2 else 0), rows := e.m, stride := e.stride }].filter
    (fun r => r.len != 0 && r.rows != 0)

/-- Code and scale pairs of row m of a stream, with the row's tag and whether a poisoned word came with it. A row of which a part comes from
the Hawk carries the tag of its Loft row, one that comes wholly from the Hawk the merged tag of its units, a choice (log entry 108). -/
def State.actRow (s : State) (a c : Nat) (x : Ctx) (f : Fmt) (b : Blk) (e : PEnt) (m : Nat) : List (Nat × Nat) × Tag × Bool :=
  let lr := e.loftRow f b m
  let hr := e.hawkRow f b m
  let loft := actCodes f b (s.readVa a lr.1.va lr.1.len) (s.readVa a lr.2.va lr.2.len) e.loftK
  if e.loftK < e.k then
    let bs := s.hawkBytes c x hr.1 hr.2
    let hk := e.k - e.loftK
    let cb := rowCodeBytes f hk
    let tag := if e.loftK = 0 then s.hawkTag c x hr.1 hr.2 else s.tagAt a c lr.1.va
    (loft ++ actCodes f b (bs.take cb) (bs.drop cb) hk, tag,
      s.poisonedVa a lr.1.va lr.1.len || s.poisonedVa a lr.2.va lr.2.len || s.hawkPoisoned c x hr.1 hr.2)
  else (loft, s.tagAt a c lr.1.va, s.poisonedVa a lr.1.va lr.1.len || s.poisonedVa a lr.2.va lr.2.len)

/-- The values of code and scale pairs. -/
def actVals (f : Fmt) (l : List (Nat × Nat)) : List Val := l.map (fun p => valOf f p.1 p.2)

/-- The Lath's operations that have left its queue and are not complete: its passes, refused ones that wait for their place among them, and
its load (spec/07 R201, log entry 105). -/
def Ctx.lathStarted (x : Ctx) : Nat := x.passes.length + b2n x.load.isSome

/-- Whether every earlier operation of the Lath queue has completed, as one that is refused awaits (spec/07 R202). -/
def Ctx.lathTurn (x : Ctx) : Bool := x.passes.isEmpty && x.load == none

/-! ### The head of the queue -/

/-- What the head of the Lath queue is refused with, if anything (spec/04 R100, spec/08 R240). -/
def State.lathRefusal (s : State) (a c : Nat) (x : Ctx) (q : QOp) (table : List Byte) : Option Status :=
  match q.op with
  | 1 | 2 => match s.loadPlan a c x q with | .error st => some st | .ok _ => none
  | 3 => match s.passPlan a c x q table with | .error st => some st | .ok _ => none
  | 4 => match s.passoPlan a c x q with | .error st => some st | .ok _ => none
  | 5 => if q.splitMalformed then some .shapeMismatch else none
  | _ => some .shapeMismatch

/-- The refusal of the head of the Lath queue, whatever its operation. -/
def State.refuseLath (s : State) (a c : Nat) (x : Ctx) (q : QOp) (table : List Byte) (st : Status) : State :=
  match q.op with
  | 1 | 2 => s.refuseLoad a c x q st
  | 3 => s.refusePass a c x q false table st
  | 4 => s.refusePass a c x q true table st
  | _ => s.refuseOther a c x q st

/-- The split pass table that a split L.PASS reads at the head of the queue (spec/05 R126). -/
def State.splitTable (s : State) (a c : Nat) (x : Ctx) (q : QOp) : List Byte :=
  match natOf q.passAct with
  | some va =>
    if q.op == 3 && x.q != 1 && s.loftReadable a c va (128 * x.q * x.q) then s.readVa a va (128 * x.q * x.q) else []
  | none => []

/-- The Hawk ranges of the rings that an output-stationary pass reads, behind those that the passes ahead of it take. -/
def OsPlan.ringReads (p : OsPlan) (x : Ctx) : List Rng :=
  p.rings.flatMap (fun r => x.ringRngs r ((x.ring r).drain + x.ringAhead r) (ceilDiv p.k 8 * chunkBytes p.wfmt p.wblk p.n))

/-- What the checks of the head themselves read: a load's tile, and a split pass table. -/
def Ctx.headReads (x : Ctx) (q : QOp) : List Rng :=
  match q.op with
  | 1 | 2 => q.loadRng
  | 3 =>
    if x.q = 1 then []
    else match natOf q.passAct with
      | some va => [vaRng va (128 * x.q * x.q)]
      | none => []
  | _ => []

/-- The ranges whose contents the checks of the head judge: those that they read, the Hawk ranges of Hawk-fed streams, whose drawn marks
order 7 tests, and the rings of an output-stationary pass. The checks wait as the operation does for a range that is held (spec/07
R226, spec/09 R281). -/
def Ctx.headRngs (x : Ctx) (q : QOp) (table : List Byte) : List Rng :=
  x.headReads q ++
    (match q.op with
      | 3 => match x.passShape q table with
        | .ok p => (p.ents.flatMap (fun e => e.readRngs p.afmt p.ablk)).filter (fun r => r.space == .hawk)
        | .error _ => []
      | 4 => match q.passoShape with
        | .ok p => p.ringReads x
        | .error _ => []
      | _ => [])

/-- Loft ranges that the head names, for the wait on spilled pages (spec/09 R271). -/
def State.lathSpilled (s : State) (a c : Nat) (x : Ctx) (q : QOp) : Bool :=
  match q.op with
  | 3 =>
    (match natOf q.passAct with
      | some va => x.q != 1 && s.spilledIn a va (128 * x.q * x.q)
      | none => false) ||
    (match s.passPlan a c x q (s.splitTable a c x q) with
      | .ok p => p.ents.any (fun e => (e.readRngs p.afmt p.ablk).any (fun r =>
          r.space == .va && (rngRuns r).any (fun run => s.spilledIn a run.1 (run.2 - run.1))))
      | .error _ => false)
  | 4 =>
    match s.passoPlan a c x q with
    | .ok p => p.ents.any (fun e => (e.readRngs p.afmt p.ablk).any (fun r =>
        (rngRuns r).any (fun run => s.spilledIn a run.1 (run.2 - run.1))))
    | .error _ => false
  | _ => false

/-- Whether the checks of the head of the Lath queue wait: for a page that the Verger has spilled (spec/09 R271), for a free place among the
192 started (spec/07 R201), or for a range that is held (R226). -/
def State.lathHeld (s : State) (a c : Nat) (x : Ctx) (q : QOp) : Bool :=
  s.lathSpilled a c x q || decide (192 ≤ x.lathStarted) || x.mustWait q { reads := x.headRngs q (s.splitTable a c x q) }

/-- A refused head of the Lath queue: a pass leaves the queue, and its record waits for its place; any other completes in its place, and
waits for it at the head (spec/07 R202). -/
def State.refuseHead (s : State) (a c : Nat) (x : Ctx) (q : QOp) (table : List Byte) (st : Status) : State :=
  if q.op = 3 ∨ q.op = 4 ∨ x.lathTurn = true then s.refuseLath a c x q table st
  else s.setCtx a c { x with lathHead := some { table := table, refused := some st } }

/-- LATH_QUEUE_HEAD: the head is checked once, in refusal order; a refused one completes when its place has come, an accepted one waits for
its start (spec/04 R100, spec/07 R202). -/
def execLathQueueHead (core : Nat) (s : State) : Res :=
  match s.onCore core with
  | none => .next s
  | some (a, x) =>
    match x.lathQ with
    | [] => .next s
    | q :: _ =>
      match x.lathHead with
      | none =>
        if s.lathHeld a core x q then .next s
        else
          let table := s.splitTable a core x q
          let t := s.translate a core { reads := x.headReads q }
          match s.lathRefusal a core x q table with
          | some st => .next (t.refuseHead a core x q table st)
          | none => .next (t.setCtx a core { x with lathHead := some { table := table } })
      | some h =>
        match h.refused with
        | none => .next s
        | some st => if x.lathTurn then .next (s.refuseLath a core x q h.table st) else .next s

/-- The head of the Lath queue of a core, accepted, with its split pass table. -/
def State.lathReady (s : State) (core : Nat) : Option (Nat × Ctx × QOp × List Byte) :=
  match s.onCore core with
  | none => none
  | some (a, x) =>
    match x.lathQ, x.lathHead with
    | q :: _, some h => if h.refused.isSome then none else some (a, x, q, h.table)
    | _, _ => none

/-! ### Loads -/

/-- LOAD_START (spec/04 R93, R94): the swapping pass ahead has started, since the queue starts in order; the load waits
for an output-stationary pass to commit (spec/05 R146), for ring use to end (spec/19 R528), and for another load. Its checks
were made at the head. -/
def execLoadStart (core : Nat) (s : State) : Res :=
  match s.lathReady core with
  | none => .next s
  | some (a, x, q, _) =>
    if q.op ≠ 1 ∧ q.op ≠ 2 then .next s
    else match q.loadTile, natOf q.loadOff with
      | some t, some off =>
        let fp : Footprint := { reads := q.loadRng }
        if x.load != none || x.ringUse || decide (192 ≤ x.lathStarted) || x.mustWait q fp ||
            !x.boardRoom (s.windowOf a core) fp then .next s
        else
          .next (s.setCtx a core
            { x.takeLath with
              shadow := x.shadow.set q.loadSub (.tile (s.tileFrom core x t off))
              load := some { idx := x.nextIndex .lath, q := q, hoff := off, behind := x.swapAhead, fp := fp }
              swapAhead := false })
      | _, _ => .next (s.refuseLoad a core x q .shapeMismatch)

/-- LOAD_DONE: the last byte has been read; the mark is incremented (spec/04 R95), and the passes behind the load can complete (spec/07
R202). -/
def execLoadDone (core : Nat) (s : State) : Res :=
  match s.resident core with
  | none => .next s
  | some (a, x) =>
    match x.load with
    | none => .next s
    | some l =>
      let freed := x.passes.map (fun (p : PassRun) => { p with behindLoad := false })
      .next (((s.setCtx a core ({ x with load := none, passes := freed }.bumpMark l.q.mark)).petWatchdog a).drainPasses a core
        x.passes.length)

/-! ### Weight-stationary passes -/

/-- The results of one stream of a pass (spec/04 R99, spec/05 R131). -/
def State.entOuts (s : State) (a c : Nat) (x : Ctx) (p : PassPlan) (e : PEnt) : List ElemOut :=
  let ws := (List.range e.tile.n).map (fun n => (List.range e.k).map (fun k => e.tile.val k n))
  (List.range e.m).flatMap (fun m =>
    let row := s.actRow a c x p.afmt p.ablk e m
    let acts := actVals p.afmt row.1
    (List.range e.tile.n).map (fun n =>
      let key := tubKey e.lath (e.base + m / e.fold) (e.col0 + m % e.fold * (128 / e.fold) + n)
      elemOut e.tile.fmt p.afmt p.wrap p.clear key (x.forwarded key) acts (ws.getD n []) row.2.1 (e.tile.colTags.getD n .common)))

/-- The column of the invalid mask of a Tub element (spec/03 R77, spec/05 R131): the Lath's output column under 1x1, the
Tub column under a split. -/
def maskCol (x : Ctx) (es : List PEnt) (key : Nat) : Nat :=
  if x.q = 1 then
    match es with
    | e :: _ => key % 128 % (128 / e.fold)
    | [] => 0
  else key % 128

/-- The footprint of a pass. The split pass table, and each stream's codes, its scales, its Tub rows read and its Tub rows written, count as
one range each against the 256 of the scoreboard, a choice (log entry 107). -/
def PassPlan.footprint (p : PassPlan) (x : Ctx) (q : QOp) : Footprint :=
  let es := p.ents.filter (fun e => e.m != 0)
  let tub := es.map PEnt.tubRng
  { reads := x.headReads q ++ es.flatMap (fun e => e.readRngs p.afmt p.ablk) ++ (if p.clear then [] else tub), writes := tub }

/-- Whether a pass has a Hawk-fed stream (spec/05 R137). -/
def PassPlan.hawkFed (p : PassPlan) : Bool := p.ents.any (fun e => e.m != 0 && decide (e.loftK < e.k))

/-- The weights after a pass's swap (spec/04 R84, spec/05 R125). -/
def Ctx.swapWeights (x : Ctx) (swap : Bool) : Ctx :=
  if swap then
    { x with
      active := x.shadow.foldl (fun t e => match e.2 with | .tile w => t.set e.1 w | .invalid _ => t) x.active
      shadow := [] }
  else x

/-- Whether the tiles or rows of a pass carry a poisoned word (spec/04 R117). -/
def State.passPoisoned (s : State) (a c : Nat) (x : Ctx) (p : PassPlan) : Bool :=
  (p.swap && x.shadow.any (fun e => match e.2 with | .tile t => t.poisoned | .invalid _ => false)) ||
    p.used.any (fun e => e.tile.poisoned || (List.range e.m).any (fun m => (s.actRow a c x p.afmt p.ablk e m).2.2))

/-- The first page of virtual ranges that is spilled, or no longer mapped. -/
def State.goneIn (s : State) (a : Nat) (rs : List Rng) : Option Nat :=
  (((rs.filter (fun r => r.space == .va)).flatMap rngRuns).flatMap (fun u => pagesOf u.1 (u.2 - u.1))).find? (fun v =>
    match s.pageOf a v with
    | none => true
    | some d => d.spilled)

/-- A pass that starts on a page that the Verger has spilled or unmapped after the pass's checks: it is discarded with every started
pass of the core, and the core takes the fault (spec/04 R117). -/
def State.faultAtStart (s : State) (a c : Nat) (x : Ctx) (r : PassRun) (va : Nat) : State :=
  (s.setCtx a c { x.takeLath.takePass with passes := x.passes ++ [r] }).takeFault a c .lath .pageRemoved va r.idx

/-- PASS_START (spec/04 R97, R102, R103, spec/05 R125, R140, R141): the pass reads its operands, swaps the weights under
SWAP, and holds its results wet. Its checks were made at the head; the hazard test belongs to the start (spec/07 R224). -/
def execPassStart (core : Nat) (chainWait : Bool) (s : State) : Res :=
  match s.lathReady core with
  | none => .next s
  | some (a, x, q, table) =>
    if q.op ≠ 3 then .next s
    else match x.passShape q table with
      | .error st => .next (s.refusePass a core x q false table st)
      | .ok p =>
        let fp := p.footprint x q
        let busy := x.startedPasses
        let blocked := (p.swap && x.load != none) || busy.any (fun r => r.passo) ||
          (decide (p.dEff < x.lastDEff) && !busy.isEmpty) || (p.hawkFed && x.ringUse) || decide (192 ≤ x.lathStarted) ||
          x.mustWait q fp || !x.boardRoom (s.windowOf a core) fp
        let r0 := { x.newPass q false table with
          steps := if p.used.isEmpty then 0 else x.q * maxRows p.ents * p.dEff
          clear := p.clear, chainWait := chainWait, throttled := s.wardThrottled (core / 32), dEff := p.dEff, fp := fp }
        if blocked then .next s
        else if x.hazard (s.windowOf a core) .lath fp then .next (s.refusePass a core x q false table .hazard)
        else match s.goneIn a (p.ents.flatMap (fun e => e.readRngs p.afmt p.ablk)) with
          | some va => .next (s.faultAtStart a core x r0 va)
          | none =>
            let outs := p.used.flatMap (s.entOuts a core x p) ++
              (p.ents.filter (fun e => e.m != 0 && e.k == 0)).flatMap (s.entOuts a core x p)
            let r1 := { r0 with
              poisoned := s.passPoisoned a core x p, poisonAt := (s.firstPoison a fp.reads).getD 0 }
            let r := r1.take outs (maskCol x p.ents)
            let x1 := x.takeLath.takePass.swapWeights p.swap
            .next ((s.translate a core fp).setCtx a core
              { x1 with passes := x.passes ++ [r], lastDEff := p.dEff, swapAhead := x.swapAhead || (p.swap && !x.shadow.isEmpty) })

/-! ### Output-stationary passes -/

/-- The activation rows of an output-stationary pass. -/
def State.osActs (s : State) (a c : Nat) (x : Ctx) (p : OsPlan) : List ActRow × Bool :=
  let rows := p.ents.flatMap (fun e => (List.range e.m).map (fun m => (e.lath, m, s.actRow a c x p.afmt p.ablk e m)))
  (rows.map (fun r => { lath := r.1, m := r.2.1, tag := r.2.2.2.1, codes := r.2.2.1 }), rows.any (fun r => r.2.2.2.2))

/-- The initial Tub elements of an output-stationary pass, held as its wet face until it commits (spec/05 R145). -/
def Ctx.osInit (x : Ctx) (p : OsPlan) : Tbl TubElem :=
  p.ents.foldl (fun t e => (List.range e.m).foldl (fun t m => (List.range p.n).foldl (fun t n =>
    let key := tubKey e.lath (p.base + m) n
    t.set key (Tbl.get {} x.tub key)) t) t) []

/-- The footprint of an output-stationary pass; its ring is no range (spec/07 R224). -/
def OsPlan.footprint (p : OsPlan) : Footprint :=
  let es := p.ents.filter (fun e => e.m != 0)
  let tub := es.map PEnt.tubRng
  { reads := es.flatMap (fun e => e.readRngs p.afmt p.ablk) ++ (if p.clear then [] else tub), writes := tub }

/-- PASSO_START (spec/05 R143 to R148): every earlier pass has committed; the weights of every sub-array are emptied. -/
def execPassoStart (core : Nat) (s : State) : Res :=
  match s.lathReady core with
  | none => .next s
  | some (a, x, q, _) =>
    if q.op ≠ 4 then .next s
    else match q.passoShape with
      | .error st => .next (s.refusePass a core x q true [] st)
      | .ok p =>
        let fp := p.footprint
        let r0 := { x.newPass q true [] with
          steps := if p.rings.isEmpty then 0 else p.k * stepsD p.wfmt p.afmt
          clear := p.clear, throttled := s.wardThrottled (core / 32), fp := fp, dEff := stepsD p.wfmt p.afmt }
        if !x.startedPasses.isEmpty || x.load != none || x.mustWait q { fp with reads := fp.reads ++ p.ringReads x } ||
            !x.boardRoom (s.windowOf a core) fp then .next s
        else if x.hazard (s.windowOf a core) .lath fp then .next (s.refusePass a core x q true [] .hazard)
        else match s.goneIn a fp.reads with
          | some va => .next (s.faultAtStart a core x r0 va)
          | none =>
            let acts := s.osActs a core x p
            let chunks := if p.rings.isEmpty then 0 else ceilDiv p.k 8
            let r := { r0 with
              wet := x.osInit p, poisoned := acts.2, poisonAt := (s.firstPoison a fp.reads).getD 0,
              os := some { chunksLeft := chunks, taken := [], acts := acts.1, ctags := [], fed := x.ringUse && !p.rings.isEmpty } }
            .next ((s.translate a core fp).setCtx a core
              { x.takeLath.takePass with active := [], shadow := [], swapAhead := false, passes := x.passes ++ [r] })

/-- The bytes of runs of the Hawk part. -/
def State.runBytes (s : State) (c : Nat) (x : Ctx) (runs : List (Nat × Nat)) : List Byte :=
  runs.flatMap (fun r => s.hawkBytes c x r.1 r.2)

/-- One chunk taken from ring r by a pass (spec/08 R244, R245). -/
def State.takeChunk (s : State) (c : Nat) (x : Ctx) (q : QOp) (o : OsWork) (r : Nat) : OsWork × Ctx × Bool :=
  let (_, wfmt, wblk, _, _, n, tr, _, _) := q.osShape
  let size := chunkBytes wfmt wblk n
  let g := x.ring r
  let runs := x.ringRuns r g.drain size
  let bs := s.runBytes c x runs
  let tags := (List.range n).map (fun i =>
    if tr then Tag.common
    else tagMerge ((x.ringRuns r (g.drain + i * wfmt.bits) wfmt.bits).map (fun u => s.hawkTag c x u.1 u.2)))
  let merged := match o.ctags.find r with
    | none => tags
    | some old => (old.zip tags).map (fun p => tagMerge [p.1, p.2])
  ({ o with taken := o.taken.set r (Tbl.get [] o.taken r ++ bs), ctags := o.ctags.set r merged },
    { x with rings := x.rings.set r { g with drain := g.drain + size } },
    runs.any (fun u => s.hawkPoisoned c x u.1 u.2))

/-- OS_CHUNK_READY: the pass takes its next chunk from every ring that it reads, when each is wholly filled (spec/08
R245). In the Green, a transposed pass whose next chunk holds bytes of a Larder page that were staged after its start ends refused
(spec/11 R339, log entry 91). -/
def execOsChunkReady (core : Nat) (s : State) : Res :=
  match s.resident core with
  | none => .next s
  | some (a, x) =>
    match x.passes with
    | p :: rest =>
      match p.os with
      | none => .next s
      | some o =>
        let (_, wfmt, wblk, _, _, n, tr, _, _) := p.q.osShape
        let size := chunkBytes wfmt wblk n
        let rings := p.q.osRings
        if o.chunksLeft != 0 && tr && s.isGreen a && s.ringsOwned core x rings (fun _ => 0) size then
          .next ((s.setCtx a core { x with passes := { p with status := some .accessDenied, os := none, wet := [], fp := {} } :: rest }).drainPasses
            a core x.passes.length)
        else if o.chunksLeft = 0 || rings.any (fun r => decide ((x.ring r).fill - (x.ring r).drain < size)) then .next s
        else
          let r := rings.foldl (fun (acc : OsWork × Ctx × Bool) i =>
            let t := s.takeChunk core acc.2.1 p.q acc.1 i
            (t.1, t.2.1, acc.2.2 || t.2.2)) (o, x, false)
          let p1 := { p with os := some { r.1 with chunksLeft := o.chunksLeft - 1 }, poisoned := p.poisoned || r.2.2 }
          .next (s.setCtx a core { r.2.1 with passes := p1 :: rest })
    | [] => .next s

/-- The results of an output-stationary pass over the chunks it has taken (spec/05 R145). -/
def PassRun.osOuts (p : PassRun) (o : OsWork) : List ElemOut :=
  let (afmt, wfmt, wblk, _, k, n, tr, wrap, uni) := p.q.osShape
  let base := ((p.q.f 99 89 : Int) + p.q.dD).toNat
  o.acts.flatMap (fun r =>
    let ring := if uni then r.lath else 0
    let bs := Tbl.get [] o.taken ring
    let tags := Tbl.get [] o.ctags ring
    (List.range n).map (fun c =>
      let key := tubKey r.lath (base + r.m) c
      let ws := (List.range k).map (fun i =>
        let e := streamCode wfmt wblk tr n bs i c
        valOf wfmt e.1 e.2)
      elemOut wfmt afmt wrap p.clear key (Tbl.get {} p.wet key) (actVals afmt r.codes) ws r.tag (tags.getD c .common)))

/-! ### Commit -/

/-- The Tub with a pass's wet values dry (spec/04 R106). -/
def Ctx.commitWet (x : Ctx) (wet : Tbl TubElem) : Ctx :=
  { x with
    tub := wet.foldl (fun t e => t.set e.1 e.2) x.tub
    touched := wet.foldl (fun l e => insertNat l (e.1 / 128)) x.touched }

/-- A pass whose results are final: an output-stationary one has formed them. -/
def PassRun.final (p : PassRun) : Option PassRun :=
  match p.os with
  | none => some p
  | some o => if o.chunksLeft = 0 then some ({ p with wet := [] }.take (p.osOuts o) (fun key => key % 128)) else none

/-- PASS_COMMIT (spec/04 R106, R108, R112): the oldest started pass, once a load ahead of it has completed (spec/07 R202), commits all its
results, counts, writes its record and increments its mark; a pass that a poisoned word touched is discarded by R117 instead. -/
def execPassCommit (core : Nat) (s : State) : Res :=
  match s.resident core with
  | none => .next s
  | some (a, x) =>
    match x.passes with
    | p0 :: rest =>
      match p0.final with
      | none => .next s
      | some p =>
        if p.behindLoad then .next s
        else if p.status.isSome then .next (s.drainPasses a core x.passes.length)
        else if p.poisoned then .next (s.takeFault a core .lath .poison p.poisonAt p.idx)
        else
          let x1 := { x.commitWet p.wet with passes := rest }
          let s1 := ((((s.setCtx a core x1).count a p.ev).perf a 1 p.steps).perf a 2 1).writeRecord a core p .ok p.q.mark
          .next ((s1.petWatchdog a).drainPasses a core rest.length)
    | [] => .next s

/-! ### Splits -/

/-- SPLIT_APPLY (spec/05 R123). -/
def execSplitApply (core : Nat) (s : State) : Res :=
  match s.lathReady core with
  | none => .next s
  | some (a, x, q, _) =>
    if q.op ≠ 5 || !x.startedPasses.isEmpty || x.load != none then .next s
    else
      .next ((s.setCtx a core
        ({ x.takeLath with split := q.f 127 126, active := [], shadow := [], swapAhead := false }.bumpMark q.mark)).petWatchdog a)

end Sys2Proof.Machine
end

