-- ==== Sys2Proof/Machine/Trowel.lean ====
section
/-! DEFINITION. The Trowel engine: the head of its queue, gathered rows, completions and provisional ranges (spec/07 R202
to R228, spec/08 R243 to R248, spec/09 R264 to R282, spec/11 R338, R339, spec/13 R391 to R395). -/

namespace Sys2Proof.Machine

/-! ### Rows by address -/

/-- The offset of an address in the Green's region of intake or of outlet rows (spec/10 R296). -/
def greenOff (va : Nat) : Nat := if 0x780000000000 ≤ va then va - 0x780000000000 else va - 0x700000000000

/-- The bytes from an address to the end of its row: a tag-map row, a Green slot row counted from its region's base, or the page, cut
where a mapped row begins (spec/06 R164, spec/10 R296). A slot row may run on into the next page. -/
def State.rowRoom (s : State) (a c va : Nat) : Nat :=
  match s.tagRowAt a c va with
  | some (e, i) => e.base + (i + 1) * e.pitch - va
  | none =>
    let page := pageSize va - va % pageSize va
    let maps := if va < loftVa then [] else (s.allotCores a).flatMap (fun d => (s.ctx a d).tagMap)
    let toRow := (maps.map (fun e => e.2.base)).foldl (fun m b => if va < b then min m (b - va) else m) page
    match (if s.isGreen a then s.greenSlotAt va else none) with
    | some _ =>
      let len := s.reg 0x3000 0x04
      if len = 0 then toRow else len - greenOff va % len
    | none => toRow

/-- The tags of the rows that a byte range draws on, in address order; fuel bounds their number. -/
def State.tagsFrom (s : State) (a c : Nat) : Nat → Nat → Nat → List Tag
  | 0, _, _ => []
  | fuel + 1, va, len =>
    if len = 0 then []
    else
      let room := max 1 (s.rowRoom a c va)
      s.tagAt a c va :: s.tagsFrom a c fuel (va + room) (len - room)

/-- The tags of the rows that a byte range draws on. -/
def State.tagsOver (s : State) (a c va len : Nat) : List Tag := s.tagsFrom a c len va len

/-- The runs of a byte range that come from common rows, as offset and length, and the number of its other rows; fuel bounds the rows. -/
def State.commonRuns (s : State) (a c va : Nat) : Nat → Nat → Nat → List (Nat × Nat) × Nat
  | 0, _, _ => ([], 0)
  | fuel + 1, off, len =>
    if len = 0 then ([], 0)
    else
      let n := min len (max 1 (s.rowRoom a c (va + off)))
      let r := s.commonRuns a c va fuel (off + n) (len - n)
      if s.tagAt a c (va + off) == .common then ((off, n) :: r.1, r.2) else (r.1, r.2 + 1)

/-- The Green's outlet slot that an address lies in (spec/10 R296). -/
def State.outletSlot (s : State) (va : Nat) : Option Nat := if 0x780000000000 ≤ va then s.greenSlotAt va else none

/-- Whether the Green may write a row of a tag at an address (spec/10 R300). -/
def State.mayWriteTag (s : State) (a c : Nat) (t : Tag) (va : Nat) : Bool :=
  match t with
  | .common => true
  | .mixed => false
  | .tenant _ _ =>
    match s.tagRowAt a c va with
    | some (e, i) => s.rosterTag a (e.first + i) == t
    | none => match s.outletSlot va with
      | some k => s.rosterTag a k == t
      | none => false

/-- The owner of the Larder page that an address lies in (spec/11 R339). -/
def State.larderOwner (s : State) (a va : Nat) : Option Nat := if inLarder va then (s.pageOf a va).map PageDesc.owner else none

/-- Whether a range touches a Larder page. -/
def larderIn (va len : Nat) : Bool := decide (0 < len) && decide (0x600000000000 < va + len) && decide (va < 0x700000000000)

/-! ### Writing the Hawk (spec/09 R255, R267, spec/11 R339, spec/06 R540) -/

/-- A source added to those of a unit, in its place by source address. -/
def addSource : UnitSrc → Nat × List Tag → UnitSrc
  | [], e => [e]
  | f :: l, e => if e.1 < f.1 then e :: f :: l else f :: addSource l e

/-- Bytes put into the Hawk part at an offset. src gives, for a run of the bytes by position and length, the source ranges
that hold them; none for bytes that no source row holds. seen: where the bytes come from that the transfer has written of each
unit before, which begins anew when it writes the unit's first byte; the second component is that after these bytes (spec/06 R540). A unit
of zeros alone takes the common tag when they fill it, and else keeps its tag (log entry 92). -/
def State.putHawk (s : State) (a c : Nat) (x : Ctx) (off : Nat) (bs : List PByte) (src : Nat → Nat → List (Nat × Nat))
    (seen : Tbl UnitSrc) : State × Tbl UnitSrc :=
  let lo := x.hawkBase + off
  let hi := lo + bs.length
  let k := s.core c
  let units := hawkUnits x off bs.length
  let part := fun (u : Nat) => (max lo (64 * u), min hi (64 * u + 64))
  let whole := fun (u : Nat) => decide (lo ≤ 64 * u) && decide (64 * u + 64 ≤ hi)
  let srcOf := fun (u : Nat) => src ((part u).1 - lo) ((part u).2 - (part u).1)
  let drawnBy := fun (u : Nat) => (srcOf u).any (fun r => s.anyPage a r.1 r.2 (fun _ d => d.draw))
  let ownerBy := fun (u : Nat) => (srcOf u).findSome? (fun r => (pagesOf r.1 r.2).findSome? (s.larderOwner a))
  let from' := fun (u : Nat) =>
    let old := if lo ≤ 64 * u then [] else Tbl.get [] seen u
    (srcOf u).foldl (fun l r => addSource l (r.1, s.tagsOver a c r.1 r.2)) old
  let tagged := units.map (fun u => (u, from' u))
  let words := (List.range ((hi + 7) / 8 - lo / 8)).map (fun i => (lo / 8 + i) * 8)
  let bad := words.filter (fun w => ((bs.zip (List.range bs.length)).any (fun b => b.1.2 && (lo + b.2) / 8 * 8 == w)))
  let cleared := fun (w : Nat) => decide (lo ≤ w) && decide (w + 8 ≤ hi) && !bad.contains w
  (s.setCore c
    { k with
      hawk := (bs.zip (List.range bs.length)).foldl (fun m b => m.set (lo + b.2) b.1.1) k.hawk
      drawn := units.foldl (fun l u => if drawnBy u then insertNat l u else if whole u then l.filter (· != u) else l) k.drawn
      owners := units.foldl (fun m u => match ownerBy u with
        | some o => m.set u o
        | none => if whole u then m.erase u else m) k.owners
      hawkTags := tagged.foldl (fun m u =>
        if u.2.isEmpty then (if whole u.1 then m.set u.1 .common else m) else m.set u.1 (tagMerge (u.2.flatMap Prod.snd))) k.hawkTags
      hawkPoison := bad.foldl insertNat (k.hawkPoison.filter (fun w => !cleared w)) },
   tagged.foldl (fun m u => m.set u.1 u.2) seen)

/-! ### Checks at the head of the queue -/

/-- The weight block kind of an EXPAND copy, and its columns. -/
def QOp.tBlk (q : QOp) : Option Blk := (blkOf (q.f 71 69)).filter (· != .none)
def QOp.tCols (q : QOp) : Nat := q.f 92 85 + 1

/-- A Trowel operation that R240, R248 or R250 refuses, or order 1 of the table Transfer checks. -/
def QOp.trowelMalformed (q : QOp) : Bool :=
  let rows := q.isGather || q.isScatter
  let noD := q.tDkind == 2 || q.isScatter
  !(q.isCopy || rows) || q.badHeader rows || q.f 68 32 != 0 || q.tDkind == 3 || q.tMode == 3 ||
    (q.tRing != 0 && q.tDkind != 2) || (q.tExpand && !(q.isCopy && q.tDkind == 2)) || (noD && q.f 122 118 != 0) ||
    (q.tMode == 0 && q.f 105 101 != 0) || (!q.tRmk && q.tRcore != 0) || (q.isScatter && q.tDkind != 0) || decide (2 ^ 32 ≤ q.tLen) || (rows && decide (65536 < q.tLen)) ||
    (q.tExpand && (q.f 84 72 != 0 || q.tBlk.isNone)) ||
    (q.tExpand && q.tLen % expandBytes (q.tBlk.getD .row16) q.tCols != 0) ||
    !q.strideOnly (!(q.isGather && q.f 127 123 == 0)) false (!noD)

/-- The word that TMODE 0b10 writes. -/
def QOp.tWord (q : QOp) : Nat := q.reg 101

/-- The house that a copy into the fabric window names, when the range stays within one other house (spec/13 R391). -/
def State.fabricHouse (s : State) (q : QOp) : Option Nat :=
  match natOf q.tDst with
  | none => none
  | some d =>
    let h := fld d 43 35
    let last := d + (q.tLen - 1)
    if inFabric d && inFabric last && fld last 43 35 == h && h != s.house then some h else none

/-- The checks of a Trowel operation at the head of its queue (spec/09 R264, spec/07 R214, spec/09 R281, spec/11 R338, R339,
spec/13 R391), but for hazards. -/
def State.trowelCheck (s : State) (a c : Nat) (x : Ctx) (q : QOp) : Status :=
  if q.trowelMalformed then .shapeMismatch
  else
    let va := fun (i : Int) => (natOf i).getD (2 ^ 48)
    let win := s.windowOf a c
    let src : List VRange :=
      if q.isCopy then (if q.tLen = 0 then [] else [⟨va q.tSrc, q.tLen⟩])
      else if q.isGather && q.f 127 123 != 0 then [⟨va q.tSrc, q.tRowLen⟩]
      else []
    let word : List VRange := if q.tMode = 2 then [⟨q.tWord, 4⟩] else []
    let dst : List VRange := if q.isCopy && q.tDkind = 0 && q.tLen ≠ 0 && !q.tFabric then [⟨va q.tDst, q.tLen⟩] else []
    let span := if q.tLen = 0 then 0 else if q.isCopy then q.tLen else (q.tLen - 1) * q.tStride + q.tRowLen
    if (q.isGather && q.tDkind != 2 && vaBad q.tDst) || (q.isScatter && vaBad q.tSrc) then .accessDenied
    else if q.tRmk && !q.tFabric && (s.coreAt a q.tRcore).isNone then .accessDenied
    else if q.tDkind == 1 && q.tLen != 0 && decide (x.hawkLen < va q.tDst + span) then .accessDenied
    else if q.tMode == 2 && !(decide (win ≤ q.tWord) && decide (q.tWord + 4 ≤ win + windowSize)) then .accessDenied
    else if q.tFabric && q.tLen != 0 && (s.fabricHouse q).isNone then .accessDenied
    else if s.isGreen a && q.isCopy && larderIn (va q.tSrc) q.tLen then .accessDenied
    else s.transferCheck a src (dst ++ word) (q.tDkind != 0)

/-- What a Trowel operation reads and writes, as far as it is known at its start. -/
def QOp.trowelFp (q : QOp) : Footprint :=
  { reads := q.tSrcRngs
    writes := q.tDstRngs ++ (if q.tMode = 2 then [vaRng q.tWord 4] else []) }

/-- Whether a transfer into a ring adds its bytes to the fill count only when it has ended: under TMODE 0b01, and in an epoch (spec/07 R226,
spec/09 R281). -/
def QOp.ringHeld (q : QOp) : Bool := q.tMode == 1 || q.epoch.isSome

/-- The bytes that a ring copy appends for each unit that it moves as a whole, and the source bytes of one: under EXPAND a chunk. -/
def QOp.ringStep (q : QOp) : Nat × Nat :=
  if q.tExpand then
    let b := q.tBlk.getD .row16
    (chunkBytes .cf4 b q.tCols, expandBytes b q.tCols)
  else (1, 1)

/-- Started Trowel operations. -/
def Ctx.startedTrowels (x : Ctx) : List TrowelRun := x.trowels.filter (fun t => t.refused == none)

/-- The bytes of ring r that provisional transfers of open epochs hold. -/
def Ctx.ringPending (x : Ctx) (r : Nat) : Bool :=
  x.epochs.any (fun e => e.state == .opened &&
    ((Tbl.get 0 e.ringBytes r) != 0 ||
      x.startedTrowels.any (fun t => t.q.tDkind == 2 && t.q.tRing == r && t.q.epoch == some e.serial)))

/-- Whether something uses the Hawk part by offset: a started load, transfer to an offset, or pass with a Hawk-fed stream (spec/19 R528). -/
def Ctx.offsetUse (x : Ctx) : Bool :=
  x.load.isSome || x.startedTrowels.any (fun t => t.q.tDkind == 1) ||
    x.passes.any (fun p => p.status.isNone && p.os.isNone && p.fp.reads.any (fun r => r.space == .hawk))

/-- Whether an earlier operation of the Trowel has still to write what a copy into the fabric window sends (spec/07 R202). -/
def Ctx.sourceDue (x : Ctx) (fp : Footprint) : Bool :=
  x.startedTrowels.any (fun t => !t.q.tFabric &&
    (rngsMeet t.fp.writes fp.reads || (t.q.isScatter && decide (t.rowsDone < t.q.tLen))))

/-- A transfer tag that is free: the lowest (spec/13 R395). -/
def State.freeTag (s : State) : Option Nat :=
  (List.range 1024).find? (fun t => match s.xfers.find t with | none => true | some x => x.phase == .free)

/-- The tag-map row or page of every range is present: none is spilled. -/
def State.trowelSpilled (s : State) (a : Nat) (q : QOp) : Bool :=
  (q.trowelFp.reads ++ q.trowelFp.writes).any (fun r =>
    r.space == .va && (rngRuns r).any (fun run => s.spilledIn a run.1 (run.2 - run.1)))

/-- The Trowel's operations of every allotment on a core that have left their queue and are not complete (spec/07 R201). -/
def State.trowelsOn (s : State) (c : Nat) : List TrowelRun := (s.coreAllots c).flatMap (fun b => (s.ctx b c).trowels)

/-- The bytes that a transfer into a ring appends, at most. -/
def QOp.ringLen (q : QOp) : Nat :=
  if q.isCopy then q.tLen / q.ringStep.2 * q.ringStep.1 else q.tLen * q.tRowLen

/-- The Hawk ranges that a transfer into a ring will write: behind what the ring holds and what started transfers have still to append to
it. -/
def Ctx.ringWrites (x : Ctx) (q : QOp) : List Rng :=
  if q.tDkind = 2 then
    let due := (x.startedTrowels.filter (fun t => t.q.tDkind == 2 && t.q.tRing == q.tRing)).map (fun t =>
      t.q.ringLen - (if t.q.ringHeld then 0 else t.moved))
    x.ringRngs q.tRing ((x.ring q.tRing).fill + due.foldl (· + ·) 0) q.ringLen
  else []

/-- The provisional ranges that an operation takes when it starts: one for a TMODE 0b01 transfer outside an epoch (spec/07 R226, spec/09
R281). -/
def QOp.startRngs (q : QOp) : Nat := if q.tMode == 1 && q.epoch.isNone && !q.tFabric then q.tDstRngs.length else 0

/-- Whether an accepted operation must wait at the head of the Trowel queue for anything but ranges of its own: a provisional or unsettled
range (spec/07 R226, spec/09 R281), scoreboard room (spec/07
R224), the Tally instance (spec/19 R531), offset use or ring use to end (R528), an open epoch's bytes in its ring (spec/07 R226), a
transfer tag (spec/13 R395), the bytes that it sends (spec/07 R202), or a started gather or scatter, which holds the queue while it has no
entry (R207) or finds no free range for its row (R226). -/
def State.trowelHeld (s : State) (a c : Nat) (x : Ctx) (q : QOp) (fp : Footprint) : Bool :=
  x.mustWait q { fp with writes := fp.writes ++ x.ringWrites q } || !x.boardRoom (s.windowOf a c) fp ||
    (q.tMode != 0 && (s.trowelsOn c).any (fun t => t.refused == none && t.q.tMode != 0)) ||
    (q.tDkind == 1 && x.ringUse) || (q.tDkind == 2 && (x.offsetUse || x.ringPending q.tRing)) ||
    (q.tFabric && q.tLen != 0 && (s.freeTag.isNone || x.sourceDue fp)) ||
    x.startedTrowels.any (fun t => !t.q.isCopy && decide (t.rowsDone < t.q.tLen) &&
      (x.fifo.isEmpty || (t.q.isScatter && (t.q.epoch.isSome || !t.settled) && decide (64 ≤ x.provUsed))))

/-- Whether an accepted operation must wait at the head of the Trowel queue (spec/19 R535). -/
def State.trowelWaits (s : State) (a c : Nat) (x : Ctx) (q : QOp) (fp : Footprint) : Bool :=
  s.trowelHeld a c x q fp || (q.startRngs != 0 && decide (64 < x.provUsed + q.startRngs))

/-- The passes that read rings, while a copy into a ring starts: ring use lasts until they commit (spec/19 R528). -/
def PassRun.feed (p : PassRun) : PassRun :=
  { p with os := p.os.map (fun (o : OsWork) => { o with fed := o.fed || !p.q.osRings.isEmpty }) }

/-- The head of the Trowel queue taken into the list of started operations. -/
def Ctx.takeTrowel (x : Ctx) (t : TrowelRun) : Ctx :=
  { x.takeIndex .trowel with
    trowelQ := takeIter x.trowelQ, trowels := x.trowels ++ [t]
    passes := if t.refused == none && t.q.tDkind == 2 then x.passes.map PassRun.feed else x.passes }

/-! ### Completion -/

/-- A mark on a core of the allotment incremented; one that a cancelled epoch holds back is kept for its closing (spec/07
R228). -/
def State.trowelMarkUp (s : State) (a c : Nat) (q : QOp) : State :=
  match s.trowelMark a c q with
  | none => s
  | some m =>
    let held : Option Epoch := match q.epoch with
      | none => none
      | some e => (s.ctx a c).epochs.find? (fun (p : Epoch) => p.serial == e && p.state == EpochState.cancelled)
    match held with
    | some p => s.modCtx a c (fun x => x.modEpoch p.serial (fun e => { e with marks := e.marks ++ [m.1 * 64 + m.2] }))
    | none => s.modCtx a m.1 (fun x => x.bumpMark (some m.2))

/-- A Trowel operation completed with a status; noted is false when its rows have told the register already (spec/09 R274). -/
def State.trowelDone (s : State) (a c : Nat) (t : TrowelRun) (st : Status) (noted : Bool) : State :=
  let s1 := if noted then s.modCtx a c (fun x => x.note .trowel st t.idx) else s
  (s1.trowelMarkUp a c t.q).petWatchdog a

/-- The refused operations at the front of the started list complete in order (spec/07 R202); fuel is the list's length. -/
def State.drainTrowels (s : State) (a c : Nat) : Nat → State
  | 0 => s
  | fuel + 1 =>
    match (s.ctx a c).trowels with
    | t :: rest =>
      match t.refused with
      | some st => ((s.modCtx a c (fun x => { x with trowels := rest })).trowelDone a c t st true).drainTrowels a c fuel
      | none => s
    | [] => s

/-! ### Fabric copies (spec/13 R392, R393) -/

/-- The flits of a copy into the fabric window: one OPEN with the total, then the DATA of each run of its bytes. -/
def State.copyFlits (s : State) (a : Nat) (q : QOp) (house tag : Nat) (gen : Bool) (runs : List (Nat × List Byte)) : List Flit :=
  let base : Flit := { kind := 3, vc := 2, dest := house, src := s.house, household := s.reg (0x3100 + a) 0x0F }
  let d0 := fld ((natOf q.tDst).getD 0) 34 0
  let cx := tag * 2 ^ 36 + b2n gen * 2 ^ 35
  let total := (runs.map (fun r => r.2.length)).foldl (· + ·) 0
  { base with ctx := cx, body := .openX total (if q.tRmk then q.mark.map (fun m => (q.tRcore, m)) else none) } ::
    runs.flatMap (fun r => (piecesAt 236 r.2).map (fun p =>
      ({ base with kind := 4, ctx := cx + (d0 + r.1 + p.1) % 2 ^ 35, body := .bytes p.2 } : Flit)))

/-- A copy into the fabric window starts (spec/13 R392, R395): a house outside the topology ends it with MEMBER_LOST (R397); its Tally
is computed over what it sends, and a failed check sends nothing (spec/09 R281); in the Green the rows of tenants and mixed rows stay
behind (spec/10 R300); a tag is taken, and its flits leave. Log entry 93. -/
def State.startFabric (s : State) (a c : Nat) (x : Ctx) (q : QOp) (t0 : TrowelRun) : State :=
  let src := (natOf q.tSrc).getD 0
  let bs := s.readVa a src q.tLen
  let t := { t0 with crc := crcBytes t0.crc bs }
  let ended := fun (t : TrowelRun) (st : Status) => s.setCtx a c (x.takeTrowel { t with fabricDone := some st })
  match s.fabricHouse q with
  | none => ended t (if q.tMode = 1 ∧ (crcValue t.crc).toNat ≠ fld (q.reg 101) 31 0 then .tallyMismatch else .ok)
  | some h =>
    if !s.reachable h then ended t .memberLost
    else if q.tMode = 1 ∧ (crcValue t.crc).toNat ≠ fld (q.reg 101) 31 0 then ended t .tallyMismatch
    else
      let runs := if s.isGreen a then s.commonRuns a c src q.tLen 0 q.tLen else ([(0, q.tLen)], 0)
      let t1 := { t with refusals := runs.2 }
      match s.freeTag, runs.1.isEmpty with
      | some tag, false =>
        let gen := match s.xfers.find tag with | none => false | some y => y.gen
        let s1 := { s with xfers := s.xfers.set tag { allot := a, core := c, house := h, gen := gen, phase := .opened } }
        let sent := (runs.1.map (fun r => r.2)).foldl (· + ·) 0
        (s1.setCtx a c (x.takeTrowel { t1 with xtag := some tag, moved := sent })).sendFlits
          (s.copyFlits a q h tag gen (runs.1.map (fun r => (r.1, (bs.drop r.1).take r.2))))
      | _, _ => ended t1 .ok

/-- The prefix that the Tally of a Trowel operation absorbs first (spec/09 R279, R280). -/
def QOp.tPrefix (q : QOp) (a : Nat) : List Byte :=
  let at' := if q.isScatter || (q.isCopy && q.tDkind != 0) then q.tSrc else q.tDst
  tallyHead a (fld ((natOf at').getD 0) 47 0)

/-- TRANSFER_CHECK: the head of the Trowel queue, when the Trowel has fewer than its 448 started operations (spec/07 R201), is checked in the
order of the table Transfer checks; it is refused, or starts when nothing holds it (spec/09 R264). -/
def execTransferCheck (core : Nat) (s : State) : Res :=
  match s.onCore core with
  | none => .next s
  | some (a, x) =>
    match x.trowelQ with
    | [] => .next s
    | q :: _ =>
      let idx := x.nextIndex .trowel
      let refuse := fun (t : State) (st : Status) =>
        (t.setCtx a core (x.takeTrowel { idx := idx, q := q, refused := some st })).drainTrowels a core (x.trowels.length + 1)
      if s.trowelSpilled a q || decide (448 ≤ (s.trowelsOn core).length) then .next s
      else match s.trowelCheck a core x q with
        | .ok =>
          let fp := q.trowelFp
          if s.trowelWaits a core x q fp then .next s
          else if x.hazard (s.windowOf a core) .trowel fp then .next (refuse (s.noteHazard a core) .hazard)
          else
            let t : TrowelRun :=
              { idx := idx, q := q, settled := q.tMode != 1 || q.tFabric, fp := fp, crc := crcBytes 0xFFFFFFFF (q.tPrefix a) }
            let s := s.translate a core fp
            if q.tFabric then
              let va := (natOf q.tSrc).getD 0
              (match (s.readP a va q.tLen).findIdx? Prod.snd with
              | some i =>
                .next (((s.setCtx a core (x.takeTrowel { t with refused := some .passAbortedFault })).drainTrowels a core
                  (x.trowels.length + 1)).takeFault a core .trowel .poison (va + i) idx)
              | none => .next (s.startFabric a core x q t))
            else .next (s.setCtx a core (x.takeTrowel t))
        | st => .next (refuse s st)

/-! ### Gathered and scattered rows -/

/-- The oldest Trowel operation of an allotment on a core, when the core's ward is not held. -/
def State.oldestTrowel (s : State) (a c : Nat) : Option (Ctx × TrowelRun × List TrowelRun) :=
  if s.wardHeld (c / 32) then none
  else match s.ctx? a c with
    | none => none
    | some x => match x.trowels with
      | t :: rest => some (x, t, rest)
      | [] => none

/-- A row's place: source and destination address, with none for the zeros of a zero entry. -/
structure RowPlace where
  src : Option Nat
  dst : Nat
  deriving DecidableEq, Repr

/-- The place of the next row of a gather or scatter under a FIFO entry; none for a scatter's zero entry (spec/07 R208,
spec/08 R248). -/
def TrowelRun.rowPlace (t : TrowelRun) (e : FifoEntry) : Option RowPlace :=
  let i := t.rowsDone
  if t.q.isGather then some { src := e, dst := (natOf t.q.tDst).getD (2 ^ 48) + i * t.q.tStride }
  else e.map (fun va => { src := some ((natOf t.q.tSrc).getD (2 ^ 48) + i * t.q.tStride), dst := va })

/-- What a row reads, and what it writes; a row into a weight ring writes no range (spec/07 R226). -/
def TrowelRun.rowFp (t : TrowelRun) (p : RowPlace) : Footprint :=
  { reads := match p.src with | some va => [vaRng va t.q.tRowLen] | none => []
    writes := if t.q.tDkind = 2 then [] else [{ space := dkindSpace t.q.tDkind, base := p.dst, len := t.q.tRowLen }] }

/-- The status of a row's own checks: the table Transfer checks through its order 8 (spec/09 R264, R274, spec/11 R339). -/
def State.rowCheck (s : State) (a c : Nat) (x : Ctx) (t : TrowelRun) (p : RowPlace) : Status :=
  let q := t.q
  let len := q.tRowLen
  let larder := match p.src with | some va => larderIn va len | none => false
  if s.isGreen a && larder && q.isGather && q.f 127 123 == 0 then .accessDenied
  else
    match s.transferCheck a (match p.src with | some va => [⟨va, len⟩] | none => []) (if q.tDkind = 0 then [⟨p.dst, len⟩] else [])
      (q.tDkind != 0) with
    | .ok => if x.hazard (s.windowOf a c) .trowel (t.rowFp p) then .hazard else .ok
    | st => st

/-- Whether a gathered row meets a guard of another owner (spec/11 R338). -/
def State.guardStops (s : State) (a c : Nat) (q : QOp) (tag : Tag) : Bool :=
  q.isGather && q.f 127 123 != 0 && isTenantTag tag &&
    (let g := s.tagAt a c ((natOf q.tSrc).getD 0)
     !isTenantTag g || tagOwner g != tagOwner tag)

/-! ### Where bytes go -/

/-- What placing bytes has done: the state, the sources of the Hawk units written, the destination rows that a tag rule kept from being
written, and the bytes written. -/
structure Placed where
  s : State
  seen : Tbl UnitSrc
  refused : Nat := 0
  bytes : Nat
  deriving DecidableEq, Repr

/-- Bytes moved into virtual addresses in the Green: each destination row is written when every source row allows it
(spec/10 R300); the state, the rows refused and the bytes written. -/
def State.copyRows (s : State) (a c : Nat) : Nat → Nat → Nat → List PByte → State × Nat × Nat
  | 0, _, _, _ => (s, 0, 0)
  | fuel + 1, src, dst, bs =>
    if bs.isEmpty then (s, 0, 0)
    else
      let n := min bs.length (max 1 (s.rowRoom a c dst))
      let ok := (s.tagsOver a c src n).all (fun g => s.mayWriteTag a c g dst)
      let s1 := if ok then s.writeP a dst (bs.take n) else s
      let r := s1.copyRows a c fuel (src + n) (dst + n) (bs.drop n)
      (r.1, r.2.1 + b2n (!ok), r.2.2 + if ok then n else 0)

/-- Bytes moved to virtual addresses; src: where they come from, none for zeros. -/
def State.placeVa (s : State) (a c : Nat) (src : Option Nat) (dst : Nat) (bs : List PByte) : Placed :=
  match (if s.isGreen a then src else none) with
  | some va =>
    let r := s.copyRows a c bs.length va dst bs
    { s := r.1, seen := [], refused := r.2.1, bytes := r.2.2 }
  | none => { s := s.writeP a dst bs, seen := [], bytes := bs.length }

/-- Bytes moved into the Hawk part. -/
def State.placeHawk (s : State) (a c : Nat) (x : Ctx) (src : Option Nat) (off : Nat) (bs : List PByte) (seen : Tbl UnitSrc) : Placed :=
  let r := s.putHawk a c x off bs (fun i n => src.toList.map (fun va => (va + i, n))) seen
  { s := r.1, seen := r.2, bytes := bs.length }

/-- Bytes appended to a ring from a count on (spec/08 R245); src gives the source range of a run of them. -/
def State.appendRing (s : State) (a c : Nat) (x : Ctx) (ring count : Nat) (bs : List PByte) (src : Nat → Nat → List (Nat × Nat))
    (seen : Tbl UnitSrc) : State × Tbl UnitSrc :=
  match x.ringRuns ring count bs.length with
  | [r1, r2] =>
    let p1 := s.putHawk a c x r1.1 (bs.take r1.2) src seen
    if r2.2 = 0 then p1 else p1.1.putHawk a c x r2.1 (bs.drop r1.2) (fun i n => src (r1.2 + i) n) p1.2
  | _ => (s, seen)

/-- A ring's fill count raised. -/
def Ctx.fillRing (x : Ctx) (r n : Nat) : Ctx := { x with rings := Tbl.modify {} x.rings r (fun g => { g with fill := g.fill + n }) }

/-- The space of a ring for the next bytes of a transfer. -/
def TrowelRun.ringRoom (t : TrowelRun) (x : Ctx) : Nat :=
  let g := x.ring t.q.tRing
  x.hawkLen / 4 - (g.fill - g.drain) - (if t.q.ringHeld then t.moved else 0)

/-- A gathered row appended to its ring: counted at once, or with the others when the gather ends (log entry 90). -/
def State.placeRing (s : State) (a c : Nat) (x : Ctx) (t : TrowelRun) (src : Option Nat) (bs : List PByte) : Placed :=
  let r := t.q.tRing
  let at' := (x.ring r).fill + (if t.q.ringHeld then t.moved else 0)
  let p := s.appendRing a c x r at' bs (fun i n => src.toList.map (fun va => (va + i, n))) t.unitSrc
  { s := if t.q.ringHeld then p.1 else p.1.modCtx a c (fun y => y.fillRing r bs.length), seen := p.2, bytes := bs.length }

/-- A row's bytes put where its operation's DKIND says. -/
def State.placeRow (s : State) (a c : Nat) (x : Ctx) (t : TrowelRun) (src : Option Nat) (dst : Nat) (bs : List PByte) : Placed :=
  match t.q.tDkind with
  | 0 => s.placeVa a c src dst bs
  | 1 => s.placeHawk a c x src dst bs t.unitSrc
  | _ => s.placeRing a c x t src bs

/-- One row moved: the state, the operation with the row taken in, and the address of poison that the row's Tally consumes. -/
def State.moveRow (s : State) (a c : Nat) (x : Ctx) (t : TrowelRun) (p : RowPlace) : State × TrowelRun × Option Nat :=
  let q := t.q
  let len := q.tRowLen
  match s.rowCheck a c x t p with
  | .ok =>
    let tag := match p.src with | some va => s.tagAt a c va | none => .common
    let stop := s.guardStops a c q tag
    let src := if stop then none else p.src
    let bs : List PByte := match src with | some va => s.readP a va len | none => List.replicate len (0, false)
    if q.tMode != 0 && bs.any Prod.snd then (s, t, src.map (· + bs.findIdx Prod.snd))
    else
      let r := s.placeRow a c x t src p.dst bs
      let fp := t.rowFp p
      (r.s,
       { t with
         refusals := t.refusals + r.refused + b2n stop
         crc := crcBytes t.crc (bs.map Prod.fst)
         rows := if r.bytes = 0 then t.rows else t.rows ++ fp.writes
         moved := t.moved + r.bytes
         unitSrc := r.seen
         fp := if q.isScatter then { t.fp with writes := t.fp.writes ++ fp.writes } else { t.fp with reads := t.fp.reads ++ fp.reads } }, none)
  | st =>
    let s1 := if st = .hazard then s.noteHazard a c else s
    (s1.modCtx a c (fun y => y.note .trowel st t.idx), { t with failed := t.failed.or (some st) }, none)

/-- The oldest Trowel operation completes with a status, and the refused ones behind it after it. The rows that a tag rule has refused are
counted, but for a transfer that fails its check (spec/00 R10, spec/09 R282). -/
def State.endTrowel (s : State) (a c : Nat) (t : TrowelRun) (rest : List TrowelRun) (st : Status) (noted : Bool) : State :=
  let failed := decide (st = .tallyMismatch)
  let s1 := s.count a { tagRefusals := if failed then 0 else t.refusals }
  (((s1.modCtx a c (fun x => { x with trowels := rest })).perf a 5 (if failed then 0 else t.moved)).trowelDone a c t st noted).drainTrowels a c
    rest.length

/-- Whether the rows of an operation take provisional ranges: those of a provisional or unsettled scatter (spec/07 R226, spec/09 R281). -/
def TrowelRun.rowRngs (t : TrowelRun) : Bool := t.q.isScatter && (t.q.epoch.isSome || !t.settled)

/-- Whether the next row must wait for anything but a range of its own (spec/07 R226, R271, spec/08 R245): for a spilled page, a provisional
or unsettled range; and, when it will be moved, for room on the scoreboard (spec/07 R224) or in its ring. -/
def State.rowHeld (s : State) (a c : Nat) (x : Ctx) (t : TrowelRun) (p : RowPlace) : Bool :=
  let fp := t.rowFp p
  let touched := (fp.reads ++ fp.writes).filter (fun r => r.space == .va)
  touched.any (fun r => s.spilledIn a r.base r.len) || x.mustWait t.q { reads := touched } ||
    (s.rowCheck a c x t p == .ok &&
      (!x.boardRoom (s.windowOf a c) (if t.q.isScatter then { writes := fp.writes } else { reads := fp.reads }) ||
        (t.q.tDkind == 2 && decide (t.ringRoom x < t.q.tRowLen))))

/-- Whether the next row must wait (spec/19 R535). -/
def State.rowWaits (s : State) (a c : Nat) (x : Ctx) (t : TrowelRun) (p : RowPlace) : Bool :=
  s.rowHeld a c x t p || (t.rowRngs && decide (64 ≤ x.provUsed))

/-- The free provisional ranges that go to claimants ahead of the next issue (spec/19 R535): one to the next row of a scatter that takes
ranges, and those of the head of the Trowel queue, when nothing else holds them. -/
def State.rangeClaims (s : State) (a c : Nat) (x : Ctx) : Nat :=
  (match x.trowels, x.fifo with
    | t :: _, e :: _ =>
      if t.refused.isNone && t.rowRngs && decide (t.rowsDone < t.q.tLen) then
        (match t.rowPlace e with | some p => b2n (!s.rowHeld a c x t p) | none => 0)
      else 0
    | _, _ => 0) +
  (match x.trowelQ with
    | q :: _ =>
      if !s.trowelSpilled a q && decide ((s.trowelsOn c).length < 448) && s.trowelCheck a c x q == .ok && !s.trowelHeld a c x q q.trowelFp then
        q.startRngs
      else 0
    | [] => 0)

/-- GATHER_ROW_MOVE: the oldest Trowel operation, a gather or scatter with rows left, consumes the FIFO's next entry and
moves its row (spec/07 R207, spec/09 R274). A row of a provisional scatter takes a range (spec/07 R226). -/
def execGatherRowMove (a core : Nat) (s : State) : Res :=
  match s.oldestTrowel a core with
  | none => .next s
  | some (x, t, rest) =>
    match x.fifo with
    | [] => .next s
    | e :: es =>
      if t.refused.isSome || t.q.isCopy || t.q.tLen ≤ t.rowsDone then .next s
      else
        let t1 := { t with rowsDone := t.rowsDone + 1 }
        let x1 := { x with fifo := es }
        match t.rowPlace e with
        | none => .next (s.setCtx a core { x1 with trowels := t1 :: rest })
        | some p =>
          if s.rowWaits a core x t p then .next s
          else
            let x2 := match t.q.epoch with
              | some n => if t.q.isScatter then
                  x1.modEpoch n (fun g => { g with ranges := g.ranges ++ [{ issue := t.q.issue, iter := t.q.taken, rng := vaRng p.dst t.q.tRowLen }] })
                  else x1
              | none => x1
            let r := ((s.translate a core (t.rowFp p)).setCtx a core x2).moveRow a core x2 t p
            match r.2.2 with
            | some va => .next ((r.1.endTrowel a core t1 rest .passAbortedFault true).takeFault a core .trowel .poison va t.idx)
            | none =>
              .next (r.1.modCtx a core (fun y => { y with trowels := { r.2.1 with rowsDone := t.rowsDone + 1 } :: rest }))

/-! ### Copies -/

/-- The source bytes of a copy that has started. -/
def State.copyBytes (s : State) (a : Nat) (q : QOp) : List PByte := s.readP a ((natOf q.tSrc).getD 0) q.tLen

/-- Whether the source and destination of a copy overlap (spec/09 R272). -/
def QOp.overlaps (q : QOp) : Bool :=
  match natOf q.tSrc, natOf q.tDst with
  | some a, some d => q.tDkind == 0 && decide (a < d + q.tLen) && decide (d < a + q.tLen)
  | _, _ => false

/-- Bytes put where a copy goes, other than a ring. -/
def State.putCopy (s : State) (a c : Nat) (x : Ctx) (q : QOp) (bs : List PByte) : Placed :=
  let src := natOf q.tSrc
  let dst := (natOf q.tDst).getD 0
  if q.tDkind = 1 then s.placeHawk a c x src dst bs [] else s.placeVa a c src dst bs

/-- The bytes that an EXPAND copy appends, and whether a bad chunk stops it (spec/08 R247). -/
def expandAll (b : Blk) (n : Nat) : List (List Byte) → List Byte × Bool
  | [] => ([], false)
  | c :: cs =>
    if expandBad n c then ([], true)
    else
      let r := expandAll b n cs
      (expandChunk n c ++ r.1, r.2)

/-- The bytes that a ring copy appends, and whether a bad chunk stops it. -/
def QOp.ringBytes (q : QOp) (bs : List PByte) : List PByte × Bool :=
  if q.tExpand then
    let b := q.tBlk.getD .row16
    let r := expandAll b q.tCols (pieces (expandBytes b q.tCols) bs.length (bs.map Prod.fst))
    (r.1.map (fun v => (v, false)), r.2)
  else (bs, false)

/-- The source ranges of a run of a copy's appended bytes (spec/06 R540): under EXPAND, in each chunk that the run touches, the code bytes,
the position bytes and the scale bytes that its bytes are formed from (spec/08 R247). -/
def QOp.ringSrc (q : QOp) (i n : Nat) : List (Nat × Nat) :=
  let base := (natOf q.tSrc).getD 0
  if q.tExpand then
    let u := q.ringStep
    let codes := 4 * q.tCols
    (List.range ((i + n - 1) / u.1 + 1 - i / u.1)).flatMap (fun j =>
      let k := i / u.1 + j
      let lo := max i (k * u.1) - k * u.1
      let hi := min (i + n) ((k + 1) * u.1) - k * u.1
      let at' := base + k * u.2
      let mid := min hi codes
      let sc := max lo codes
      (if lo < mid then [(at' + lo / 2, (mid + 1) / 2 - lo / 2), (at' + 2 * q.tCols + lo / 4, (mid + 3) / 4 - lo / 4)] else []) ++
        (if sc < hi then [(at' + 3 * q.tCols + (sc - codes), hi - sc)] else []))
  else [(base + i, n)]

/-- A started operation that is stopped leaves a free number of its bytes, in Loft with the whole aligned 8-byte word that the last of them
lies in (spec/07 R200, spec/10 R311, R314), and counts what it has met (spec/00 R10). A ring copy leaves those it has appended. -/
def State.stopPartial (s : State) (a c : Nat) (x : Ctx) (t : TrowelRun) : State :=
  let q := t.q
  let s0 := s.count a { tagRefusals := t.refusals }
  if !q.isCopy || q.tDkind = 2 || q.tFabric then s0
  else
    let d := s0.drawNat
    let dst := (natOf q.tDst).getD 0
    let n := min d.1 q.tLen
    let n' := if q.tDkind = 0 ∧ loftVa ≤ dst ∧ n ≠ 0 then ceilDiv (dst + n) 8 * 8 - dst else n
    let undef := d.2.drawBytes q.tLen
    let s1 := if q.overlaps then undef.2 else d.2
    let data : List PByte := if q.overlaps then undef.1.map (fun b => (b, false)) else s.copyBytes a q
    let r := s1.putCopy a c x q (data.take n')
    r.s.count a { tagRefusals := r.refused }

/-- The value of a Tally register against RT, or written at RT (spec/09 R281): the state, and whether the check fails. -/
def State.settleTally (s : State) (a : Nat) (q : QOp) (crc : Nat) (whole : Bool) : State × Bool :=
  if q.tMode = 1 then (s, !whole || (crcValue crc).toNat != fld (q.reg 101) 31 0)
  else if q.tMode = 2 then (s.writeVa a q.tWord (leBytes 4 (crcValue crc).toNat), false)
  else (s, false)

/-- The bytes of a transfer into a ring that were held back are added to its fill count, or to its epoch's (spec/07 R226, R228). -/
def State.releaseRing (s : State) (a c : Nat) (q : QOp) (n : Nat) : State :=
  s.modCtx a c (fun y =>
    let epoch : Option Epoch := q.epoch.bind (fun e => y.epochs.find? (fun (p : Epoch) => p.serial == e))
    match epoch with
    | none => y.fillRing q.tRing n
    | some p => match p.state with
      | .opened => y.modEpoch p.serial (fun e => { e with ringBytes := Tbl.modify 0 e.ringBytes q.tRing (fun (k : Nat) => k + n) })
      | .confirmed => y.fillRing q.tRing n
      | .cancelled => y)

/-- A copy into a weight ring moves on as far as the ring has space, and completes with its last byte (spec/08 R245, R247); one whose bytes
are held back appends them together, after its check (spec/07 R226, spec/09 R281). -/
def State.finishRing (s : State) (a c : Nat) (x : Ctx) (t : TrowelRun) (rest : List TrowelRun) : State :=
  let q := t.q
  let bs := s.copyBytes a q
  let r := q.ringBytes bs
  let g := x.ring q.tRing
  let left := r.1.drop t.moved
  let st0 : Status := if r.2 then .shapeMismatch else .ok
  let src := fun (i n : Nat) => q.ringSrc (t.moved + i) n
  if !q.ringHeld then
    let u := q.ringStep
    let n := min (t.ringRoom x / u.1 * u.1) left.length
    let p := s.appendRing a c x q.tRing g.fill (left.take n) src t.unitSrc
    let s1 := p.1.modCtx a c (fun y => y.fillRing q.tRing n)
    let used := ((bs.drop (t.moved / u.1 * u.2)).take (n / u.1 * u.2)).map Prod.fst
    let t1 := { t with moved := t.moved + n, unitSrc := p.2, crc := crcBytes t.crc used }
    if n < left.length then s1.modCtx a c (fun y => { y with trowels := t1 :: rest })
    else (if r.2 then s1 else (s1.settleTally a q t1.crc true).1).endTrowel a c t1 rest st0 true
  else
    let chk := s.settleTally a q (crcBytes t.crc (bs.map Prod.fst)) true
    if chk.2 then s.endTrowel a c t rest .tallyMismatch true
    else if t.ringRoom x < left.length then s
    else
      let p := chk.1.appendRing a c x q.tRing g.fill r.1 src []
      (p.1.releaseRing a c q r.1.length).endTrowel a c { t with moved := r.1.length } rest st0 true

/-- A copy to virtual addresses or a Hawk offset completes (spec/09 R272, R281). -/
def State.finishCopy (s : State) (a c : Nat) (x : Ctx) (t : TrowelRun) (rest : List TrowelRun) : State :=
  let q := t.q
  let bs := s.copyBytes a q
  let crc := crcBytes t.crc (bs.map Prod.fst)
  let undef := s.drawBytes q.tLen
  let s0 := if q.overlaps then undef.2 else s
  let data := if q.overlaps then undef.1.map (fun b => (b, false)) else bs
  let chk := s.settleTally a q crc true
  if chk.2 then (s.zeroRngs a c q.tDstRngs).endTrowel a c t rest .tallyMismatch true
  else
    let r := s0.putCopy a c x q data
    (r.s.settleTally a q crc true).1.endTrowel a c { t with moved := r.bytes, refusals := r.refused } rest
      (if r.refused = 0 then .ok else .tagRefused) true

/-- A gather or scatter whose rows have all been consumed completes (spec/09 R274, R281, spec/11 R338); what a gather into a ring held back
is added to the ring when its check passes. -/
def State.finishRows (s : State) (a c : Nat) (t : TrowelRun) (rest : List TrowelRun) : State :=
  let chk := s.settleTally a t.q t.crc t.failed.isNone
  let s1 := if chk.2 then s.zeroRngs a c t.rows
    else if t.q.tDkind = 2 ∧ t.q.ringHeld then chk.1.releaseRing a c t.q t.moved else chk.1
  let st := stPickAll ((t.failed.toList) ++ (if chk.2 then [.tallyMismatch] else []) ++ (if t.refusals = 0 then [] else [.tagRefused]))
  s1.endTrowel a c t rest st t.failed.isNone

/-- A copy into the fabric window whose DONE has come completes: with its status, beside TAG_REFUSED when rows stayed behind; the value of
its Tally is written where TMODE asks for it and the bytes arrived (spec/09 R281, spec/10 R300, spec/13 R393). -/
def State.finishFabric (s : State) (a c : Nat) (t : TrowelRun) (rest : List TrowelRun) (done : Status) : State :=
  let s1 := if done = .ok ∧ t.q.tMode = 2 then (s.settleTally a t.q t.crc true).1 else s
  s1.endTrowel a c t rest (if t.refusals = 0 then done else stPick done .tagRefused) true

/-- TROWEL_OP_COMPLETE: the oldest Trowel operation of an allotment on a core completes once its bytes have moved (spec/07
R202); an operation that must use the value of a poisoned word faults (spec/09 R255, spec/10 R311). -/
def execTrowelOpComplete (a core : Nat) (s : State) : Res :=
  match s.oldestTrowel a core with
  | none => .next s
  | some (x, t, rest) =>
    let q := t.q
    if t.refused.isSome then .next (s.drainTrowels a core x.trowels.length)
    else if q.tFabric then
      match t.fabricDone with
      | none => .next s
      | some st => .next (s.finishFabric a core t rest st)
    else if !q.isCopy then
      (if t.rowsDone < q.tLen then .next s else .next (s.finishRows a core t rest))
    else if (q.tMode != 0 || q.tExpand) && (s.copyBytes a q).any Prod.snd then
      let va := (natOf q.tSrc).getD 0 + (s.copyBytes a q).findIdx Prod.snd
      .next (((s.stopPartial a core x t).endTrowel a core { t with refusals := 0 } rest .passAbortedFault true).takeFault a core .trowel
        .poison va t.idx)
    else if q.tDkind = 2 then .next (s.finishRing a core x t rest)
    else .next (s.finishCopy a core x t rest)

/-! ### Provisional ranges -/

/-- Whether an operation of an epoch instance has not completed. -/
def Ctx.epochBusy (x : Ctx) (serial : Nat) : Bool :=
  x.trowelQ.any (fun q => q.epoch == some serial) || x.trowels.any (fun t => t.q.epoch == some serial)

/-- The rows of an epoch's ranges that the allotment may write: a row that the checks refuse holds nothing of the epoch's (spec/07 R228). -/
def State.writableRngs (s : State) (a c : Nat) (rs : List Rng) : List Rng :=
  rs.flatMap (fun r =>
    ((rngRuns r).filter (fun run => match r.space with
      | .va => s.transferCheck a [] [⟨run.1, run.2 - run.1⟩] false == .ok
      | .hawk => decide (run.2 ≤ (s.ctx a c).hawkLen)
      | _ => false)).map (fun run => { space := r.space, base := run.1, len := run.2 - run.1 }))

/-- An epoch instance leaves; a cancelled one has its ranges zeroed and then its marks incremented (spec/07 R228). -/
def State.closeEpoch (s : State) (a c : Nat) (p : Epoch) : State :=
  let s1 := s.modCtx a c (fun x => { x with epochs := x.epochs.filter (fun e => e.serial != p.serial) })
  if p.state = .cancelled then
    p.marks.foldl (fun t m => t.modCtx a (m / 64) (fun x => x.bumpMark (some (m % 64))))
      (s1.zeroRngs a c (s.writableRngs a c (p.ranges.map ProvRng.rng)))
  else s1

/-- PROV_RANGES_RELEASE: a closed epoch whose operations have all completed releases its ranges (spec/07 R227, R228). -/
def execProvRangesRelease (a core : Nat) (epoch : BitVec 2) (s : State) : Res :=
  match s.ctx? a core with
  | none => .next s
  | some x =>
    match x.epochs.reverse.find? (fun p => p.e == epoch.toNat && p.state != .opened && !x.epochBusy p.serial) with
    | none => .next s
    | some p => .next (s.closeEpoch a core p)

end Sys2Proof.Machine
end

