-- ==== Sys2Proof/Machine/Crier.lean ====
section
/-! DEFINITION. The Crier: stream descriptors, doorbells, command records, and the commands BANK_LOAD, START, STREAM and HALT (spec/07 R186
to R197, spec/08 R252, spec/15 R445, R446, spec/17 R495 to R499). -/

namespace Sys2Proof.Machine

/-! ### Measurements (spec/15 R445, R446) -/

/-- The 64 bytes of a log entry (spec/15, table Log entry). -/
def logEntry (digest length number where' bank kind : Nat) : List Byte :=
  leBytes 64
    (digest % 2 ^ 256 * 2 ^ 256 + length % 2 ^ 40 * 2 ^ 176 + number % 2 ^ 32 * 2 ^ 144 + where' % 2 ^ 16 * 2 ^ 128 + bank % 256 * 2 ^ 120 +
      kind % 256 * 2 ^ 112)

/-- An entry appended: E becomes the SHA-256 of E and the entry; the latest 4,096 entries are kept. -/
def MLog.append (m : MLog) (x : List Byte) : MLog :=
  { ext := sha256 (m.ext ++ x), count := m.count + 1, entries := (x :: m.entries).take 4096 }

/-- An entry appended to an allotment's program log. -/
def State.logProgram (s : State) (a : Nat) (x : List Byte) : State := s.modAllot a (fun y => { y with programLog := y.programLog.append x })

/-- An entry appended to an allotment's weight log. -/
def State.logWeight (s : State) (a : Nat) (x : List Byte) : State := s.modAllot a (fun y => { y with weightLog := y.weightLog.append x })

/-! ### Watchdog (spec/10 R313) -/

/-- Whether a program of an allotment runs on a core that it holds. -/
def State.running (s : State) (a : Nat) : Bool :=
  (s.allotCores a).any (fun c => (s.core c).resident == some a && (s.ctx a c).run != .halted)

/-- The watchdog starts from zero when a program comes to run and stops when none does; a period of 0 turns it off, and after an expiry it
stays stopped until the next START or STREAM (R314). -/
def State.tuneWatchdog (s : State) (a : Nat) : State :=
  if s.running a && s.reg (0x3100 + a) 0x0B != 0 && !(s.allot a).wdSpent then
    (if (s.allot a).wdSince.isSome then s else s.modAllot a (fun x => { x with wdSince := some s.timer }))
  else if (s.allot a).wdSince.isSome then s.modAllot a (fun x => { x with wdSince := none })
  else s

/-- A START or STREAM accepted arms the watchdog again. -/
def State.armWatchdog (s : State) (a : Nat) : State := (s.modAllot a (fun x => { x with wdSpent := false })).tuneWatchdog a

/-! ### Stream descriptors and doorbells (spec/17 R495, R496) -/

/-- A stream descriptor's fields; none for one that R495 disables, but for the place of its ring. -/
def parseDesc (w : Nat) : Option StreamDesc :=
  if fld w 398 384 != 0 || fld w 327 0 != 0 || decide (2 ≤ fld w 330 329) || decide (16 < fld w 403 399) || decide (16 < fld w 335 331) ||
      fld w 383 336 % 64 != 0 then none
  else
    some { cqRaddr := fld w 511 448, cqRkey := fld w 447 416, cqQp := fld w 415 404, cqLog2 := fld w 403 399, ringVa := fld w 383 336
           ringLog2 := fld w 335 331, carter := fld w 330 329 == 1 }

/-- Whether a range lies in an allotment's readable HBM pages. -/
def State.readableHbm (s : State) (a va len : Nat) : Bool :=
  decide (va + len ≤ loftVa) && s.transferCheck a [⟨va, len⟩] [] false == .ok

/-- An idle stream's descriptor read: a valid one is taken; a number at or above the streams, or ENABLE 0, takes no record; a bad one,
enabled or not, disables the stream and is recorded. -/
def State.readDesc (s : State) (a n : Nat) : State :=
  let va := s.reg 0x2010 a + 64 * n
  let w := ofLe (s.readVa a va 64)
  let put := fun (t : State) (d : Option StreamDesc) => t.modStream a n (fun x => { x with desc := d })
  if a = 0 ∨ s.reg (0x3100 + a) 0x09 ≤ n then put s none
  else if !s.readableHbm a va 64 then put (s.noteRefusal 0x2010 a .accessDenied) none
  else match parseDesc w with
    | none => put (s.noteRefusal 0x2010 a .shapeMismatch) none
    | some d =>
      if !s.readableHbm a d.ringVa (2 ^ d.ringLog2 * 64) then put (s.noteRefusal 0x2010 a .accessDenied) none
      else put s (if bitAt w 328 then some d else none)

/-- The records of a stream that are rung and not consumed. -/
def Stream.left (x : Stream) : Nat := (x.doorbell + 2 ^ 32 - x.consumed % 2 ^ 32) % 2 ^ 32

/-- A doorbell rung with D; the descriptor is read anew while every record is consumed (spec/17 R495, R496). -/
def State.ring (s : State) (a n port d : Nat) : State :=
  let x := s.stream a n
  let s1 := if x.left = 0 then s.readDesc a n else s
  let y := s1.stream a n
  match y.desc with
  | none => s1
  | some e =>
    if 2 ^ e.ringLog2 < (d + 2 ^ 32 - y.consumed % 2 ^ 32) % 2 ^ 32 then s1.dropPort port 0x06 a
    else s1.modStream a n (fun z => { z with doorbell := d })

/-- Payload bytes that cross a host port for an allotment (spec/10 R315). -/
def State.meterHost (s : State) (a n : Nat) : State := s.bumpReg (0x3100 + a) 0x22 n

/-- The 8-byte word d written to the doorbell of a stream on a queue pair; one with bits [63:32] set is refused (spec/17 R494, R496). -/
def State.bell (s : State) (qp stream d : Nat) : State :=
  match s.liveQp qp with
  | none => s.noQp qp
  | some q =>
    if 16 ≤ stream then s
    else
      let s1 := (s.portArrive q.port).meterHost q.allot 8
      if 2 ^ 32 ≤ d then (s1.failQp qp).sendQp qp (.nak qp false) 0
      else (s1.ring q.allot stream q.port d).sendQp qp (.ack qp) 0

/-- COMPLETION_CONSUMED_WRITE: the host's count of consumed entries; completions that wait can be written (spec/17 R498). -/
def execCompletionConsumedWrite (qp stream : Nat) (n : W64) (s : State) : Res :=
  match s.liveQp qp with
  | none => .next (s.noQp qp)
  | some q =>
    if 16 ≤ stream then .next s
    else
      let s1 := ((s.portArrive q.port).meterHost q.allot 8).modStream q.allot stream (fun x => { x with hostConsumed := n.toNat })
      .next ((s1.flush q.allot stream).sendQp qp (.ack qp) 0)

/-! ### Records (spec/08 R252, spec/10 R298, spec/17 R497) -/

/-- The 512 bits of the next record of a stream. -/
def State.recordAt (s : State) (a : Nat) (d : StreamDesc) (c : Nat) : Nat :=
  ofLe (s.readVa a (d.ringVa + c % 2 ^ d.ringLog2 * 64) 64)

/-- How many cores the applied definition of an allotment lists; one of them may yet have to join it (spec/10 R292). -/
def State.listedCores (s : State) (a : Nat) : Nat := ((List.range 128).filter (bitAt (s.reg (0x3100 + a) 0x02))).length

/-- The physical cores that a command names. -/
def State.namedCores (s : State) (a w : Nat) : List Nat :=
  if bitAt w 27 then s.allotCores a else (s.coreAt a (fld w 26 20)).toList

/-- Whether a BANK_LOAD's length is one that R189 refuses. -/
def badImage (len : Nat) : Bool := len % 4 != 0 || decide (len < 4) || decide (262144 < len)

/-- Whether a core executes the bank that a BANK_LOAD names. -/
def Ctx.runsBank (x : Ctx) (bank : Nat) : Bool := x.run != .halted && x.src == .bank bank

/-- The statuses that a BANK_LOAD which is refused for its form gives beside it (spec/07 R189, spec/00 R9). -/
def State.loadStatuses (s : State) (a w : Nat) : List Status :=
  let len := fld w 194 176
  (if (s.namedCores a w).any (fun c => (s.ctx a c).runsBank (fld w 195 195)) then [.bankBusy] else []) ++
    (if badImage len || !s.readableHbm a (fld w 175 128) len then [.accessDenied] else [])

/-- The kind and the payload of a command record, with every status that refuses it (spec/08 R252, spec/07 R186, R189). A BANK_LOAD in
good form is judged at its core. -/
def State.parseCommand (s : State) (a w : Nat) : CmdKind × List Status :=
  let kind := fld w 3 0
  let blen := fld w 47 36
  let cores := max (s.allotCores a).length (s.listedCores a)
  let bad := fun (b : Bool) (st : Status) => if b then [st] else []
  let head := bad (fld w 35 28 != 0 || fld w 19 4 != 0 || kind == 0 || decide (4 < kind)) .shapeMismatch ++
    bad (bitAt w 27 && fld w 26 20 != 0) .shapeMismatch ++ bad (!bitAt w 27 && decide (cores ≤ fld w 26 20)) .accessDenied ++
    bad (kind != 3 && blen != 0) .shapeMismatch
  match kind with
  | 1 =>
    let form := head ++ bad (fld w 511 196 != 0) .shapeMismatch
    (.bankLoad (fld w 175 128) (fld w 194 176) (fld w 195 195), if form.isEmpty then [] else form ++ s.loadStatuses a w)
  | 2 =>
    (.start (fld w 146 146) (fld w 145 128) (BitVec.ofNat 64 (fld w 255 192)) (BitVec.ofNat 64 (fld w 319 256)),
      head ++ bad (fld w 511 320 != 0 || fld w 191 147 != 0 || fld w 145 128 % 4 != 0) .shapeMismatch)
  | 3 =>
    let lenBad := blen % 4 != 0 || decide (blen < 4) || decide (2048 < blen)
    if blen ≤ 48 then
      (.stream (leBytes blen (fld w (127 + 8 * blen) 128)),
        head ++ bad (lenBad || w / 2 ^ (128 + 8 * blen) % 2 ^ (384 - 8 * blen) != 0) .shapeMismatch)
    else
      let src := fld w 175 128
      (.stream (if lenBad then [] else s.readVa a src blen),
        head ++ bad (lenBad || fld w 511 176 != 0) .shapeMismatch ++ bad (!lenBad && !s.readableHbm a src blen) .accessDenied)
  | _ => (.halt, head ++ bad (fld w 511 128 != 0) .shapeMismatch)

/-- Whether a request does not fit the Green's slots. A geometry without slots or without slot rows has none that it could exceed: the
request waits (spec/10 R297). -/
def State.slotTooSmall (s : State) (inRows outRows rowLen : Nat) : Bool :=
  let rows := s.reg 0x3000 0x03
  s.reg 0x3000 0x02 * rows != 0 && (decide (rows < inRows) || decide (rows < outRows) || decide (s.reg 0x3000 0x04 < rowLen))

/-- A Green request record with the statuses that refuse it (spec/10 R298). -/
def State.parseGreen (s : State) (stream w : Nat) : GreenReq × List Status :=
  let inRows := fld w 287 271 + 1
  let outRows := fld w 270 254
  let rowLen := (fld w 253 246 + 1) * 32
  let bad := fld w 3 0 != 1 || fld w 47 4 != 0 || fld w 245 64 != 0 || decide (65536 < inRows) || decide (65535 < outRows) ||
    decide (65536 < inRows + outRows) || s.slotTooSmall inRows outRows rowLen
  ({ cookie := fld w 511 448, inVa := fld w 447 400, outVa := fld w 399 352, adapt := fld w 351 320, sequence := fld w 319 288
     inRows := inRows, outRows := outRows, rowLen := rowLen, rseq := fld w 63 48, stream := stream },
   if bad then [.shapeMismatch] else [])

/-- A stream past one more record. -/
def Stream.consume (x : Stream) : Stream := { x with consumed := x.consumed + 1 }

/-- Whether a stream holds Green request records (spec/10 R298). -/
def State.greenStream (s : State) (a n : Nat) : Bool := s.reg (0x3100 + a) 0x0A == n

/-- Whether a stream has a record that the Crier can take: rung, with the SEQ that is due, nothing at the stream's head, and room for its
completion (spec/17 R497, R498); one whose number is no longer below the allotment's streams takes none (R495). -/
def State.recordReady (s : State) (a stream : Nat) : Bool :=
  let x := s.stream a stream
  match x.desc with
  | none => false
  | some d =>
    !(x.head.isSome || x.left == 0 || d.carter || decide (256 ≤ x.waiting.length) || decide (s.reg (0x3100 + a) 0x09 ≤ stream)) &&
      fld (s.recordAt a d x.consumed) 63 48 == x.consumed % 2 ^ 16

/-- A stream's place in the Crier's rotation. -/
def crierKey (a stream : Nat) : Nat := a * 16 + stream

/-- The streams that have a record to take, by their place. -/
def State.readyStreams (s : State) : List Nat :=
  s.allots.flatMap (fun e => ((e.2.streams.keys).filter (fun n => s.recordReady e.1 n)).map (crierKey e.1))

/-- The stream whose turn it is: the first one ready at or after the place that the last turn left (spec/07 R187). -/
def State.streamDue (s : State) : Option Nat :=
  let l := s.readyStreams
  (l.find? (fun k => decide (s.crierTurn ≤ k))).orElse (fun _ => l.head?)

/-- The next record of a stream is taken once its SEQ matches; a refused one completes at once, a command waits at the
head of its stream for its cores, a Green request for its admission (spec/17 R497, R499, spec/08 R252). A command for a core that the
definition lists and that has yet to join the allotment waits (spec/07 R187, spec/10 R292); one for all cores of an allotment with none
completes at once (spec/07 R186). -/
def State.takeRecord (s : State) (a stream : Nat) : State :=
  let x := s.stream a stream
  match x.desc with
  | none => s
  | some d =>
    if x.head.isSome || x.left == 0 || d.carter || decide (256 ≤ x.waiting.length) || decide (s.reg (0x3100 + a) 0x09 ≤ stream) then s
    else
      let w := s.recordAt a d x.consumed
      let seq := fld w 63 48
      if seq != x.consumed % 2 ^ 16 then s
      else
        let s1 := s.modStream a stream Stream.consume
        if s.greenStream a stream then
          let g := s.parseGreen stream w
          let pin := x.aheadPins.find x.consumed
          match g.2 with
          | [] =>
            (s1.modStream a stream (fun y =>
              { y with
                head := some (.green { g.1 with handle := pin, refused := x.aheadFail.find x.consumed })
                aheadPins := y.aheadPins.erase x.consumed, aheadFail := y.aheadFail.erase x.consumed }))
          | l => (s1.post a stream { cookie := g.1.cookie, rseq := seq, status := stPickAll l, kind := 0x3 }).petWatchdog a
        else
          let k := s.parseCommand a w
          let named := s.namedCores a w
          let cookie := fld w 127 64
          let all := bitAt w 27
          match k.2 with
          | [] =>
            if named.isEmpty then
              (if s.listedCores a = 0 then
                (s1.post a stream { cookie := cookie, rseq := seq, status := .ok, kind := 0x1, core := fld w 26 20, all := all }).petWatchdog a
              else s)
            else
            let id := (s.allot a).nextCmd
            let cmd : Cmd := { stream := stream, cookie := cookie, rseq := seq, core := fld w 26 20, all := all, kind := k.1
                               todo := named }
            let s2 := s1.modAllot a (fun y => { y with cmds := y.cmds.set id cmd, nextCmd := id + 1 })
            let s3 := match k.1 with
              | .stream bs => s2.logProgram a (logEntry (sha256Nat bs) bs.length 0 (if all then 0xFFFF else fld w 26 20) 0 0x02)
              | _ => s2
            (s3.modStream a stream (fun y => { y with head := some (.command id) }))
          | l =>
            (s1.post a stream { cookie := cookie, rseq := seq, status := stPickAll l, kind := 0x1, core := fld w 26 20, all := all }).petWatchdog a

/-- A turn of the Crier: it takes the record of the stream that is due, one record in a turn, and the next turn begins behind it; a stream
that is not due keeps its record (spec/07 R187). -/
def State.crierTake (s : State) (a stream : Nat) : State :=
  if s.streamDue = some (crierKey a stream) then { s.takeRecord a stream with crierTurn := crierKey a stream + 1 } else s

/-! ### Commands at the head of a stream -/

/-- The command at the head of a stream that has yet to reach a core, when the allotment holds the core (spec/07 R187, spec/10 R318). -/
def State.cmdFor (s : State) (a stream core : Nat) : Option (Nat × Cmd × Ctx) :=
  if (s.core core).resident != some a || (s.core core).phase != .idle then none
  else match (s.stream a stream).head with
    | some (.command id) =>
      match (s.allot a).cmds.find id, s.ctx? a core with
      | some k, some x => if k.todo.contains core then some (id, k, x) else none
      | _, _ => none
    | _ => none

/-- A core has accepted a command; the stream goes on once every core has. -/
def State.accept (s : State) (a stream id core : Nat) (k : Cmd) : State :=
  let k' := { k with todo := k.todo.filter (· != core), live := k.live ++ [core] }
  let s1 := s.modAllot a (fun y => { y with cmds := y.cmds.set id k' })
  if k'.todo.isEmpty then s1.modStream a stream (fun x => { x with head := none }) else s1

/-- A core refuses a command, or has done it at once. -/
def State.acceptDone (s : State) (a stream id core : Nat) (k : Cmd) (st : Status) : State :=
  (s.accept a stream id core k).cmdDone a id core st

/-- The Ganger's state at a START or at the start of streamed execution (spec/07 R196, R223, spec/08 R245). -/
def State.startCtx (s : State) (a core : Nat) (x : Ctx) (arg1 arg2 : W64) : Ctx :=
  { x with
    sregs := [(1, arg1), (2, arg2), (3, BitVec.ofNat 64 (s.coreIndex a core)), (4, BitVec.ofNat 64 (s.allotCores a).length)]
    nests := [], marks := [], loops := [], estat := [], opIndex := [], fifo := [], epochs := [], rings := [], tally := 0xFFFFFFFF
    run := .running, abrupt := false, checked := s.reg (0x3100 + a) 0x0C != 0 }

/-- BANK_LOAD: refused, waiting, or filling its bank; of two refusals the lower code (spec/07 R189, spec/00 R9). -/
def execBankLoad (a stream core : Nat) (s : State) : Res :=
  match s.cmdFor a stream core with
  | none => .next s
  | some (id, k, x) =>
    match k.kind with
    | .bankLoad src len bank =>
      if x.runsBank bank then .next (s.acceptDone a stream id core k .bankBusy)
      else if badImage len || !s.readableHbm a src len then .next (s.acceptDone a stream id core k .accessDenied)
      else if (Tbl.get {} x.banks bank).loading then .next s
      else
        .next (((s.translateVa a core src len).setCtx a core
          { x with banks := Tbl.modify {} x.banks bank (fun b => { b with loading := true }) }).accept a stream id core k)
    | _ => .next s

/-- The BANK_LOAD that fills a bank of a core. -/
def State.bankFill (s : State) (a core bank : Nat) : Option (Nat × Nat × Nat) :=
  (s.allot a).cmds.findSome? (fun e => match e.2.kind with
    | .bankLoad src len b => if b = bank ∧ e.2.live.contains core then some (e.1, src, len) else none
    | _ => none)

/-- WHERE in a BANK_LOAD's log entry: the core's index, or 0xFFFF for a command of every core (spec/15, table Log entry). -/
def State.loadWhere (s : State) (a id core : Nat) : Nat :=
  match (s.allot a).cmds.find id with
  | some k => if k.all then 0xFFFF else s.coreIndex a core
  | none => s.coreIndex a core

/-- BANK_LOAD_COMPLETE: the image is written and measured, the bank becomes READY, and the command completes on the core (spec/07 R186,
spec/15 R446). -/
def execBankLoadComplete (a core bank : Nat) (s : State) : Res :=
  match s.ctx? a core, s.bankFill a core bank with
  | some x, some (id, src, len) =>
    let dst := s.windowOf a core + bank * 0x40000
    if !(Tbl.get {} x.banks bank).loading || s.wardHeld (core / 32) || s.spilledIn a dst len then .next s
    else
      let bs := s.readP a src len
      let s1 := s.writeP a dst bs
      let s2 := s1.logProgram a (logEntry (sha256Nat (bs.map Prod.fst)) len 0 (s.loadWhere a id core) bank 0x01)
      .next ((s2.modCtx a core (fun y => { y with banks := y.banks.set bank { len := len, loading := false } })).cmdDone a id core .ok)
  | _, _ => .next s

/-- START: a halted core starts a bank; an entry at or past the image is refused (spec/07 R188, R192, R196). -/
def execStart (a stream core : Nat) (s : State) : Res :=
  match s.cmdFor a stream core with
  | none => .next s
  | some (id, k, x) =>
    match k.kind with
    | .start bank offset arg1 arg2 =>
      let b : Bank := Tbl.get {} x.banks bank
      if x.run != .halted || b.loading then .next s
      else if b.len ≤ offset then .next (s.acceptDone a stream id core k .accessDenied)
      else
        .next (((s.setCtx a core { s.startCtx a core x arg1 arg2 with src := .bank bank, pc := offset, cmd := some id }).accept a stream id
          core k).armWatchdog a)
    | _ => .next s

/-- Whether a program is on its way to its halt: its streamed execution has ended (spec/07 R193). -/
def RunState.ending : RunState → Bool
  | .stopping _ => true
  | _ => false

/-- STREAM: a block joins the instruction queue of a streaming core with room, or starts streamed execution on a halted one; a core on its
way to a halt takes it when it has halted (spec/07 R188, R193). -/
def execStream (a stream core : Nat) (s : State) : Res :=
  match s.cmdFor a stream core with
  | none => .next s
  | some (id, k, x) =>
    match k.kind with
    | .stream bytes =>
      let block : SBlock := { cmd := id, base := x.iqEnd, bytes := bytes }
      let room := decide ((x.iq.map (fun b => b.bytes.length)).foldl (· + ·) 0 + bytes.length ≤ 4096)
      if x.run = .halted then
        .next (((s.setCtx a core
          { s.startCtx a core x 0 0 with src := .queue, pc := 0, cmd := none, iq := [{ block with base := 0 }], iqEnd := bytes.length }).accept
            a stream id core k).armWatchdog a)
      else if x.src = .queue ∧ room ∧ !x.run.ending then
        .next (((s.setCtx a core { x with iq := x.iq ++ [block], iqEnd := x.iqEnd + bytes.length }).accept a stream id core
          k).armWatchdog a)
      else .next s
    | _ => .next s

/-- A program stopped at once (spec/07 R197, R228): its queues are discarded without their marks, its open epochs are cancelled, its FIFO is
emptied; started operations run on. -/
def Ctx.stopNow (x : Ctx) (st : Status) : Ctx :=
  if x.run = .halted then x
  else
    let old := match x.run with
      | .stopping o => stPick o st
      | _ => st
    { x.dropQueues with
      run := .stopping old, abrupt := true, fifo := [], tagStore := none
      epochs := x.epochs.map (fun p => if p.state = .opened then { p with state := .cancelled, ringBytes := [] } else p) }

/-- HALT: the program stops at once; on a halted core the command completes (spec/07 R197). -/
def execHalt (a stream core : Nat) (s : State) : Res :=
  match s.cmdFor a stream core with
  | none => .next s
  | some (id, k, x) =>
    match k.kind with
    | .halt =>
      if x.run = .halted then .next (s.acceptDone a stream id core k .ok)
      else .next ((s.setCtx a core { x.stopNow .ok with haltCmds := x.haltCmds ++ [id] }).accept a stream id core k)
    | _ => .next s

end Sys2Proof.Machine
end

