-- ==== Sys2Proof/Machine/Random.lean ====
section
/-! DEFINITION. Philox4x32-10, the generator of every random decision (spec/02 R50, R51). -/

namespace Sys2Proof.Machine

/-- One round on the counter words under the key words. -/
def philoxRound (k0 k1 : Nat) (c : Nat × Nat × Nat × Nat) : Nat × Nat × Nat × Nat :=
  let p0 := 0xD2511F53 * c.1
  let p1 := 0xCD9E8D57 * c.2.2.1
  (Nat.xor (Nat.xor (p1 / 2 ^ 32) c.2.1) k0, p1 % 2 ^ 32, Nat.xor (Nat.xor (p0 / 2 ^ 32) c.2.2.2) k1, p0 % 2 ^ 32)

/-- n rounds, the key words growing by the key increments after each. -/
def philoxRounds : Nat → Nat → Nat → Nat × Nat × Nat × Nat → Nat × Nat × Nat × Nat
  | 0, _, _, c => c
  | n + 1, k0, k1, c =>
    philoxRounds n ((k0 + 0x9E3779B9) % 2 ^ 32) ((k1 + 0xBB67AE85) % 2 ^ 32) (philoxRound k0 k1 c)

/-- The random word of element i (spec/02 R50): the table Stochastic-rounding generator inputs. -/
def randomWord (seed step tensor i : Nat) : Nat :=
  let r := philoxRounds 10 (seed % 2 ^ 32) (seed / 2 ^ 32 % 2 ^ 32)
    (i / 4 % 2 ^ 32, tensor % 2 ^ 32, step % 2 ^ 32, step / 2 ^ 32 % 2 ^ 32)
  match i % 4 with
  | 0 => r.1
  | 1 => r.2.1
  | 2 => r.2.2.1
  | _ => r.2.2.2

/-- The four registers an operation under SR names (spec/06 R171). -/
structure SrStream where
  seed : Nat
  step : Nat
  tensor : Nat
  index : Nat
  deriving DecidableEq, Repr

/-- The top 24 bits of the random word of destination element (r, c) (spec/02 R49, spec/06 R171). -/
def SrStream.r24 (g : SrStream) (r c : Nat) : Nat :=
  randomWord g.seed g.step g.tensor ((fld g.index 33 0 + r * fld g.index 63 34 + c) % 2 ^ 34) / 2 ^ 8

end Sys2Proof.Machine
end

