-- ==== Sys2Proof/Machine/Trans.lean ====
section
/-! DEFINITION. The transcendental functions of S.EXP (spec/06 R175): the exact result is enclosed between two ratios and
rounded once; the answer is taken when both ends of the enclosure round alike (log entry 13). -/

namespace Sys2Proof.Machine

/-- A closed interval of nonnegative numbers in units of 2^-p, for a precision p. -/
structure Encl where
  lo : Nat
  hi : Nat
  deriving DecidableEq, Repr

/-- The bits of the enclosures after the point, where the result's size asks for no more. -/
def precBits : Nat := 448

/-- One in the units of an enclosure of that precision. -/
def unitOne : Nat := 2 ^ precBits

/-- The product of two enclosures of precision p. -/
def Encl.mul (p : Nat) (a b : Encl) : Encl := ⟨a.lo * b.lo / 2 ^ p, a.hi * b.hi / 2 ^ p + 1⟩

/-- The Taylor sum of e^r for 0 <= r < 1/2 in units: terms t, t r / k, ... -/
def expTaylor (p : Nat) : Nat → Nat → Encl → Encl → Encl → Encl
  | 0, _, _, t, s => ⟨s.lo, s.hi + t.hi + 1⟩
  | n + 1, k, r, t, s =>
    let t' : Encl := ⟨t.lo * r.lo / 2 ^ p / k, t.hi * r.hi / 2 ^ p / k + 1⟩
    expTaylor p n (k + 1) r t' ⟨s.lo + t'.lo, s.hi + t'.hi⟩

/-- n squarings. -/
def Encl.squares (p : Nat) : Nat → Encl → Encl
  | 0, e => e
  | n + 1, e => Encl.squares p n (e.mul p e)

/-- An enclosure of e^(num/den): the argument is halved until it lies below 1/2, and the sum of its series squared back. -/
def expEncl (p num den : Nat) : Encl :=
  let j := Nat.log2 (num / den) + 2
  let r : Encl := ⟨num * 2 ^ p / den / 2 ^ j, num * 2 ^ p / den / 2 ^ j + 1⟩
  Encl.squares p j (expTaylor p (p / 4) 1 r ⟨2 ^ p, 2 ^ p⟩ ⟨2 ^ p, 2 ^ p⟩)

/-- An enclosure, by ratios, of an exact result that is not a ratio: sign, lower num/den and upper num/den. -/
structure Bounds where
  neg : Bool
  ln : Nat
  ld : Nat
  hn : Nat
  hd : Nat
  deriving DecidableEq, Repr

/-- e^x for a nonzero finite x. wrap: the result goes into an integer destination under the wrap policy, and its exact
integer value counts (spec/02 R57): the enclosure's precision then grows with the result's length. Otherwise abs(x) above
4096 is taken as 4096, beyond every range alike (spec/02 R47). -/
def expBounds (wrap : Bool) (d : Dy) : Bounds :=
  let n := d.mag * pow2Num d.exp
  let den := pow2Den d.exp
  let whole := wrap && !d.neg
  let p := if whole then precBits + 2 * ceilDiv n den else precBits
  let e := if 4096 * den < n && !whole then expEncl p 4096 1 else expEncl p n den
  if d.neg then ⟨false, 2 ^ p, e.hi, 2 ^ p, e.lo⟩ else ⟨false, e.lo, 2 ^ p, e.hi, 2 ^ p⟩

/-- The sum of z^(2k+1) / (2k+1) from term k, with y = z^2 and p = z^(2k+1), for z at most 1/3. -/
def atanhSeries : Nat → Nat → Encl → Encl → Encl → Encl
  | 0, _, _, p, s => ⟨s.lo, s.hi + p.hi + 1⟩
  | n + 1, k, y, p, s =>
    atanhSeries n (k + 1) y (p.mul precBits y) ⟨s.lo + p.lo / (2 * k + 1), s.hi + p.hi / (2 * k + 1) + 1⟩

/-- An enclosure of 2 atanh(a / b) for a / b at most 1/3. -/
def atanh2 (a b : Nat) : Encl :=
  let z : Encl := ⟨a * unitOne / b, a * unitOne / b + 1⟩
  let s := atanhSeries 160 0 (z.mul precBits z) z ⟨0, 0⟩
  ⟨2 * s.lo, 2 * s.hi⟩

/-- ln x for a positive finite x other than 1: x = m 2^e with 1 <= m < 2 and ln x = 2 atanh((m-1)/(m+1)) + e ln 2. -/
def logBounds (d : Dy) : Bounds :=
  let l := Nat.log2 d.mag
  let e : Int := d.exp + (l : Nat)
  let m := atanh2 (d.mag - 2 ^ l) (d.mag + 2 ^ l)
  let t := atanh2 1 3
  if 0 ≤ e then ⟨false, m.lo + e.toNat * t.lo, unitOne, m.hi + e.toNat * t.hi, unitOne⟩
  else ⟨true, (-e).toNat * t.lo - m.hi, unitOne, (-e).toNat * t.hi - m.lo, unitOne⟩

/-- tanh x for a nonzero finite x: (e^(2x) - 1) / (e^(2x) + 1), with abs(x) above 2048 taken as 2048. -/
def tanhBounds (d : Dy) : Bounds :=
  let n := 2 * (d.mag * pow2Num d.exp)
  let den := pow2Den d.exp
  let e := if 4096 * den < n then expEncl precBits 4096 1 else expEncl precBits n den
  if n * 2 ^ 40 < den then
    -- x - x^3 < tanh x < x
    let x := d.mag * pow2Num d.exp
    ⟨d.neg, x * (den * den - x * x), den * den * den, x, den⟩
  else ⟨d.neg, e.lo - unitOne, e.lo + unitOne, e.hi - unitOne, e.hi + unitOne⟩

/-- floor(sqrt(n)), one bit at a time from bit k down. -/
def isqrt : Nat → Nat → Nat → Nat
  | 0, _, r => r
  | k + 1, n, r => isqrt k n (if (r + 2 ^ k) * (r + 2 ^ k) ≤ n then r + 2 ^ k else r)

/-- 1/sqrt(x) for a positive finite x: exact when x is a perfect square's power, else enclosed in one unit. -/
def rsqrtBounds (d : Dy) : Bounds :=
  let n := pow2Den d.exp * unitOne * unitOne
  let m := d.mag * pow2Num d.exp
  let r := isqrt (Nat.log2 (n / m) / 2 + 1) (n / m) 0
  if r * r * m = n then ⟨false, r, unitOne, r, unitOne⟩ else ⟨false, r, unitOne, r + 1, unitOne⟩

/-- The functions of S.EXP (spec/06, table S.EXP functions). -/
inductive ExpFn where
  | exp | log | rcp | rsqrt | tanh
  deriving DecidableEq, Repr

/-- The exact result of a function, as a special value, a ratio, or bounds of it, with the counts that the table
S.EXP functions gives the case itself. -/
inductive FnResult where
  | exact (e : Exact) (ev : Ev)
  | between (b : Bounds)
  deriving DecidableEq, Repr

/-- One function of S.EXP on one value (spec/06 R175, table S.EXP functions); wrap as in expBounds. -/
def expFn (wrap : Bool) (f : ExpFn) (v : Val) : FnResult :=
  let invalid : FnResult := .exact .nan { invalid := 1 }
  match f, v with
  | _, .nan => .exact .nan { propagated := 1 }
  | .exp, .inf neg => .exact (if neg then .rat false 0 1 else .inf false) {}
  | .exp, .fin d => if d.mag = 0 then .exact (.rat false 1 1) {} else .between (expBounds wrap d)
  | .log, .inf neg => if neg then invalid else .exact (.inf false) {}
  | .log, .fin d =>
    if d.mag = 0 then .exact (.inf true) { infinities := 1 }
    else if d.neg then invalid
    else if d.mag * pow2Num d.exp = pow2Den d.exp then .exact (.rat false 0 1) {}
    else .between (logBounds d)
  | .rcp, .inf neg => .exact (.rat neg 0 1) {}
  | .rcp, .fin d =>
    if d.mag = 0 then .exact (.inf d.neg) { infinities := 1 }
    else .exact (.rat d.neg (pow2Den d.exp) (d.mag * pow2Num d.exp)) {}
  | .rsqrt, .inf neg => if neg then invalid else .exact (.rat false 0 1) {}
  | .rsqrt, .fin d =>
    if d.mag = 0 then .exact (.inf d.neg) { infinities := 1 }
    else if d.neg then invalid
    else .between (rsqrtBounds d)
  | .tanh, .inf neg => .exact (.rat neg 1 1) {}
  | .tanh, .fin d => if d.mag = 0 then .exact (.rat d.neg 0 1) {} else .between (tanhBounds d)

/-- A bound in units of 2^-k, rounded down, and rounded up and lowered by one. -/
def floorAt (k : Int) (n d : Nat) : Nat := n * pow2Num k / (d * pow2Den k)
def underAt (k : Int) (n d : Nat) : Nat := (n * pow2Num k + d * pow2Den k - 1) / (d * pow2Den k) - 1

/-- A function result as an exact value that rounds as the result does. The result lies strictly between its bounds;
when no multiple of 2^-k does, 60 bits below the point and below the result's leading bit, the middle of that cell rounds
alike in every format and mode, since every rounding boundary is such a multiple. Otherwise a free value picks one of the
cells between the bounds (log entry 13). key names the operand for the free value. -/
def FnResult.settle (key : Nat) : FnResult → Exact × Ev
  | .exact e ev => (e, ev)
  | .between b =>
    if b.ln * b.hd = b.hn * b.ld then (.rat b.neg b.ln b.ld, {})
    else
      let k : Int := 60 - min 0 (floorLog2 b.ln b.ld)
      let lo := floorAt k b.ln b.ld
      let hi := underAt k b.hn b.hd
      let cell := if lo = hi then lo else lo + Config.undecided key b.ln % (hi - lo + 1)
      (.rat b.neg ((2 * cell + 1) * pow2Den (k + 1)) (pow2Num (k + 1)), {})

end Sys2Proof.Machine
end

