-- ==== Sys2Proof/Machine/SkimFn.lean ====
section
/-! DEFINITION. The Skimmer's functions on values: S.FMA, S.EXP, the reduction tree, top-k and the softmax row (spec/06
R172 to R182), each with its counts (R183). -/

namespace Sys2Proof.Machine

/-- Positive zero. -/
def Val.zero : Val := .fin ⟨false, 0, 0⟩

/-- The value one. -/
def Val.one : Val := .fin ⟨false, 1, 0⟩

def Val.isNan : Val → Bool
  | .nan => true
  | _ => false

/-- A value other than zero. -/
def Val.nonzero : Val → Bool
  | .fin d => d.mag != 0
  | _ => true

def Val.negate : Val → Val
  | .nan => .nan
  | .inf n => .inf (!n)
  | .fin d => .fin d.negate

def Val.abs : Val → Val
  | .nan => .nan
  | .inf _ => .inf false
  | .fin d => .fin { d with neg := false }

/-- a < b of values that are not NaN; +0 equals -0 (spec/06 R173). -/
def Val.lt : Val → Val → Bool
  | .inf a, .inf b => a && !b
  | .inf a, .fin _ => a
  | .fin _, .inf b => !b
  | .fin a, .fin b => a.lt b
  | _, _ => false

/-- The order of MIN and MAX, with -0 below +0 (spec/06 R173). -/
def Val.below : Val → Val → Bool
  | .fin a, .fin b => if a.mag = 0 && b.mag = 0 then a.neg && !b.neg else a.lt b
  | a, b => a.lt b

/-- A NaN result that a NaN operand gives, and one that an invalid operation gives (spec/06 R183). -/
def nanProp : Exact × Ev := (.nan, { propagated := 1 })
def nanInvalid : Exact × Ev := (.nan, { invalid := 1 })

/-- An exact result, none being an invalid operation, given whether an operand is NaN. -/
def exactOr (someNan : Bool) : Option Val → Exact × Ev
  | none => nanInvalid
  | some v => if someNan then nanProp else (v.exact, {})

/-- MIN or MAX (spec/06 R173). -/
def minMax (max : Bool) (a b : Val) : Val × Ev :=
  if a.isNan || b.isNan then (.nan, { propagated := 1 })
  else if max then (if a.below b then b else a, {})
  else (if b.below a then b else a, {})

/-- A × B + C before its rounding: none for 0 × ∞ or ∞ − ∞. -/
def fmaE (a b c : Val) : Option Val :=
  if c.isNan then some .nan
  else match a.mulE b with
    | none => none
    | some p => p.addE c

/-- An integer as an exact result. -/
def exactInt (i : Int) : Exact := .rat (decide (i < 0)) i.natAbs 1

/-- A shift of a 32-bit integer (spec/06, table S.FMA functions, 0xF). -/
def shift32 (a b : Int) : Int :=
  let n := b.natAbs % 32
  if 0 ≤ b then sext 32 (wrapNat 32 (a * 2 ^ n)) else a / 2 ^ n

/-- The exact result of an S.FMA function before its rounding (spec/06 R172 to R174), with the counts of its operands'
events. -/
def fmaFn (fn : Nat) (a b c : Val) : Exact × Ev :=
  let bool := fun (p : Bool) => ((if p then Val.one else Val.zero).exact, ({} : Ev))
  let int := fun (i : Int) => (exactInt i, ({} : Ev))
  match fn with
  | 0x0 => if a.isNan || b.isNan || c.isNan then nanProp else exactOr false (fmaE a b c)
  | 0x1 => exactOr (a.isNan || b.isNan) (a.addE b)
  | 0x2 => exactOr (a.isNan || b.isNan) (a.addE b.negate)
  | 0x3 => exactOr (a.isNan || b.isNan) (a.mulE b)
  | 0x4 => let r := minMax false a b; (r.1.exact, r.2)
  | 0x5 => let r := minMax true a b; (r.1.exact, r.2)
  | 0x6 => exactOr a.isNan (some a.abs)
  | 0x7 => exactOr a.isNan (some a.negate)
  | 0x8 => bool (!a.isNan && !b.isNan && a.lt b)
  | 0x9 => bool (!a.isNan && !b.isNan && !a.lt b && !b.lt a)
  | 0xA => let p := if c.nonzero && !c.isNan then a else b; exactOr p.isNan (some p)
  | 0xB => int (a.toInt + b.toInt)
  | 0xC => int (a.toInt - b.toInt)
  | 0xD => int (a.toInt * b.toInt)
  | 0xE => int (if b.toInt % 2 = 0 then min a.toInt c.toInt else max a.toInt c.toInt)
  | _ => int (shift32 a.toInt b.toInt)

/-- A function of S.EXP by its code. -/
def expFnOf : Nat → Option ExpFn
  | 0 => some .exp | 1 => some .log | 2 => some .rcp | 3 => some .rsqrt | 4 => some .tanh | _ => none

/-- The operand's bits name the free value of an undecided result. -/
def valKey : Val → Nat
  | .nan => 0
  | .inf n => 1 + b2n n
  | .fin d => (d.mag * 2 + b2n d.neg) * 2 ^ 16 + wrapNat 16 d.exp

/-- The exact result of an S.EXP function before its rounding; wrap: it goes into an integer destination under the wrap
policy. -/
def expVal (wrap : Bool) (f : ExpFn) (v : Val) : Exact × Ev := (expFn wrap f v).settle (valKey v)

/-- A count without the NaN events that its function has counted already (spec/06 R183). -/
def Ev.noProp (e : Ev) : Ev := { e with propagated := 0 }

/-- One rounding into binary32 under RNE of a result that a function gives, with its counts. -/
def rnd32 (r : Exact × Ev) : Val × Ev :=
  let c := convert .binary32 .rne false 0 r.1
  (decodeElem .binary32 c.1, r.2.add c.2.noProp)

/-! ### Reductions (spec/06 R176, R177, R183) -/

/-- The functions of S.RED. -/
inductive RedFn where
  | sum | ssq | max | min | isum
  deriving DecidableEq, Repr

/-- A function of S.RED by its code. -/
def redFnOf : Nat → Option RedFn
  | 0 => some .sum | 1 => some .ssq | 2 => some .max | 3 => some .min | 4 => some .isum | _ => none

/-- One node: two values combined and rounded once, which an overflow counts at (spec/06 R176, R183). -/
def redNode (f : RedFn) (wrap : Bool) (a b : Val) : Val × Ev :=
  match f with
  | .sum | .ssq => rnd32 (exactOr (a.isNan || b.isNan) (a.addE b))
  | .max => let r := minMax true a b; rnd32 (r.1.exact, r.2)
  | .min => let r := minMax false a b; rnd32 (r.1.exact, r.2)
  | .isum =>
    let r := placeInt .int32 wrap (a.toInt + b.toInt)
    (decodeElem .int32 r.1, r.2)

/-- Two and two combined; a last one without a partner passes up unchanged. -/
def pairUp (f : Val → Val → Val × Ev) : List Val → List Val × Ev
  | a :: b :: t =>
    let r := f a b
    let q := pairUp f t
    (r.1 :: q.1, r.2.add q.2)
  | l => (l, {})

/-- The tree's levels; fuel is at least the base-2 logarithm of the number of leaves, rounded up. -/
def treeLevels (f : Val → Val → Val × Ev) : Nat → List Val → Val × Ev
  | 0, l => (l.headD .zero, {})
  | fuel + 1, l =>
    match l with
    | [] => (.zero, {})
    | [v] => (v, {})
    | _ =>
      let r := pairUp f l
      let q := treeLevels f fuel r.1
      (q.1, r.2.add q.2)

/-- A leaf of the tree: squared and rounded under SSQ. -/
def redLeaf (f : RedFn) (v : Val) : Val × Ev :=
  match f with
  | .ssq => rnd32 (exactOr v.isNan (v.mulE v))
  | _ => (v, {})

/-- A tree over at most 256 leaves, and the ACC combination with an old value as the left operand. Infinities,
flushes and saturations count at each node, a NaN once for the result (spec/06 R183). -/
def redTree (f : RedFn) (wrap : Bool) (old : Option Val) (leaves : List Val) : Val × Ev :=
  let ls := leaves.map (redLeaf f)
  let t := treeLevels (redNode f wrap) 8 (ls.map Prod.fst)
  let r := match old with
    | none => t
    | some o =>
      let n := redNode f wrap o t.1
      (n.1, t.2.add n.2)
  let ev := { (Ev.sum (ls.map Prod.snd)).add r.2 with invalid := 0, propagated := 0 }
  let anyNan := leaves.any Val.isNan || (match old with | none => false | some o => o.isNan)
  (r.1, if r.1.isNan then (if anyNan then { ev with propagated := 1 } else { ev with invalid := 1 }) else ev)

/-! ### Top-k (spec/06 R178) -/

/-- Whether a ranks strictly before b: larger first, NaN below everything. -/
def ranksBefore (a b : Val) : Bool :=
  if a.isNan then false else if b.isNan then true else b.lt a

/-- A value put into a ranked list after the values that rank no later. -/
def rankIn (v : Val × Nat) : List (Val × Nat) → List (Val × Nat)
  | [] => [v]
  | w :: t => if ranksBefore v.1 w.1 then v :: w :: t else w :: rankIn v t

/-- The k largest values with their columns, in rank order. -/
def topK (k : Nat) (row : List Val) : List (Val × Nat) :=
  ((row.zip (List.range row.length)).foldl (fun l v => rankIn v l) []).take k

/-! ### Softmax (spec/06 R181, R182) -/

/-- A softmax row's results: the values to be rounded into the destination, and the new state of columns 0 to 2. -/
structure SmaxRow where
  p : List Exact
  m : Val
  l : Val
  c : Val
  ev : Ev
  deriving DecidableEq, Repr

/-- smax_row of R181 with the final product of R182. x holds each score, or none where it is not admissible. -/
def smaxRow (x : List (Option Val)) (scale mOld lOld : Val) (final : Bool) : SmaxRow :=
  let ninf : Val := .inf true
  let ys := x.map (fun v => match v with
    | none => (ninf, ({} : Ev))
    | some v => rnd32 (fmaFn 0x3 v scale .zero))
  let y := ys.map Prod.fst
  let t := redTree .max false none y
  let m := minMax true mOld t.1
  let ev0 := ((Ev.sum (ys.map Prod.snd)).add t.2).add m.2
  let e := fun (v : Val) =>
    let d := rnd32 (fmaFn 0x2 v m.1 .zero)
    let r := rnd32 (expVal false .exp d.1)
    (r.1, d.2.add r.2)
  let body : List Val × Val × Val × Ev :=
    if m.1 = ninf then (y.map (fun _ => Val.zero), lOld, Val.one, ev0)
    else
      let ps := y.map e
      let c := e mOld
      let sum := redTree .sum false none (ps.map Prod.fst)
      let l := rnd32 (fmaFn 0x0 lOld c.1 sum.1)
      (ps.map Prod.fst, l.1, c.1, (((ev0.add (Ev.sum (ps.map Prod.snd))).add c.2).add sum.2).add l.2)
  let p := body.1
  let l := body.2.1
  let c := body.2.2.1
  let ev := body.2.2.2
  if !final then { p := p.map Val.exact, m := m.1, l := l, c := c, ev := ev }
  else if !l.isNan && !l.nonzero && !l.below .zero then
    { p := p.map (fun _ => Val.zero.exact), m := m.1, l := l, c := c, ev := ev }
  else
    let q := rnd32 (expVal false .rcp l)
    let os := p.map (fun v => fmaFn 0x3 v q.1 .zero)
    { p := os.map Prod.fst, m := m.1, l := l, c := c, ev := (ev.add q.2).add (Ev.sum (os.map Prod.snd)) }

end Sys2Proof.Machine
end

