-- ==== Sys2Proof/Machine/SkimPlan.lean ====
section
/-! DEFINITION. What a Skimmer operation names, and its checks in refusal order (spec/06 R157 to R162, spec/08 R246,
R250, R542). -/

namespace Sys2Proof.Machine

/-- One operand of one iteration (spec/08, table Skimmer operand descriptor): kind 0 none, 1 tile group, 2 Tub rows,
3 Loft rows, 4 scalar, 5 row vector, 6 column vector. base is the first tile, the Tub row within all quarters, or the
address of row 0; aux the descriptor's AUX; sva and sstride the scales of a CF Loft operand. -/
structure SOp where
  kind : Nat := 0
  fmt : Fmt := .binary32
  blk : Blk := .none
  base : Nat := 0
  aux : Nat := 0
  stride : Nat := 0
  sva : Nat := 0
  sstride : Nat := 0
  val : Nat := 0
  deriving DecidableEq, Repr

/-- An operand descriptor with lowest bit lo, displaced by a nest register; none where it is malformed. strides are the
nest strides of the operand; auxFree: the instruction gives AUX a meaning (table Skimmer field use). -/
def QOp.skOp (q : QOp) (lo : Nat) (disp : Int) (strides : List Int) (blk : Blk) (auxFree : Bool) : Option SOp :=
  let reg := q.f (lo + 9) (lo + 5)
  let aux := q.f (lo + 4) lo
  let auxOk := auxFree || aux == 0
  let wide := fun (f : Fmt) => f == .binary32 || f == .int32
  match fmtOf (q.f (lo + 13) (lo + 10)) with
  | none => none
  | some f =>
    let b := if f.isCf then blk else .none
    match q.f (lo + 16) (lo + 14) with
    | 0 => if q.f (lo + 13) lo = 0 && strides.all (· == 0) then some {} else none
    | 1 => (natOf ((reg : Int) + disp)).bind (fun t => if auxOk then some { kind := 1, fmt := f, blk := b, base := t, aux := aux } else none)
    | 2 =>
      let r := q.regAt reg
      (natOf ((r : Int) + disp)).bind (fun row =>
        if wide f && decide (r < 2 ^ 13) && decide (aux < 4) then some { kind := 2, fmt := f, base := row, aux := aux } else none)
    | 3 =>
      let r := q.regAt reg
      let r1 := q.regAt (reg + 1)
      let st := r / 2 ^ 48
      let k : Int := if st = 0 then 0 else disp / (st : Nat)
      let sst := fld r1 59 48
      if reg = 31 || !auxOk || (f.isCf && fld r1 63 60 != 0) ||
          (f.isCf && strides.any (fun x => if st = 0 then x != 0 else x % (st : Nat) != 0)) then none
      else
        some { kind := 3, fmt := f, blk := b, base := vaOf ((r % 2 ^ 48 : Nat) + disp), aux := aux, stride := st,
               sva := if f.isCf then vaOf ((r1 % 2 ^ 48 : Nat) + k * (sst : Nat)) else 0, sstride := if f.isCf then sst else 0 }
    | 4 => if wide f && auxOk then some { kind := 4, fmt := f, aux := aux, val := q.regAt reg % 2 ^ 32 } else none
    | 5 => if wide f then some { kind := 5, fmt := f, base := reg, aux := aux } else none
    | 6 => if wide f then some { kind := 6, fmt := f, base := reg, aux := aux } else none
    | _ => none

/-- A Skimmer operation's plan. -/
structure SkPlan where
  op : Nat
  opx : Nat
  w : Nat
  rnd : RMode
  wrap : Bool
  sr : Option SrStream
  a : SOp
  b : SOp
  c : SOp
  d : SOp
  deriving DecidableEq, Repr

/-- The registers of a tile group of W elements (spec/06 R157). -/
def groupLen (f : Fmt) (w : Nat) : Nat := ceilDiv (w * f.bits) 1024

/-- The operands that an S.FMA function uses: B, C (spec/06, table S.FMA functions). -/
def fmaUses (fn : Nat) : Bool × Bool :=
  match fn with
  | 0x0 | 0xA | 0xE => (true, true)
  | 0x6 | 0x7 => (false, false)
  | _ => (true, false)

/-- Orders 1 and 2 of the table Refusals at the Skimmer queue that concern kinds and formats (spec/06 R158, R169 to
R178, spec/08, table Skimmer field use). -/
def SkPlan.kindsOk (p : SkPlan) : Bool :=
  let arr := fun (o : SOp) => o.kind == 1 || o.kind == 2 || o.kind == 3
  let no := fun (o : SOp) => o.kind == 0
  match p.op with
  | 1 => arr p.a && no p.b && no p.c && arr p.d && p.opx == 0
  | 2 =>
    let fn := p.opx % 16
    let u := fmaUses fn
    let int := decide (0xB ≤ fn)
    let src := fun (used : Bool) (o : SOp) => if used then !no o && o.fmt.isInt == int else no o
    src true p.a && src u.1 p.b && src u.2 p.c && arr p.d && decide (p.opx < 16) && (fn != 0xE || p.b.kind == 4)
  | 3 => !no p.a && !p.a.fmt.isInt && no p.b && no p.c && arr p.d && decide (p.opx < 5)
  | 4 =>
    arr p.a && !p.a.fmt.isInt && p.b.kind == 1 && p.b.fmt == .binary32 && p.c.kind == 4 && p.c.fmt == .binary32 &&
      arr p.d && !p.d.fmt.isInt && decide (p.opx < 16) &&
      (if bitAt p.opx 1 then p.c.aux != 31 else p.c.aux == 0)
  | 5 =>
    (p.a.kind == 1 || p.a.kind == 2) && p.a.fmt == .binary32 && p.b.kind == 1 && p.b.fmt == .int32 && p.c.kind == 4 &&
      p.c.fmt == .int32 && p.d.kind == 1 && p.d.fmt == .binary32
  | 6 =>
    match redFnOf (p.opx % 8) with
    | none => false
    | some f =>
      arr p.a && p.a.fmt.isInt == (f == .isum) && no p.b && no p.c && p.d.kind == 1 &&
        p.d.fmt == (if f = .isum then .int32 else .binary32)
  | _ => false

/-- The width of each operand: A, B, C, D. -/
def SkPlan.widths (p : SkPlan) : Nat × Nat × Nat × Nat :=
  match p.op with
  | 4 => (p.w, 3, p.w, p.w)
  | 5 => (p.w, p.opx + 1, p.w, p.opx + 1)
  | 6 => (p.w, p.w, p.w, if bitAt p.opx 3 then p.w else p.d.aux + 1)
  | _ => (p.w, p.w, p.w, p.w)

/-- An operand of width w stays within its tiles, its Tub quarter or its columns (spec/06 R157, R158, spec/08 R246). -/
def SOp.fits (o : SOp) (w : Nat) : Bool :=
  match o.kind with
  | 1 | 6 => decide (o.base + groupLen o.fmt w ≤ 32)
  | 2 => decide (o.base + 32 ≤ 8192) && decide (o.base % 2048 + 32 ≤ 2048) && decide (o.aux * 32 + w ≤ 128)
  | _ => true

/-- A source or destination format and its block kind agree; a block kind that no operand uses is 0 (spec/02 R29). -/
def SkPlan.blocksOk (p : SkPlan) (sblk dblk : Blk) : Bool :=
  let cf := [p.a, p.b, p.c].any (fun o => o.kind != 0 && o.fmt.isCf)
  (sblk != .none) == cf && fmtBlkOk p.d.fmt dblk

/-- The plan of the next iteration of a Skimmer operation, none where it is refused with SHAPE_MISMATCH (spec/08 R240,
spec/06 R162 orders 1 and 2). -/
def State.skPlan (s : State) (a : Nat) (q : QOp) : Option SkPlan :=
  match rmodeOf (q.f 51 50), blkOf (q.f 48 46), blkOf (q.f 45 43) with
  | some rnd, some sblk, some dblk =>
    let srr := q.f 42 38
    let op := q.op
    let lv := q.levels
    match q.skOp 111 q.dA (lv.map NestLevel.sa) sblk false, q.skOp 94 q.dB (lv.map NestLevel.sb) sblk false,
      q.skOp 77 0 [] sblk (op == 4), q.skOp 60 q.dD (lv.map NestLevel.sd) dblk (op == 6) with
    | some oa, some ob, some oc, some od =>
      let p : SkPlan :=
        { op := op, opx := q.f 37 33, w := q.f 59 52 + 1, rnd := rnd, wrap := bitAt q.w.toNat 49
          sr := if rnd = .sr then
              some { seed := q.regAt srr, step := q.regAt (srr + 1), tensor := q.regAt (srr + 2) % 2 ^ 32, index := q.regAt (srr + 3) }
            else none
          a := oa, b := ob, c := oc, d := od }
      let ws := p.widths
      if q.badHeader false || bitAt q.w.toNat 32 || !p.kindsOk || !p.blocksOk sblk dblk || (rnd == .sr && decide (28 < srr)) ||
          !oa.fits ws.1 || !ob.fits ws.2.1 || !oc.fits ws.2.2.1 || !od.fits ws.2.2.2 ||
          (op == 5 && decide (p.w < p.opx + 1)) ||
          (op == 4 && (bitAt p.opx 0 || s.isGreen a) && oa.kind != 2) then none
      else some p
    | _, _, _, _ => none
  | _, _, _ => none

/-! ### Ranges -/

/-- The padded width of a destination (spec/06 R170). -/
def SOp.padded (o : SOp) (w : Nat) : Nat := ceilDiv w o.blk.width * o.blk.width

/-- The byte ranges of a Loft operand of width w: its rows, and its rows of scales. -/
def SOp.loftRngs (o : SOp) (w : Nat) : List Rng :=
  if o.kind != 3 then []
  else
    { space := .va, base := o.base, len := ceilDiv (w * o.fmt.bits) 8, rows := 32, stride := o.stride } ::
      (if o.fmt.isCf then
        [{ space := .va, base := o.sva, len := ceilDiv w o.blk.width, rows := 32 / o.blk.height, stride := o.sstride }]
      else [])

/-- The ranges of an operand of width w (spec/07 R224). -/
def SOp.rngs (o : SOp) (w : Nat) : List Rng :=
  match o.kind with
  | 1 | 6 => [{ space := .tiles, base := o.base * 4096, len := groupLen o.fmt w * 4096 }]
  | 5 => [{ space := .tiles, base := o.base * 4096, len := 4096 }]
  | 2 => [{ space := .tub, base := o.base * 128 + o.aux * 32, len := w, rows := 32, stride := 128 }]
  | 3 => o.loftRngs w
  | _ => []

/-- The operation reads its destination too: S.RED under ACC. -/
def SkPlan.acc (p : SkPlan) : Bool := p.op == 6 && bitAt p.opx 4

/-- What the operation reads and writes. -/
def SkPlan.footprint (p : SkPlan) : Footprint :=
  let ws := p.widths
  let bSrc := p.op != 5
  let bDst := p.op == 4 || p.op == 5
  { reads := p.a.rngs ws.1 ++ (if bSrc then p.b.rngs ws.2.1 else []) ++ p.c.rngs ws.2.2.1 ++
      (if p.acc then p.d.rngs ws.2.2.2 else [])
    writes := (if bDst then p.b.rngs ws.2.1 else []) ++ p.d.rngs (p.d.padded ws.2.2.2) }

/-- The Loft runs of a list of ranges. -/
def loftRuns (rs : List Rng) : List (Nat × Nat) :=
  (rs.filter (fun r => r.space == .va)).flatMap rngRuns

/-- Orders 3 to 5 of the table Refusals at the Skimmer queue, but for the tags of the Green (spec/06 R161). -/
def State.skPages (s : State) (a c : Nat) (src dst : List (Nat × Nat)) : Status :=
  let own := fun (r : Nat × Nat) =>
    r.1 == r.2 || (decide (windowVa (s.coreIndex a c) ≤ r.1) && decide (r.2 ≤ windowVa (s.coreIndex a c) + windowSize) &&
      s.mapped a r.1 (r.2 - r.1))
  if !(src ++ dst).all own || !src.all (fun r => s.allPages a r.1 (r.2 - r.1) (fun _ d => d.r && !d.draw)) then .accessDenied
  else if dst.any (fun r => s.anyPage a r.1 (r.2 - r.1) (fun _ d => d.frozen)) then .frozenTarget
  else if dst.any (fun r => s.anyPage a r.1 (r.2 - r.1) (fun _ d => !d.w) || inTagMap r.1 (r.2 - r.1)) then .accessDenied
  else .ok

end Sys2Proof.Machine
end

