-- ==== Sys2Proof/Machine/Skim.lean ====
section
/-! DEFINITION. The Skimmer engine: the head of its queue and the completion of an operation (spec/06). -/

namespace Sys2Proof.Machine

/-! ### Reading operands -/

/-- An element that an operand supplies: its value, its tag (spec/06 R166), the row and column tags of a Tub element, and
whether a tag rule has made it read +0 (R167, R168, spec/11 R340). -/
structure SEl where
  v : Val
  tag : Tag := .common
  rt : Tag := .common
  ct : Tag := .common
  hit : Bool := false
  deriving DecidableEq, Repr

/-- The 128 bytes of a tile's row. -/
def Ctx.tileRow (x : Ctx) (t r : Nat) : List Byte :=
  (List.range 128).map (fun i => Tbl.get 0 x.tiles (t * 4096 + r * 128 + i))

/-- Elements of one row of a tile in the view of a format. -/
def perRow (f : Fmt) : Nat := 1024 / f.bits

/-- The index in a tile's sidecar of the scale of element (r, c) of the tile (spec/06 R154). -/
def sideIdx (f : Fmt) (b : Blk) (r c : Nat) : Nat := r / b.height * (perRow f / b.width) + c / b.width

/-- Row r of a tile group of width w; a row that nothing has written carries the default tag (spec/06 R155), as it is for the allotment at
the read, a choice (log entry 108), and an element of a tenant
that was reset reads +0, whatever its block's scale (spec/10 R317). -/
def Ctx.groupRow (x : Ctx) (d : Tag) (f : Fmt) (b : Blk) (base w r : Nat) : List SEl :=
  let per := perRow f
  (List.range (groupLen f w)).flatMap (fun g =>
    let bs := x.tileRow (base + g) r
    let tag := Tbl.get d x.tileTags ((base + g) * 32 + r)
    (List.range (min per (w - g * per))).map (fun c =>
      if x.zeroCells.contains ((base + g) * 4096 + r * 128 + c * f.bits / 8) then ({ v := valOf f 0 0, tag := tag } : SEl) else
      { v := valOf f (Tbl.get 0 x.sidecars ((base + g) * 512 + sideIdx f b r c)).toNat (codeAt f.bits bs c), tag := tag }))

/-- Row r of an operand of width w on a core. An element of a block-scaled Loft row carries the tag of its code row's address, whatever
the place of its scale, a choice (log entry 108). -/
def State.opRow (s : State) (a c : Nat) (x : Ctx) (o : SOp) (w r : Nat) : List SEl :=
  match o.kind with
  | 1 => x.groupRow (s.defaultTag a) o.fmt o.blk o.base w r
  | 2 =>
    (List.range w).map (fun i =>
      let e : TubElem := Tbl.get {} x.tub ((o.base + r) * 128 + o.aux * 32 + i)
      { v := decodeElem o.fmt e.v.toNat, tag := e.rtag, rt := e.rtag, ct := e.ctag })
  | 3 =>
    let va := o.base + r * o.stride
    let tag := s.tagAt a c va
    let cs := s.readVa a va (ceilDiv (w * o.fmt.bits) 8)
    let scs := if o.fmt.isCf then s.readVa a (o.sva + r / o.blk.height * o.sstride) (ceilDiv w o.blk.width) else []
    (actCodes o.fmt o.blk cs scs w).map (fun p => { v := valOf o.fmt p.1 p.2, tag := tag })
  | 4 => List.replicate w { v := decodeElem o.fmt o.val }
  | 5 =>
    let e := (x.groupRow (s.defaultTag a) o.fmt .none o.base (o.aux + 1) r).getD o.aux { v := .zero }
    List.replicate w e
  | 6 => x.groupRow (s.defaultTag a) o.fmt .none o.base w o.aux
  | _ => List.replicate w { v := .zero }

/-- Whether an element's row tag and column tag name different tenant allotments (spec/11 R340). -/
def SEl.foreign (e : SEl) : Bool := isTenantTag e.rt && isTenantTag e.ct && tagOwner e.rt != tagOwner e.ct

/-- In the Green, an element of a mixed row reads +0 with the common tag (spec/06 R167, R168), and one whose row tag and column tag
name different tenant allotments reads +0 (spec/11 R340). -/
def SEl.unmix (green : Bool) (e : SEl) : SEl :=
  if green && e.tag == .mixed then { v := .zero, tag := .common, hit := true }
  else if green && e.foreign then { e with v := .zero, hit := true }
  else e

/-- The tag of an output row: the first tenant-tagged input's; else mixed where one is; else common (spec/06 R168). -/
def pickTag (ts : List Tag) : Tag :=
  match ts.find? isTenantTag with
  | some t => t
  | none => if ts.contains .mixed then .mixed else .common

/-- In the Green, an element of another tenant than the output row's reads +0 (spec/06 R168). -/
def SEl.guard (green : Bool) (t : Tag) (e : SEl) : SEl :=
  if green && isTenantTag e.tag && tagOwner e.tag != tagOwner t then { e with v := .zero, hit := true } else e

/-- The inputs of one output row: each operand's elements under the tag rules, the row's tag, and whether the row counts
as a tag refusal. -/
structure RowIn where
  els : List (List SEl)
  tag : Tag
  refused : Bool
  deriving DecidableEq, Repr

/-- The tag rules over the inputs of one output row, in operand order and then group order. -/
def rowIn (green : Bool) (inputs : List (List SEl)) : RowIn :=
  let es := inputs.map (fun l => l.map (SEl.unmix green))
  let t := pickTag (es.flatten.map SEl.tag)
  let gs := es.map (fun l => l.map (SEl.guard green t))
  { els := gs, tag := t, refused := gs.any (fun l => l.any SEl.hit) }

/-- The values of operand i of a row's inputs. -/
def RowIn.vals (i : RowIn) (n : Nat) : List Val := (i.els.getD n []).map SEl.v

/-! ### Writes -/

/-- One write of an operation, of consecutive elements: codes into a row of a tile group from a column on, with the row's
tag; scales into sidecars, by key; elements of a Tub row; codes of a Loft row; scales in Loft; the elements of a row that
the Green drops (spec/06 R165), which go nowhere. -/
inductive SkW where
  | tile (bits base r c0 : Nat) (codes : List Nat) (tag : Tag)
  | side (es : List (Nat × Nat))
  | tub (key : Nat) (es : List TubElem)
  | loft (va bits : Nat) (codes : List Nat)
  | loftScales (va : Nat) (es : List Nat)
  | dropped (n : Nat)
  deriving DecidableEq, Repr

/-- The number of elements that a write holds. -/
def SkW.size : SkW → Nat
  | .tile _ _ _ _ l _ => l.length
  | .side l => l.length
  | .tub _ l => l.length
  | .loft _ _ l => l.length
  | .loftScales _ l => l.length
  | .dropped n => n

/-- n bits from a Loft address on, reaching on to the end of the aligned 8-byte word that the last of them lies in: such a word
is written as a whole (spec/07 R200). -/
def wholeWords (va n : Nat) : Nat := if n = 0 then 0 else ceilDiv (8 * va + n) 64 * 64 - 8 * va

/-- The first n elements of a write; in Loft, the rest of the aligned 8-byte word that the last of them lies in comes with
them. -/
def SkW.take (n : Nat) : SkW → SkW
  | .tile b t r c l g => .tile b t r c (l.take n) g
  | .side l => .side (l.take n)
  | .tub k l => .tub k (l.take n)
  | .loft va b l => .loft va b (l.take (wholeWords va (n * b) / b))
  | .loftScales va l => .loftScales va (l.take (wholeWords va (8 * n) / 8))
  | .dropped m => .dropped (min m n)

/-- A write with what each of its elements adds to the numeric counters; what a whole row or block adds stands with its first
element. -/
structure SkStep where
  w : SkW
  evs : List Ev := []
  deriving DecidableEq, Repr

/-- The first n elements of a list of steps. -/
def takeSteps : Nat → List SkStep → List SkStep
  | _, [] => []
  | n, st :: t =>
    if n = 0 then []
    else
      let v := st.w.take n
      ({ w := v, evs := st.evs.take v.size } : SkStep) :: takeSteps (n - st.w.size) t

/-- What a list of steps adds to the numeric counters. -/
def stepsEv (l : List SkStep) : Ev := Ev.sum (l.flatMap SkStep.evs)

/-- A code put at element index i of packed bytes (spec/02 R31): the other nibble of a byte is left. -/
def putCode (b : Nat) (bs : List Byte) (i code : Nat) : List Byte :=
  if b = 4 then
    let old := (bs.getD (i / 2) 0).toNat
    bs.set (i / 2) (BitVec.ofNat 8 (if i % 2 = 0 then old / 16 * 16 + code else old % 16 + code * 16))
  else ((leBytes (b / 8) code).zip (List.range (b / 8))).foldl (fun l p => l.set (i * (b / 8) + p.2) p.1) bs

/-- Codes put from element index i on. -/
def putCodes (b : Nat) : List Byte → Nat → List Nat → List Byte
  | bs, _, [] => bs
  | bs, i, c :: cs => putCodes b (putCode b bs i c) (i + 1) cs

/-- Codes written into a row of one tile, and its tag. -/
def Ctx.putTile (x : Ctx) (bits t r c : Nat) (codes : List Nat) (tag : Tag) : Ctx :=
  let bs := putCodes bits (x.tileRow t r) c codes
  { x with
    tiles := (bs.zip (List.range 128)).foldl (fun m p => m.set (t * 4096 + r * 128 + p.2) p.1) x.tiles
    tileTags := x.tileTags.set (t * 32 + r) tag
    zeroCells := x.zeroCells.filter (fun k => !(decide (t * 4096 + r * 128 + c * bits / 8 ≤ k) &&
      decide (k < t * 4096 + r * 128 + ceilDiv ((c + codes.length) * bits) 8))) }

/-- Codes written into a row of a tile group from a column on; fuel bounds the registers. -/
def Ctx.putGroup (x : Ctx) (bits base r : Nat) (tag : Tag) : Nat → Nat → List Nat → Ctx
  | 0, _, _ => x
  | fuel + 1, c, codes =>
    if codes.isEmpty then x
    else
      let per := 1024 / bits
      let room := per - c % per
      (x.putTile bits (base + c / per) r (c % per) (codes.take room) tag).putGroup bits base r tag fuel (c + room) (codes.drop room)

/-- One write applied. -/
def State.skWrite (s : State) (a c : Nat) (w : SkW) : State :=
  match w with
  | .tile bits base r c0 codes tag => s.modCtx a c (fun x => x.putGroup bits base r tag 9 c0 codes)
  | .side es => s.modCtx a c (fun x => { x with sidecars := es.foldl (fun m p => m.set p.1 (BitVec.ofNat 8 p.2)) x.sidecars })
  | .tub key es =>
    s.modCtx a c (fun x =>
      { x with
        tub := (es.zip (List.range es.length)).foldl (fun m p => m.set (key + p.2) p.1) x.tub
        touched := insertNat x.touched (key / 128) })
  | .loft va bits codes =>
    let n := ceilDiv (codes.length * bits) 8
    let old := if bits = 4 then s.readVa a va n else List.replicate n 0
    s.writeVa a va (putCodes bits old 0 codes)
  | .loftScales va es => s.writeVa a va (es.map (BitVec.ofNat 8))
  | .dropped _ => s

/-- Steps taken: their writes applied, then their events counted (spec/06 R183). -/
def State.skSteps (s : State) (a c : Nat) (l : List SkStep) : State :=
  (l.foldl (fun t st => t.skWrite a c st.w) s).count a (stepsEv l)

/-! ### Conversion into a destination -/

/-- A destination's codes by row, its scales by row of blocks, and the counts of each element. -/
structure Grid where
  codes : List (List Nat)
  scales : List (List Nat)
  evs : List (List Ev)
  deriving DecidableEq, Repr

/-- The random bits of a destination element; 0 where the mode draws none. -/
def SkPlan.r24 (p : SkPlan) (r c : Nat) : Nat :=
  match p.sr with
  | some g => g.r24 r c
  | none => 0

/-- 32 rows of w exact results converted once each into a destination format (spec/02 R54 to R59, spec/06 R170, R172). -/
def SkPlan.toGrid (p : SkPlan) (f : Fmt) (b : Blk) (w : Nat) (g : List (List Exact)) : Grid :=
  let at' := fun (r c : Nat) => (g.getD r []).getD c (.rat false 0 1)
  if f.isCf then
    let bw := b.width
    let bh := b.height
    let nb := ceilDiv w bw
    let blocks := (List.range (32 / bh)).map (fun i => (List.range nb).map (fun j =>
      writeBlock f p.rnd ((List.range (bh * bw)).map (fun k =>
        (at' (i * bh + k / bw) (j * bw + k % bw), p.r24 (i * bh + k / bw) (j * bw + k % bw))))))
    { codes := (List.range 32).map (fun r => (blocks.getD (r / bh) []).flatMap (fun x => (x.2.1.drop (r % bh * bw)).take bw))
      scales := blocks.map (fun l => l.map Prod.fst)
      evs := (List.range 32).map (fun r => (blocks.getD (r / bh) []).flatMap (fun x => (x.2.2.drop (r % bh * bw)).take bw)) }
  else
    let cs := (List.range 32).map (fun r => (List.range w).map (fun c => convert f p.rnd p.wrap (p.r24 r c) (at' r c)))
    { codes := cs.map (fun l => l.map Prod.fst), scales := [], evs := cs.map (fun l => l.map Prod.snd) }

/-! ### An operation's results -/

/-- What an operation writes and counts, and the tag of each destination row. -/
structure SkOut where
  steps : List SkStep := []
  tags : List Tag := []
  deriving DecidableEq, Repr

/-- The counts of a whole operation; the tag refusals among them decide its status (spec/06 R183). -/
def SkOut.ev (o : SkOut) : Ev := stepsEv o.steps

/-- What a row adds when a tag rule affects it. -/
def refusalEv (refused : Bool) : Ev := { tagRefusals := b2n refused }

/-- In the Green, whether a row of this tag is kept from a Loft row (spec/06 R162 order 3, R165): a mixed one from any,
a tenant's from an unmapped one. -/
def Ctx.noLoft (x : Ctx) (va : Nat) (t : Tag) : Bool := t == .mixed || (isTenantTag t && (x.tagRow va).isNone)

/-- In the Green, whether a row is dropped at a Loft row: one of those, or a mapped row whose slot has another tag
(spec/06 R165). -/
def State.dropsRow (s : State) (a c : Nat) (x : Ctx) (va : Nat) (t : Tag) : Bool :=
  s.isGreen a && (x.noLoft va t || ((x.tagRow va).isSome && s.tagAt a c va != t))

/-- The writes of a converted grid into a destination, in row order, each row of scales before its rows. ins are the rows'
inputs, evs the counts of their elements, and ctag gives the column tags of a Tub destination. A row that the Green drops
still adds its elements' counts: the operation has converted them (log entry 85). The tag rules judge a row by the address of its codes,
and not by that of its scales, a choice (log entry 108). -/
def State.gridSteps (s : State) (a c : Nat) (x : Ctx) (o : SOp) (g : Grid) (ins : List RowIn) (evs : List (List Ev))
    (ctag : Nat → Nat → Tag) : List SkStep :=
  let rows := List.range 32
  let code := fun (r : Nat) => g.codes.getD r []
  let tag := fun (r : Nat) => match ins[r]? with | some i => i.tag | none => .common
  let dropped := fun (r : Nat) => o.kind == 3 && s.dropsRow a c x (o.base + r * o.stride) (tag r)
  let refused := fun (r : Nat) => dropped r || (match ins[r]? with | some i => i.refused | none => false)
  let ev := fun (r : Nat) => headEv (refusalEv (refused r)) (evs.getD r [])
  let bh := o.blk.height
  match o.kind with
  | 1 =>
    let per := perRow o.fmt
    rows.flatMap (fun r =>
      (if r % bh = 0 && o.fmt.isCf then
        let l := g.scales.getD (r / bh) []
        [({ w := SkW.side ((l.zip (List.range l.length)).map (fun p =>
          let col := p.2 * o.blk.width
          ((o.base + col / per) * 512 + sideIdx o.fmt o.blk r (col % per), p.1))) } : SkStep)]
      else []) ++ [({ w := SkW.tile o.fmt.bits o.base r 0 (code r) (tag r), evs := ev r } : SkStep)])
  | 2 =>
    rows.map (fun r =>
      ({ w := SkW.tub ((o.base + r) * 128 + o.aux * 32)
          (((code r).zip (List.range (code r).length)).map (fun p =>
            { v := BitVec.ofNat 32 p.1, rtag := tag r, ctag := ctag r p.2 }))
         evs := ev r } : SkStep))
  | _ =>
    rows.flatMap (fun r =>
      (if r % bh = 0 && o.fmt.isCf && (List.range bh).any (fun i => !dropped (r + i)) then
        [({ w := SkW.loftScales (o.sva + r / bh * o.sstride) (g.scales.getD (r / bh) []) } : SkStep)]
      else []) ++
        [({ w := if dropped r then SkW.dropped (code r).length else SkW.loft (o.base + r * o.stride) o.fmt.bits (code r)
            evs := ev r } : SkStep)])

/-- The column tags that a Tub destination takes: those of the first source operand that is Tub rows (spec/06 R160). -/
def State.skCtag (s : State) (a c : Nat) (x : Ctx) (p : SkPlan) (r i : Nat) : Tag :=
  match [p.a, p.b, p.c].find? (fun o => o.kind == 2) with
  | none => .common
  | some o => ((s.opRow a c x o p.w r).getD i { v := .zero }).ct

/-- The counts of a row's elements: those of the function, and those of the conversions, the padding's among them. -/
def addEvs (fs gs : List Ev) : List Ev := (gs.zip (List.range gs.length)).map (fun p => (fs.getD p.2 {}).add p.1)

/-- The results of 32 rows given by a function of the row's inputs, stored into D. A NaN result counts with its function; into
an integer destination its conversion counts as well, since R60 counts a NaN converted to an integer (log entry 86). -/
def State.skRows (s : State) (a c : Nat) (x : Ctx) (p : SkPlan) (ins : List RowIn) (f : RowIn → List (Exact × Ev))
    (keepProp : Bool) (remnant : Bool) : SkOut :=
  let res := ins.map f
  let g := p.toGrid p.d.fmt p.d.blk p.w (res.map (fun l => l.map Prod.fst))
  let conv := fun (e : Ev) =>
    let e1 := if keepProp then e else e.noProp
    if remnant then { e1 with saturations := 0, remnant := e1.remnant + e1.saturations } else e1
  let evs := (res.zip g.evs).map (fun r => addEvs (r.1.map Prod.snd) (r.2.map conv))
  { steps := s.gridSteps a c x p.d g ins evs (s.skCtag a c x p), tags := ins.map RowIn.tag }

/-- S.CVT (spec/06 R169, R170). -/
def State.skCvt (s : State) (a c : Nat) (x : Ctx) (p : SkPlan) : SkOut :=
  let ins := (List.range 32).map (fun r => rowIn (s.isGreen a) [s.opRow a c x p.a p.w r])
  s.skRows a c x p ins (fun i => (i.vals 0).map (fun v => (v.exact, {}))) true false

/-- S.FMA (spec/06 R172 to R174, spec/12 R356). -/
def State.skFma (s : State) (a c : Nat) (x : Ctx) (p : SkPlan) : SkOut :=
  let fn := p.opx % 16
  let ins := (List.range 32).map (fun r => rowIn (s.isGreen a)
    [s.opRow a c x p.a p.w r, s.opRow a c x p.b p.w r, s.opRow a c x p.c p.w r])
  s.skRows a c x p ins
    (fun i => ((i.vals 0).zip ((i.vals 1).zip (i.vals 2))).map (fun v => fmaFn fn v.1 v.2.1 v.2.2)) false
    (decide (0xB ≤ fn) && p.d.fmt == .int8)

/-- S.EXP (spec/06 R175). -/
def State.skExp (s : State) (a c : Nat) (x : Ctx) (p : SkPlan) (f : ExpFn) : SkOut :=
  let ins := (List.range 32).map (fun r => rowIn (s.isGreen a) [s.opRow a c x p.a p.w r])
  s.skRows a c x p ins (fun i => (i.vals 0).map (expVal (p.wrap && p.d.fmt.isInt) f)) false false

/-- Whether a score element is admissible (spec/06 R179). -/
def admissible (hedge causal : Bool) (q0 p0 r j : Nat) (e : SEl) : Bool :=
  (!hedge || (isTenantTag e.rt && e.rt == e.ct)) && (!causal || decide (p0 + j ≤ q0 + r))

/-- S.SMAX (spec/06 R179 to R182): HEDGE judges a score's column tag, and masking is no tag refusal; the tag rules judge the row tags
(log entry 21). A FINAL row whose sum is +0 counts the zero-blocks that it writes, a choice (log entry 109). -/
def State.skSmax (s : State) (a c : Nat) (x : Ctx) (p : SkPlan) (q0 p0 : Nat) : SkOut :=
  let green := s.isGreen a
  let hedge := bitAt p.opx 0 || green
  let causal := bitAt p.opx 1
  let init := bitAt p.opx 2
  let score := fun (r : Nat) => s.opRow a c x p.a p.w r
  let old := fun (r : Nat) => if init then [] else x.groupRow (s.defaultTag a) .binary32 .none p.b.base 3 r
  let ins := (List.range 32).map (fun r => rowIn green [(score r).map (fun e => { e with ct := .common }), old r])
  let rows := (ins.zip (List.range 32)).map (fun ir =>
    let sc := (ir.1.els.getD 0 []).zip (score ir.2)
    let xs := (sc.zip (List.range p.w)).map (fun e =>
      if admissible hedge causal q0 p0 ir.2 e.2 e.1.2 then some e.1.1.v else none)
    let st := ir.1.vals 1
    smaxRow xs (decodeElem .binary32 p.c.val) (if init then .inf true else st.getD 0 .zero)
      (if init then .zero else st.getD 1 .zero) (bitAt p.opx 3))
  let g := p.toGrid p.d.fmt p.d.blk p.w (rows.map SmaxRow.p)
  let tags := ins.map RowIn.tag
  let evs := (rows.zip g.evs).map (fun r => headEv r.1.ev (r.2.map Ev.noProp))
  let code := fun (v : Val) => (convert .binary32 .rne false 0 v.exact).1
  { steps := s.gridSteps a c x p.d g ins evs (s.skCtag a c x p) ++ ((rows.zip tags).zip (List.range 32)).map (fun y =>
      ({ w := SkW.tile 32 p.b.base y.2 0 [code y.1.1.m, code y.1.1.l, code y.1.1.c] y.1.2 } : SkStep))
    tags := tags }

/-- S.TOPK (spec/06 R178). -/
def State.skTopk (s : State) (a c : Nat) (x : Ctx) (p : SkPlan) : SkOut :=
  let ins := (List.range 32).map (fun r => rowIn (s.isGreen a) [s.opRow a c x p.a p.w r])
  let off := sext 32 p.c.val
  { steps := (ins.zip (List.range 32)).flatMap (fun y =>
      let top := topK (p.opx + 1) (y.1.vals 0)
      [({ w := SkW.tile 32 p.d.base y.2 0 (top.map (fun v => (convert .binary32 .rne false 0 v.1.exact).1)) y.1.tag
          evs := headEv (refusalEv y.1.refused) (top.map (fun v => { propagated := b2n v.1.isNan })) } : SkStep),
       ({ w := SkW.tile 32 p.b.base y.2 0 (top.map (fun v => wrapNat 32 ((v.2 : Nat) + off))) y.1.tag } : SkStep)])
    tags := ins.map RowIn.tag }

/-- The code of a reduction's result in its destination, and the count of its last rounding. -/
def redCode (f : RedFn) (v : Val) : Nat × Ev :=
  let r := convert (if f = .isum then .int32 else .binary32) .rne false 0 v.exact
  (r.1, r.2.noProp)

/-- S.RED (spec/06 R176, R177). -/
def State.skRed (s : State) (a c : Nat) (x : Ctx) (p : SkPlan) (f : RedFn) : SkOut :=
  let green := s.isGreen a
  let old := fun (w r : Nat) => if p.acc then x.groupRow (s.defaultTag a) p.d.fmt .none p.d.base w r else []
  if bitAt p.opx 3 then
    let i := rowIn green (((List.range 32).map (fun r => s.opRow a c x p.a p.w r)) ++ [old p.w p.d.aux])
    let o := i.vals 32
    let res := (List.range p.w).map (fun j =>
      let t := redTree f p.wrap (if p.acc then o[j]? else none) ((List.range 32).map (fun r => (i.vals r).getD j .zero))
      let k := redCode f t.1
      (k.1, t.2.add k.2))
    { steps := [{ w := SkW.tile 32 p.d.base p.d.aux 0 (res.map Prod.fst) i.tag
                  evs := headEv (refusalEv i.refused) (res.map Prod.snd) }]
      tags := [i.tag] }
  else
    let rows := (List.range 32).map (fun r =>
      let i := rowIn green [s.opRow a c x p.a p.w r, (old (p.d.aux + 1) r).drop p.d.aux]
      let t := redTree f p.wrap (i.vals 1).head? (i.vals 0)
      let k := redCode f t.1
      (i, k.1, t.2.add k.2))
    { steps := (rows.zip (List.range 32)).map (fun y =>
        ({ w := SkW.tile 32 p.d.base y.2 p.d.aux [y.1.2.1] y.1.1.tag, evs := [y.1.2.2.add (refusalEv y.1.1.refused)] } : SkStep))
      tags := rows.map (fun y => y.1.tag) }

/-- The results of an operation. -/
def State.skRun (s : State) (a c : Nat) (x : Ctx) (q : QOp) (p : SkPlan) : SkOut :=
  match p.op with
  | 1 => s.skCvt a c x p
  | 2 => s.skFma a c x p
  | 3 => match expFnOf p.opx with | some f => s.skExp a c x p f | none => {}
  | 4 => s.skSmax a c x p (q.regAt p.c.aux) (q.regAt (p.c.aux + 1))
  | 5 => s.skTopk a c x p
  | _ => match redFnOf (p.opx % 8) with | some f => s.skRed a c x p f | none => {}

/-! ### The head of the queue -/

/-- Orders 1 to 5 of the table Refusals at the Skimmer queue (spec/06 R162). -/
def State.skCheck (s : State) (a c : Nat) (x : Ctx) (q : QOp) : Except Status SkPlan :=
  match s.skPlan a q with
  | none => .error .shapeMismatch
  | some p =>
    let fp := p.footprint
    let kept := s.isGreen a && p.d.kind == 3 &&
      (((s.skRun a c x q p).tags.zip (List.range 32)).any (fun y => x.noLoft (p.d.base + y.2 * p.d.stride) y.1))
    if kept then .error .accessDenied
    else match s.skPages a c (loftRuns fp.reads) (loftRuns fp.writes) with
      | .ok => .ok p
      | st => .error st

/-- The head of the Skimmer queue taken into the list of started operations. -/
def Ctx.takeSkim (x : Ctx) (q : QOp) (st : Option Status) (fp : Footprint) : Ctx :=
  { x.takeIndex .skimmer with
    skimQ := takeIter x.skimQ
    skims := x.skims ++ [{ idx := x.nextIndex .skimmer, q := q, status := st, fp := fp }] }

/-- SKIMMER_QUEUE_HEAD: the head is checked and starts, or is refused (spec/06 R162). It waits for spilled pages (spec/09
R271), for provisional ranges (spec/07 R226), for room on the scoreboard (R224) and for a free place among the 64 started (R201);
in the Green, for the operations before it, whose rows its tag check reads. -/
def execSkimmerQueueHead (core : Nat) (s : State) : Res :=
  match s.onCore core with
  | none => .next s
  | some (a, x) =>
    match x.skimQ with
    | [] => .next s
    | q :: _ =>
      let started := x.skims.filter (fun r => r.status == none)
      let spilled := match s.skPlan a q with
        | none => false
        | some p => (loftRuns (p.footprint.reads ++ p.footprint.writes)).any (fun r => s.spilledIn a r.1 (r.2 - r.1))
      if decide (64 ≤ x.skims.length) || spilled || (s.isGreen a && !started.isEmpty) then .next s
      else
        let refuse := fun (t : State) (st : Status) =>
          (t.setCtx a core (x.takeSkim q (some st) {})).drainSkims a core (x.skims.length + 1)
        match s.skCheck a core x q with
        | .error st => .next (refuse s st)
        | .ok p =>
          let fp := p.footprint
          if x.mustWait q fp || !x.boardRoom (s.windowOf a core) fp then .next s
          else if x.hazard (s.windowOf a core) .skimmer fp then .next (refuse (s.noteHazard a core) .hazard)
          else .next ((s.translate a core fp).setCtx a core (x.takeSkim q none fp))

/-! ### Completion -/

/-- The first poisoned byte that an operation's Loft sources hold. -/
def State.skPoison (s : State) (a : Nat) (fp : Footprint) : Option Nat := s.firstPoison a fp.reads

/-- The oldest started operation of the Skimmer writes a free number of its elements (spec/10 R311, R314), whose events count
(spec/00 R10). -/
def State.skPartial (s : State) (a c : Nat) (x : Ctx) (r : SkimRun) : State :=
  match s.skPlan a r.q with
  | none => s
  | some p =>
    let d := s.drawNat
    d.2.skSteps a c (takeSteps d.1 (s.skRun a c x r.q p).steps)

/-- SKIMMER_OP_COMPLETE: the oldest started operation writes its results, adds its counts and increments its mark (spec/06
R156, R183). One that reads a poisoned word faults after a free number of its elements (spec/10 R311). -/
def execSkimmerOpComplete (core : Nat) (s : State) : Res :=
  match s.resident core with
  | none => .next s
  | some (a, x) =>
    match x.skims with
    | [] => .next s
    | r :: rest =>
      if r.status.isSome then .next (s.drainSkims a core x.skims.length)
      else
        let done := fun (t : State) (st : Status) =>
          ((t.modCtx a core (fun y => { y with skims := rest })).engineDone a core .skimmer r.idx st r.q.mark).drainSkims a core
            rest.length
        match s.skPoison a r.fp, s.skPlan a r.q with
        | some va, _ =>
          .next ((done (s.skPartial a core x r) .passAbortedFault).takeFault a core .skimmer .poison va r.idx)
        | none, none => .next (done s .shapeMismatch)
        | none, some p =>
          let o := s.skRun a core x r.q p
          .next (done ((s.skSteps a core o.steps).perf a 4 (32 * p.w)) (if o.ev.tagRefusals = 0 then .ok else .tagRefused))

end Sys2Proof.Machine
end

