-- ==== Sys2Proof/Machine/Faults.lean ====
section
/-! DEFINITION. Faults: the operation that one stops, and pages taken away at once (spec/04 R117, spec/09 R255, R271, spec/10 R311). -/

namespace Sys2Proof.Machine

/-! ### Users of a range (spec/09 R271) -/

/-- Whether a footprint reads, or touches, a range of the allotment's space. -/
def Footprint.readsVa (f : Footprint) (va len : Nat) : Bool := rngsMeet [vaRng va len] f.reads
def Footprint.touchesVa (f : Footprint) (va len : Nat) : Bool := rngsMeet [vaRng va len] (f.reads ++ f.writes)

/-- The footprints of a context's started operations that have not completed. -/
def Ctx.live (x : Ctx) : List Footprint :=
  (x.passes.filter (fun p => p.status.isNone)).map PassRun.fp ++ x.load.toList.map LoadRun.fp ++
    (x.skims.filter (fun r => r.status.isNone)).map SkimRun.fp ++ (x.trowels.filter (fun t => t.refused.isNone)).map TrowelRun.fp ++
    (x.moots.filter (fun r => match r.phase with
      | .refused _ => false
      | .done _ => false
      | _ => true)).map MootRun.fp

/-- Whether a BANK_LOAD that a core has accepted still copies from a range: the copy is the Trowel's (spec/07 R186). -/
def State.bankReads (s : State) (a va len : Nat) : Bool :=
  (s.allot a).cmds.any (fun e => match e.2.kind with
    | .bankLoad src n _ => !e.2.live.isEmpty && rngsMeet [vaRng va len] [vaRng src n]
    | _ => false)

/-- Whether a started operation of an allotment uses a range. -/
def State.inUse (s : State) (a va len : Nat) : Bool :=
  (s.allotCores a).any (fun c => (s.ctx a c).live.any (fun f => f.touchesVa va len)) || s.bankReads a va len

/-- What a Carter job writes: the pages of a fetch, the manifest words of a store (spec/09 R276). -/
def JobRec.written (r : JobRec) : Rng := if r.store then vaRng r.mva (4 * ceilDiv r.len 65536) else vaRng r.lva r.len

/-- Whether a started operation of any allotment uses, or writes, a range of the Well; a Carter job writes it too. -/
def State.wellUsed (s : State) (va len : Nat) : Bool := s.ctxs.any (fun e => e.2.live.any (fun f => f.touchesVa va len))
def State.wellWritten (s : State) (va len : Nat) : Bool :=
  s.ctxs.any (fun e => e.2.live.any (fun f => rngsMeet [vaRng va len] f.writes)) ||
    s.jobs.any (fun e => e.2.larder.isNone && rngsMeet [vaRng va len] [e.2.rec'.written])

/-- A removal of rights that is asked for and waits. -/
def State.askRemoval (s : State) (a va len : Nat) (kind : RemovalKind) : State :=
  { s with removals := s.removals ++ [{ allot := a, va := va, len := len, kind := kind }] }

/-! ### Stopped operations -/

/-- Whether an operation neither reads nor writes what the operations ahead of it in its engine write: only such a one can have written
something before they complete (spec/07 R202). -/
def Footprint.clearOf (f : Footprint) (ahead : List Footprint) : Bool := !ahead.any (fun g => rngsMeet (f.reads ++ f.writes) g.writes)

/-- A Skimmer operation stopped in its place of the started list: a free number of its elements is written. -/
def State.faultSkim (s : State) (a c i : Nat) (r : SkimRun) : State :=
  let x := s.ctx a c
  let s1 := if r.fp.clearOf ((x.skims.take i).map SkimRun.fp) then s.skPartial a c x r else s
  s1.modCtx a c (fun x => { x with skims := x.skims.modify i (fun (q : SkimRun) => { q with status := some .passAbortedFault }) })

/-- A Trowel operation stopped in its place of the started list: a free number of its bytes is written. -/
def State.faultTrowel (s : State) (a c i : Nat) (t : TrowelRun) : State :=
  let x := s.ctx a c
  let s1 := if t.fp.clearOf ((x.trowels.take i).map TrowelRun.fp) then s.stopPartial a c x t else s
  s1.modCtx a c (fun x => { x with trowels := x.trowels.modify i (fun (q : TrowelRun) => { q with refused := some .passAbortedFault }) })

/-- The started operation of an engine that a fault in a range stops: its index, and the state in which it has stopped with
PASS_ABORTED_FAULT after what it has moved; the others run on. -/
def State.stopAt (s : State) (a c : Nat) (e : Engine) (cause : FaultCause) (va len : Nat) : Option (Nat × State) :=
  let x := s.ctx a c
  match e with
  | .lath =>
    (x.passes.find? (fun p => p.status.isNone && p.fp.readsVa va len)).map (fun p => (p.idx, s))
  | .skimmer =>
    match x.skims.findIdx? (fun r => r.status.isNone && r.fp.touchesVa va len) with
    | none => none
    | some i =>
      if cause = .poison ∧ i ≠ 0 then none
      else (x.skims[i]?).map (fun r => (r.idx, (s.faultSkim a c i r).drainSkims a c x.skims.length))
  | .trowel =>
    let uses := fun (t : TrowelRun) => cause == .pageRemoved || t.q.tMode != 0 || t.q.tExpand
    match x.trowels.findIdx? (fun t => t.refused.isNone && !t.q.tFabric && uses t && t.fp.touchesVa va len) with
    | none => none
    | some i =>
      if cause = .poison ∧ i ≠ 0 then none
      else (x.trowels[i]?).map (fun t => (t.idx, (s.faultTrowel a c i t).drainTrowels a c x.trowels.length))
  | .moot =>
    match x.moots.findIdx? (fun r => r.fp.touchesVa va len && (match r.phase with
        | .reading _ _ => true
        | .waitShard _ _ => cause == .pageRemoved
        | _ => false)) with
    | none => none
    | some i => (x.moots[i]?).map (fun r => (r.idx, (s.endMoot a c i r .passAbortedFault).settleMoots a c))
  | _ => none

/-! ### Forced removals (spec/09 R271) -/

/-- Every started operation of an engine of a core that touches a range stops with PASS_ABORTED_FAULT; the state, and the first of them. fuel
bounds their number. -/
def State.stopUsers (s : State) (a c : Nat) (e : Engine) (va len : Nat) : Nat → State × Option (Engine × Nat)
  | 0 => (s, none)
  | fuel + 1 =>
    match s.stopAt a c e .pageRemoved va len with
    | none => (s, none)
    | some (op, t) =>
      if e = .lath then (t, some (e, op))
      else ((t.stopUsers a c e va len fuel).1, some (e, op))

/-- The started operations of a core on a range that a forced removal takes away end, and the core takes the fault (spec/04 R117). -/
def State.faultRange (s : State) (a c va len : Nat) : State :=
  let r := engines.foldl (fun (acc : State × Option (Engine × Nat)) e =>
    let x := acc.1.ctx a c
    let q := acc.1.stopUsers a c e va len (x.skims.length + x.trowels.length + x.moots.length + 1)
    (q.1, acc.2.orElse (fun _ => q.2))) (s, none)
  match r.2 with
  | none => r.1
  | some (e, op) => r.1.takeFault a c e .pageRemoved va op

/-! ### The event -/

/-- A G.LD or G.NLD that reads an address is due on a core. -/
def State.loadDue (s : State) (c va : Nat) : Option (Nat × Ctx) :=
  let hit := fun (x : Ctx) (ra : Reg) (off : W16) (n : Nat) => decide (gAddress x ra off n ≤ va) && decide (va < gAddress x ra off n + n)
  match s.due c with
  | some (a, x, .gLdB _ _ ra off) => if hit x ra off 1 then some (a, x) else none
  | some (a, x, .gLdH _ _ ra off) => if hit x ra off 2 then some (a, x) else none
  | some (a, x, .gLdW _ _ ra off) => if hit x ra off 4 then some (a, x) else none
  | some (a, x, .gLdD _ _ ra off) => if hit x ra off 8 then some (a, x) else none
  | some (a, x, .gNld _ _ ra off) => if hit x ra off 64 then some (a, x) else none
  | _ => none

/-- Whether a started transfer of the Trowel reads an address as a plain move, which carries poison on (spec/09 R255). -/
def Ctx.carries (x : Ctx) (e : Engine) (va : Nat) : Bool :=
  e == .trowel && x.startedTrowels.any (fun t => t.q.tMode == 0 && !t.q.tExpand && !t.q.tFabric && t.fp.readsVa va 1)

/-- A page that a started operation uses is spilled, or no longer mapped. -/
def State.pageGone (s : State) (a va : Nat) : Bool :=
  match s.pageOf a va with
  | none => true
  | some d => d.spilled

/-- FAULT: an operation of an engine that reads an address finds its protected word uncorrectable, which poisons the word, or its page gone:
the operation ends with PASS_ABORTED_FAULT and the core takes the fault; a plain move carries the poison on instead (spec/09 R255). A Lath
fault at address 0 is one in a weight register, the Hawk or a dry Tub value (spec/04 R117). A save area's word is found by the restore
(R312). A corrected single error leaves no trace but its event record (spec/09 R255, spec/16 event kind 0x04). -/
def execFault (a core : Nat) (engine : Engine) (cause : FaultCause) (va : BitVec 48) (s : State) : Res :=
  match s.ctx? a core with
  | none => .next s
  | some x =>
    let v := va.toNat
    match engine, cause with
    | _, .corrected =>
      match s.paOf a v with
      | none => .next s
      | some pa => .next (s.logEvent { kind := 0x04, written := pa, applied := b2n (decide (loftVa ≤ v)), allot := a })
    | .saveArea, .poison =>
      if x.everSwitched ∧ (s.core core).resident ≠ some a then .next (s.setCtx a core { x with savePoison := true }) else .next s
    | .ganger, .poison =>
      match s.loadDue core v, s.paOf a v with
      | some (b, y), some pa => if a = b then .next ((s.addPoison [wordOf pa]).gPoison a core y v) else .next s
      | _, _ => .next s
    | _, .poison =>
      if s.wardHeld (core / 32) then .next s
      else if engine = .lath ∧ v = 0 then
        match x.passes.find? (fun p => p.status.isNone) with
        | none => .next s
        | some p => .next (s.takeFault a core .lath .poison 0 p.idx)
      else match s.paOf a v with
        | none => .next s
        | some pa =>
          let s1 := s.addPoison [wordOf pa]
          match s1.stopAt a core engine cause v 1 with
          | none => .next (if x.carries engine v then s1 else s)
          | some (op, t) => .next (t.takeFault a core engine cause v op)
    | _, .pageRemoved =>
      if s.pageGone a v then
        match s.stopAt a core engine cause v 1 with
        | none => .next s
        | some (op, t) => .next (t.takeFault a core engine cause v op)
      else .next s

end Sys2Proof.Machine
end

