-- ==== Sys2Proof/Machine/Halt.lean ====
section
/-! DEFINITION. A core's set of allotments and their Loft frames (spec/10 R285 to R292), and the halt of a program (spec/07 R190,
R193, R197, R217, R541). -/

namespace Sys2Proof.Machine

/-! ### Loft frames (spec/09 R256, spec/10 R288, R289) -/

/-- The slice's frames that pages of a core's allotments use, rising. -/
def State.loftUsed (s : State) (c : Nat) : List Nat :=
  (s.coreAllots c).foldl (fun l a => ((s.ctx a c).pages).foldl (fun m e => insertNat m e.2.frame) l) []

/-- The descriptor of page j of a new Loft window: the program banks are written only by BANK_LOAD. -/
def newLoftPage (a j frame : Nat) : PageDesc :=
  { r := true, w := decide (8 ≤ j), draw := false, frozen := false, tag := true, scrub := true, owner := a, frame := frame }

/-- The physical range of a frame of a core's slice. -/
def loftFrame (c f : Nat) : Nat × Nat := (loftBase + c * windowSize + f * 0x10000, loftBase + c * windowSize + (f + 1) * 0x10000)

/-- A frame of a slice zeroed (spec/09 R270). -/
def State.zeroLoftFrame (s : State) (c f : Nat) : State := s.zeroRange (loftFrame c f).1 (loftFrame c f).2

/-- Pages added to the end of an allotment's window, from page j on, in free frames of the slice; fuel is their number. -/
def State.addLoft (s : State) (a c j : Nat) : Nat → State
  | 0 => s
  | fuel + 1 =>
    let f := lowestFree (s.loftUsed c) 0
    if 2048 ≤ f then s
    else (s.modCtx a c (fun x => { x with pages := x.pages.set j (newLoftPage a j f) })).addLoft a c (j + 1) fuel

/-- Pages at or above a count leave the window, and their frames are zeroed. -/
def State.trimLoft (s : State) (a c n : Nat) : State :=
  let gone := ((s.ctx a c).pages).filter (fun e => decide (n ≤ e.1))
  (gone.foldl (fun t e => t.zeroLoftFrame c e.2.frame) s).modCtx a c (fun x => { x with pages := x.pages.drop (fun j => decide (n ≤ j)) })

/-- The window of an allotment on a core takes the size of .06. Pages that started operations of its other cores use leave the window when
those have completed, as at a requested unmap (spec/09 R271). -/
def State.tuneLoft (s : State) (a c : Nat) : State :=
  let n := s.reg (0x3100 + a) 0x06
  let have' := ((s.ctx a c).pages).length
  let va := s.windowOf a c + n * 0x10000
  let len := (have' - n) * 0x10000
  if have' ≤ n then s.addLoft a c have' (n - have')
  else if !s.inUse a va len then s.trimLoft a c n
  else if s.removals.any (fun r => r.allot == a && r.kind == .loftTrim c) then s
  else s.askRemoval a va len (.loftTrim c)

/-! ### The set of allotments on a core (spec/10 R286, R287, R291, R292) -/

/-- Whether the applied definition of an allotment lists a core, and lists it as shared. -/
def State.listsCore (s : State) (a c : Nat) : Bool := s.reg (0x3100 + a) 0x01 != 0 && bitAt (s.reg (0x3100 + a) 0x02) c
def State.listsShared (s : State) (a c : Nat) : Bool := bitAt (s.reg (0x3100 + a) 0x03) c

/-- Whether a core is shared by an allotment, in force. -/
def State.sharedBy (s : State) (a c : Nat) : Bool := ((s.allot a).shared).contains c

/-- The allotments whose definitions list a core. -/
def State.listedOn (s : State) (c : Nat) : List Nat := (List.range 256).filter (fun a => s.listsCore a c)

/-- The size of each part of the Hawk when n allotments list the core. -/
def hawkPart (n : Nat) : Nat := if n ≤ 1 then 0x80000 else if n = 2 then 0x40000 else 0x20000

/-- The commands that name a core of an allotment end there, those not yet accepted and those accepted; the spec names no status for them
(log entry 2). -/
def State.endOnCore (s : State) (a c : Nat) : State :=
  (s.allot a).cmds.foldl (fun t e =>
    if e.2.todo.contains c || e.2.live.contains c then
      let k := { e.2 with todo := e.2.todo.filter (· != c) }
      let t1 := t.modAllot a (fun y => { y with cmds := y.cmds.set e.1 k })
      let t2 := if k.todo.isEmpty then t1.modStream a k.stream (fun z => match z.head with
          | some (.command id) => if id = e.1 then { z with head := none } else z
          | _ => z) else t1
      let d := t2.drawStatus
      d.2.cmdDone a e.1 c d.1
    else t) s

/-- A core leaves an allotment: its window is unmapped by force, which ends the started operations of the other cores on it with
PASS_ABORTED_FAULT (spec/09 R271); its context is discarded and its frames are zeroed (spec/10 R286). -/
def State.dropContext (s : State) (a c : Nat) : State :=
  let win := s.windowOf a c
  let s0 := ((s.allotCores a).filter (· != c)).foldl (fun t d => t.faultRange a d win windowSize) s
  let s1 := (s0.endOnCore a c).trimLoft a c 0
  { s1 with
    removals := s1.removals.filter (fun r => !(r.allot == a && r.kind == .loftTrim c))
    ctxs := s1.ctxs.erase (ctxKey a c), allots := Tbl.modify {} s1.allots a (fun y => { y with shared := y.shared.filter (· != c) }) }

/-- A core joins an allotment. -/
def State.addContext (s : State) (a c : Nat) : State := s.setCtx a c {}

/-- A phase of a core's switch after allotments have left it. -/
def SwitchPhase.keep (p : SwitchPhase) (on : List Nat) : SwitchPhase :=
  match p with
  | .idle => .idle
  | .leaving next r => .leaving (next.filter (fun n => on.contains n)) r
  | .restoring n => if on.contains n then .restoring n else .idle

/-- Who holds a core: an exclusive core's allotment always, a shared core's while it stays (spec/10 R287). -/
def State.tuneHolder (s : State) (c : Nat) : State :=
  let on := s.coreAllots c
  match on with
  | [a] =>
    if s.sharedBy a c then s.modCore c (fun k => { k with resident := k.resident.filter (fun n => on.contains n), phase := k.phase.keep on })
    else s.modCore c (fun k => { k with resident := some a, phase := .idle })
  | _ => s.modCore c (fun k => { k with resident := k.resident.filter (fun n => on.contains n), phase := k.phase.keep on })

/-- The Hawk divided among a core's allotments anew: zeroed, unmarked, with empty rings (spec/10 R291, R292); the Trowel's translation cache
is divided anew too, and emptied (spec/09 R262). -/
def State.divideHawk (s : State) (c : Nat) : State :=
  let on := s.coreAllots c
  let size := hawkPart on.length
  let s1 := s.modCore c (fun k => { k with hawk := [], drawn := [], owners := [], hawkTags := [], hawkPoison := [], tlb := [] })
  (on.zip (List.range on.length)).foldl (fun t e =>
    t.modCtx e.1 c (fun x => { x with rings := [], hawkBase := e.2 * size, hawkLen := size })) s1

/-- Whether an allotment's program is halted on a core. -/
def State.haltedOn (s : State) (a c : Nat) : Bool := (s.ctx a c).run == .halted

/-- A change in the set of allotments on a core, once all of them are halted there (spec/10 R292). -/
def State.settleSet (s : State) (c : Nat) : State :=
  let want := s.listedOn c
  let have' := s.coreAllots c
  if want = have' || have'.any (fun a => !s.haltedOn a c) then s
  else
    let s1 := (have'.filter (fun a => !want.contains a)).foldl (fun t a => t.dropContext a c) s
    let s2 := (want.filter (fun a => !have'.contains a)).foldl (fun t a => t.addContext a c) s1
    s2.divideHawk c

/-- The changes of .03 and .06 that concern an allotment halted on a core (spec/10 R286). -/
def State.settleOne (s : State) (a c : Nat) : State :=
  if s.haltedOn a c && s.listsCore a c && s.reg (0x3100 + a) 0x01 == 1 then
    let s1 := s.tuneLoft a c
    if s1.listsShared a c = s1.sharedBy a c then s1
    else s1.modAllot a (fun y => { y with shared := if s1.listsShared a c then insertNat y.shared c else y.shared.filter (· != c) })
  else s

/-- Every change that waits for halts on a core takes effect as far as it can (spec/10 R286, R292); page tables do not change while a live
activation runs (spec/15 R451). -/
def State.settleCore (s : State) (c : Nat) : State :=
  if s.activating.isSome then s
  else
    let s1 := s.settleSet c
    ((s1.coreAllots c).foldl (fun t a => t.settleOne a c) s1).tuneHolder c

/-! ### Halting (spec/07 R193, R197, R217, R541) -/

/-- The open epochs of a program are cancelled at its halt; every operation has completed, so every epoch closes, oldest first
(spec/07 R228). A cancel by the halt increments no mark. -/
def State.closeEpochs (s : State) (a c : Nat) : State :=
  ((s.ctx a c).epochs.reverse).foldl (fun t p =>
    t.closeEpoch a c (if p.state = .opened then { p with state := .cancelled, marks := [], ringBytes := [] } else p)) s

/-- The commands that complete with a halt: the START, or the block that holds the halting instruction, with every block behind it when
the program is stopped and does not halt on its own; and the HALT commands. -/
def State.haltCommands (s : State) (a c : Nat) (x : Ctx) (st : Status) : State :=
  let own := match x.src with
    | .bank _ => x.cmd.toList
    | .queue => if x.abrupt then x.iq.map SBlock.cmd else (x.iq.map SBlock.cmd).take 1
  x.haltCmds.foldl (fun t id => t.cmdDone a id c .ok) (own.foldl (fun t id => t.cmdDone a id c st) s)

/-- The blocks behind the one that halted start a new streamed execution, with the state of R196. -/
def State.restartQueue (s : State) (a c : Nat) : State :=
  match s.ctx? a c with
  | none => s
  | some x =>
    match x.iq with
    | [] => s
    | b :: _ => s.setCtx a c { s.startCtx a c x 0 0 with src := .queue, pc := b.base, cmd := none }

/-- The program on a core whose halt is due: the one of the allotment that holds the core, else one that has been switched out, in
allotment order (spec/10 R314: at an expiry every core of the allotment halts); none while the ward is held (spec/04 R121). -/
def State.haltDue (s : State) (c : Nat) : Option (Nat × Ctx × Status) :=
  let due := fun (a : Nat) => match s.ctx? a c with
    | some x => (match x.run with
      | .stopping st => if x.quiet then some (a, x, st) else none
      | _ => none)
    | none => none
  if s.wardHeld (c / 32) then none
  else ((s.core c).resident.toList ++ s.coreAllots c).findSome? due

/-- CORE_HALT_COMPLETE: once every operation that the program issued has completed, the core halts: its epochs close, its completion carries
the choice of R217, changes that waited take effect, and blocks kept in the instruction queue run. -/
def execCoreHaltComplete (core : Nat) (s : State) : Res :=
  match s.haltDue core with
  | none => .next s
  | some (a, _, st) =>
    let s1 := s.closeEpochs a core
    let y := s1.ctx a core
    let kept := if y.abrupt then [] else match y.src with
      | .queue => y.iq.drop 1
      | .bank _ => []
    let s2 := s1.setCtx a core
      { y with
        run := .halted, abrupt := false, wdStop := false, loops := [], fifo := [], rings := [], cmd := none, iq := kept, haltCmds := []
        checked := false }
    let s3 := s2.haltCommands a core y (y.choice st)
    .next (((s3.settleCore core).restartQueue a core).tuneWatchdog a)

end Sys2Proof.Machine
end

