-- ==== Sys2Proof/Machine/Turns.lean ====
section
/-! DEFINITION. Turns and switches of shared cores, budgets and meters (spec/10 R306 to R310, R312, R315). -/

namespace Sys2Proof.Machine

/-! ### Turns (spec/10 R306) -/

/-- Whether a command waits for a core of an allotment at the head of one of its streams. -/
def State.commandWaits (s : State) (a c : Nat) : Bool :=
  (s.allot a).streams.any (fun e => match e.2.head with
    | some (.command id) =>
      match (s.allot a).cmds.find id with
      | some k => k.todo.contains c
      | none => false
    | _ => false)

/-- Whether an allotment has work on a core. -/
def State.hasWork (s : State) (a c : Nat) : Bool := !s.haltedOn a c || s.commandWaits a c

/-- Whether the budget holds an allotment (spec/10 R307). -/
def State.budgetHeld (s : State) (a : Nat) : Bool := (s.allot a).held

/-- The next allotment in ascending number after one, cyclically, that has work on a core and is not held. -/
def State.nextTurn (s : State) (c : Nat) (cur : Option Nat) : Option Nat :=
  let on := s.coreAllots c
  let order := match cur with
    | none => on
    | some a => on.filter (fun n => decide (a < n)) ++ on.filter (fun n => decide (n < a))
  order.find? (fun n => s.hasWork n c && !s.budgetHeld n)

/-- Whether a core is shared. -/
def State.sharedCore (s : State) (c : Nat) : Bool := (s.coreAllots c).any (fun a => s.sharedBy a c)

/-- The holder of a core ends its turn. -/
def State.endTurn (s : State) (a c : Nat) (next : Option Nat) (r : SwitchReason) : State :=
  (s.modCtx a c (fun x => { x with outTime := s.timer, outReason := r })).modCore c (fun k => { k with phase := .leaving next r })

/-- TURN_END: the turn of a shared core's holder has expired, or its holder has no work: the next allotment with work gets the core; with
none, the turn is renewed. A holder that its budget holds is switched out at once, at the boundary that comes next (spec/10 R307, R308). A
core that nobody holds goes to the first with work. -/
def execTurnEnd (core : Nat) (s : State) : Res :=
  let k := s.core core
  if !s.sharedCore core || k.phase != .idle then .next s
  else match k.resident with
    | none =>
      match s.nextTurn core none with
      | none => .next s
      | some n => .next (s.setCore core { k with phase := .restoring n })
    | some a =>
      let expired := decide (k.turnStart + s.reg (0x3100 + a) 0x04 * 1000 ≤ s.timer)
      let idle := !s.hasWork a core
      if s.budgetHeld a then .next (s.endTurn a core (s.nextTurn core (some a)) .budgetHeld)
      else if !expired && !idle then .next s
      else match s.nextTurn core (some a) with
        | some n => .next (s.endTurn a core (some n) (if idle then .haltedIdle else .turnEnded))
        | none => .next (if expired then s.setCore core { k with turnStart := s.timer } else s)

/-! ### Switches (spec/10 R308, R309, R312) -/

/-- SWITCH_OUT: once the started passes have committed, the started Skimmer operations have completed, and so has a load whose swapping pass
has started (spec/04 R121), the holder's context is saved and the core goes to the next allotment. A program that the watchdog
stops halts first, whatever the status it was stopping with (spec/10 R318). Another load rests with the context and reads on after the restore. -/
def execSwitchOut (core : Nat) (s : State) : Res :=
  match (s.core core).phase, s.resident core with
  | .leaving next _, some (a, x) =>
    if !x.passes.isEmpty || !x.skims.isEmpty || x.load.any LoadRun.behind || x.wdStop then .next s
    else
      let s1 := s.setCtx a core { x with savedRows := x.touched.length, touched := [], everSwitched := true }
      let phase : SwitchPhase := match next with
        | none => .idle
        | some n => .restoring n
      .next ((s1.modCore core (fun k => { k with resident := none, phase := phase })).tuneWatchdog a)
  | _, _ => .next s

/-- The code of a switch's reason. -/
def reasonCode : SwitchReason → Nat
  | .turnEnded => 0
  | .budgetHeld => 1
  | .haltedIdle => 2

/-- The 32 bytes of a switch record (spec/10, table Switch record). -/
def switchRecord (x : Ctx) (now : Nat) : List Byte :=
  leBytes 32 (x.outTime % 2 ^ 64 * 2 ^ 192 + now % 2 ^ 64 * 2 ^ 128 + x.passIndex % 2 ^ 24 * 2 ^ 104 + stCode .preempted * 2 ^ 96 +
    reasonCode x.outReason * 2 ^ 88 + x.savedRows % 2 ^ 16 * 2 ^ 72)

/-- A context whose save area held a poisoned word (spec/10 R312): its Tub, tiles and weights are as after assignment, its queues empty, and
its program is halted. -/
def Ctx.lose (x : Ctx) : Ctx :=
  { x.dropQueues with
    tub := [], touched := [], tiles := [], sidecars := [], tileTags := [], zeroCells := [], active := [], shadow := [], split := 0, fifo := [], passes := []
    skims := [], load := none, tagStore := none, savePoison := false, abrupt := true, run := x.run.faulted }

/-- SWITCH_RESTORE: the incoming allotment's context comes back, and its switch record is written; a poisoned save area loses the context.
While a confidential allotment is resident, the core's trace stops (spec/15 R458).
-/
def execSwitchRestore (core : Nat) (s : State) : Res :=
  match (s.core core).phase with
  | .restoring n =>
    match s.ctx? n core with
    | none => .next s
    | some x =>
      if s.wardHeld (core / 32) then .next s
      else
        let quiet := if s.reg (0x3100 + n) 0x0D = 0 then s else s.stopTrace (· == core)
        let s1 := quiet.modCore core (fun k => { k with resident := some n, turnStart := s.timer, phase := .idle })
        let at' := s.windowOf n core + 0x81000 + x.switchCount % 64 * 32
        let s2 :=
          if x.savePoison then (s1.setCtx n core x.lose).writeFaultRecord n core 0 .saveArea .poison 0 x.resumePass
          else if x.everSwitched then
            (s1.writeVa n at' (switchRecord x s.timer)).setCtx n core { x with switchCount := x.switchCount + 1, resumed := true }
          else s1
        .next (s2.tuneWatchdog n)
  | _ => .next s

/-- The time for which comparator 7 is armed: the earliest expiry of the running watchdogs (spec/19 R530). -/
def State.watchdogDue (s : State) : Option Nat :=
  s.allots.foldl (fun m e =>
    match e.2.wdSince with
    | none => m
    | some t =>
      let due := t + s.reg (0x3100 + e.1) 0x0B * 1000
      some (min due (m.getD due))) none

/-! ### Budgets and meters (spec/10 R307, R315) -/

/-- BUDGET_REACHED: the shared-core residency of an allotment has reached its budget. -/
def execBudgetReached (n : Nat) (s : State) : Res :=
  let b := s.reg (0x3100 + n) 0x05
  if b ≠ 0 ∧ b * 1000 ≤ (s.allot n).residency ∧ !s.budgetHeld n then .next (s.modAllot n (fun x => { x with held := true })) else .next s

/-- BUDGET_WINDOW: a window of 60 s begins. -/
def execBudgetWindow (s : State) : Res :=
  if s.timer % 60000000000 = 0 then
    .next { s with allots := s.allots.map (fun (e : Nat × Allot) => (e.1, { e.2 with held := false, residency := 0 })) }
  else .next s

/-- Whether an allotment holds a core for its meter: an exclusive core always, a shared one from the start of its restore to the end of
its save. -/
def State.metered (s : State) (n c : Nat) : Bool :=
  (s.ctx? n c).isSome && (!s.sharedBy n c || (s.core c).resident == some n || (s.core c).phase == .restoring n)

/-- CORE_METER_TICK: one microsecond in which an allotment holds a core, counted once for each core and microsecond. -/
def execCoreMeterTick (n core : Nat) (s : State) : Res :=
  let us := s.timer / 1000
  if s.metered n core ∧ Tbl.get 0 (s.allot n).coreTicks core < us then
    .next ((s.bumpReg (0x3100 + n) 0x20 1).modAllot n (fun x =>
      { x with
        coreTicks := x.coreTicks.set core us
        residency := if x.shared.contains core then x.residency + 1 else x.residency }))
  else .next s

/-- The MiB of HBM that an allotment's meter counts: its mapped pages and its groups' reservations, and its resident Larder pages; not the
Well's (spec/10 R315, spec/14 R403). -/
def State.meteredMiB (s : State) (n : Nat) : Nat :=
  2 * (s.pagesUsed n + ((s.larder.filter (fun e => e.2.owner == n && e.2.ownerMapped)).map (fun e => e.2.frames.length)).foldl (· + ·) 0)

/-- HBM_METER_TICK: one millisecond of the HBM meter, counted once for each millisecond. -/
def execHbmMeterTick (n : Nat) (s : State) : Res :=
  let ms := s.timer / 1000000
  if (s.allot n).hbmTick < ms ∧ s.reg (0x3100 + n) 0x01 ≠ 0 then
    .next ((s.bumpReg (0x3100 + n) 0x21 (s.meteredMiB n)).modAllot n (fun x => { x with hbmTick := ms }))
  else .next s

end Sys2Proof.Machine
end

