-- ==== Sys2Proof/Machine/Stops.lean ====
section
/-! DEFINITION. Watchdog expiry (spec/04 R118, R121, spec/10 R313, R314). -/

namespace Sys2Proof.Machine

/-! ### Watchdogs (spec/10 R313, R314) -/

/-- Every started Skimmer operation of a context stops after a free number of its elements and completes with a status; the refused ones
complete as they were refused, in order. fuel is their number. -/
def State.stopSkims (s : State) (a c : Nat) (st : Status) : Nat → State
  | 0 => s
  | fuel + 1 =>
    match (s.ctx a c).skims with
    | [] => s
    | r :: rest =>
      let s1 := if r.status.isSome then s else s.skPartial a c (s.ctx a c) r
      ((s1.modCtx a c (fun x => { x with skims := rest })).engineDone a c .skimmer r.idx (r.status.getD st) r.q.mark).stopSkims a c st fuel

/-- Every started Trowel operation of a context stops after a free number of its bytes and completes with a status; fuel is their number. -/
def State.stopTrowels (s : State) (a c : Nat) (st : Status) : Nat → State
  | 0 => s
  | fuel + 1 =>
    match (s.ctx a c).trowels with
    | [] => s
    | t :: rest =>
      let s1 := if t.refused.isNone then s.stopPartial a c (s.ctx a c) t else s
      ((s1.modCtx a c (fun x => { x with trowels := rest })).trowelDone a c t (t.refused.getD st) true).stopTrowels a c st fuel

/-- A core of an allotment whose watchdog expires (spec/04 R118, spec/10 R314): its started passes are discarded, its started Skimmer, Trowel
and Moot operations stop and complete with WATCHDOG, its queued operations are discarded, and its program halts. A started load runs on. -/
def State.watchdogCore (s : State) (a c : Nat) : State :=
  let s1 := s.discardPasses a c .watchdog (s.ctx a c).passes.length
  let s2 := s1.modCtx a c (fun x => { x.stopNow .watchdog with expired := false, wdStop := x.run != .halted })
  let s3 := s2.stopSkims a c .watchdog (s2.ctx a c).skims.length
  let s4 := s3.stopTrowels a c .watchdog (s3.ctx a c).trowels.length
  s4.endMoots a c .watchdog

/-- The Carter jobs of an allotment are to stop at their next block boundary with a status. -/
def State.stopJobs (s : State) (a : Nat) (st : Status) : State :=
  { s with jobs := s.jobs.map (fun (e : Nat × Job) => if e.2.allot = a ∧ e.2.stop.isNone ∧ e.2.larder.isNone then (e.1, { e.2 with stop := some st }) else e) }

/-- WATCHDOG_EXPIRY: the watchdog of an allotment has run for its period: every one of its cores stops, those of a held ward when the hold
lifts (spec/04 R121), and its Carter jobs stop. -/
def execWatchdogExpiry (n : Nat) (s : State) : Res :=
  let p := s.reg (0x3100 + n) 0x0B
  match (s.allot n).wdSince with
  | none => .next s
  | some t =>
    if p = 0 ∨ s.timer < t + p * 1000 then .next s
    else
      let s1 := (s.allotCores n).foldl (fun u c =>
        if u.wardHeld (c / 32) then u.modCtx n c (fun x => { x with expired := true }) else u.watchdogCore n c) s
      .next ((s1.stopJobs n .watchdog).modAllot n (fun x => { x with wdSince := none, wdSpent := true }))

end Sys2Proof.Machine
end

