-- ==== Sys2Proof/Machine/PageCmds.lean ====
section
/-! DEFINITION. Page descriptors as parties ask for them, removals of rights, and spills (spec/09 R257 to R260, R270, R271). -/

namespace Sys2Proof.Machine

/-! ### Descriptors -/

/-- A page's descriptor set, or the page unmapped: its frame is zeroed under SCRUB and is free (spec/09 R270); no cache keeps the former
descriptor (log entry 95). -/
def State.putPage (s0 : State) (a va : Nat) (d : Option PageDesc) : State :=
  let s := s0.dropCached a va 1
  if loftVa ≤ va then
    match s.loftPlace a va, d with
    | some (c, j), some p => s.modCtx a c (fun x => { x with pages := x.pages.set j p })
    | _, _ => s
  else match d with
    | some p => { s with hbmPages := s.hbmPages.set (hbmKey a va) p }
    | none =>
      match s.hbmPages.find (hbmKey a va) with
      | none => s
      | some old =>
        let s1 := if old.scrub then s.zeroRange (old.frame * 0x200000) ((old.frame + 1) * 0x200000) else s
        { s1 with hbmPages := s1.hbmPages.erase (hbmKey a va), hbmUsed := s1.hbmUsed.filter (· != old.frame) }

/-- A Well slot. -/
def State.wellSlot (s : State) (slot : Nat) : WellSlot := Tbl.get {} s.wells slot

/-- Whether a started operation holds a removal up: for the seal of a slot one that writes it, for the rest one that uses the range. A slot's
clear waits for a digest that is being recorded, and its seal for an emptying. -/
def State.removalHeld (s : State) (r : Removal) : Bool :=
  match r.kind with
  | .wellSeal slot =>
    let keep := ceilDiv (s.reg (0x3201 + slot) 0x04) 0x200000 * 0x200000
    (s.wellSlot slot).unmapped || s.wellWritten r.va r.len || (decide (keep < r.len) && s.wellUsed (r.va + keep) (r.len - keep))
  | .wellTrim _ _ => s.wellUsed r.va r.len
  | .wellClear slot => (s.wellSlot slot).sealing || s.wellUsed r.va r.len
  | _ => s.inUse r.allot r.va r.len

/-- Whether a removal may apply: every started operation that holds it up has completed, and no earlier removal of the range waits. -/
def State.removalReady (s : State) (i : Nat) (r : Removal) : Bool :=
  !s.removalHeld r &&
    !((s.removals.take i).any (fun q => q.allot == r.allot && decide (q.va < r.va + r.len) && decide (r.va < q.va + q.len)))

/-- The attributes that a party may give a page (spec/09, table Permitted attributes). -/
def State.attrsOk (s : State) (n : Nat) (p : PageAttrs) : Bool :=
  p.r && !p.draw && (!s.isTenant n || (p.tag && p.scrub))

/-- Where a party may have pages of its own mapped: HBM addresses outside the Well, the fabric window, the Larder's range and the page of the
doorbell window, and in the Green outside the regions of R296 (spec/11 R326, spec/17 R496). -/
def State.mappable (s : State) (n va : Nat) : Bool :=
  decide (va < 0x400000000000) || (decide (0x700000000000 ≤ va) && decide (va < 0x7FFFFFE00000) && !s.isGreen n)

/-- Whether a session acts for an allotment: as its tenant, or as the operator. -/
def State.actsTenant (s : State) (sess n : Nat) : Bool :=
  match s.session sess with
  | none => false
  | some x => s.holds x .t && x.bound == some n

def State.actsOperator (s : State) (sess : Nat) : Bool := s.roleOf sess .o

/-- A descriptor of an allotment's own page. -/
def pageFor (n frame : Nat) (p : PageAttrs) : PageDesc :=
  { r := p.r, w := p.w, draw := false, frozen := p.frozen, tag := p.tag, scrub := p.scrub, owner := n, frame := frame }

/-- Whether a change takes a right away: R or W cleared, FROZEN set. -/
def takesRight (d : PageDesc) (p : PageAttrs) : Bool := (d.r && !p.r) || (d.w && !p.w) || (!d.frozen && p.frozen)

/-- Whether a party may change a page's attributes: the operator those of its own pages, the tenant W and FROZEN of its HBM pages and of its
Loft frames beyond the control page (spec/09 R259, spec/10 R288). -/
def State.mayChange (s : State) (sess n va : Nat) : Bool :=
  (if s.isTenant n then s.actsTenant sess n else s.actsOperator sess) &&
    (if loftVa ≤ va then decide (9 ≤ (va - loftVa) % windowSize / 0x10000) else s.mappable n va)

/-- A page request's effect and status. -/
def State.pageRequest (s : State) (sess n va : Nat) (req : PageRequest) : State × Status :=
  let at' := pageBase va
  match req with
  | .map p =>
    let f := lowestFree s.hbmUsed 0
    if !(s.actsTenant sess n || s.actsOperator sess) || s.reg (0x3100 + n) 0x01 != 1 || !s.mappable n at' || decide (loftVa ≤ at') ||
        !s.attrsOk n p || (s.pageOf n at').isSome || decide (s.reg (0x3100 + n) 0x07 ≤ s.pagesUsed n) || decide (hbmFrames ≤ f) then
      (s, .accessDenied)
    else ({ s with hbmUsed := insertNat s.hbmUsed f }.putPage n at' (some (pageFor n f p)), .ok)
  | .change p =>
    match s.pageOf n at' with
    | none => (s, .accessDenied)
    | some d =>
      if !s.mayChange sess n at' || !s.attrsOk n p then (s, .accessDenied)
      else
        let new : PageDesc := { pageFor n d.frame p with spilled := d.spilled, owner := d.owner }
        let waiting := s.removals.any (fun r => r.allot == n && r.va == at')
        if waiting || (takesRight d p && s.inUse n at' (pageSize at')) then
          (s.askRemoval n at' (pageSize at') (.page (some new)), .ok)
        else (s.putPage n at' (some new), .ok)
  | .unmap =>
    match s.pageOf n at' with
    | none => (s, .accessDenied)
    | some _ =>
      if !(s.actsTenant sess n || s.actsOperator sess) || !s.mappable n at' || decide (loftVa ≤ at') then (s, .accessDenied)
      else if !s.inUse n at' 0x200000 && !s.removals.any (fun r => r.allot == n && r.va == at') then
        (s.putPage n at' none, .ok)
      else (s.askRemoval n at' 0x200000 (.page none), .ok)

/-- PAGE_ATTRIBUTE_REQUEST: a party asks for a page of an allotment to be mapped, changed or unmapped; another combination of attributes is
refused (spec/09 R258, R259). -/
def execPageAttributeRequest (sess n : Nat) (va : BitVec 48) (req : PageRequest) (s : State) : Res :=
  s.rowOf sess (0x3100 + n) 0 (State.wrote (s.pageRequest sess n va.toNat req) sess (0x3100 + n) 0)

/-! ### Forced removals and spills (spec/09 R271) -/

/-- PAGE_SPILL: the Verger takes a page of an allotment's Loft window away at once; page tables do not change while a live activation
runs (spec/15 R451). -/
def execPageSpill (a core page : Nat) (s : State) : Res :=
  match (s.ctx a core).pages.find page with
  | none => .next s
  | some d =>
    if d.spilled ∨ (s.ctx? a core).isNone ∨ s.activating.isSome then .next s
    else
      let va := s.windowOf a core + page * 0x10000
      let s1 := (s.allotCores a).foldl (fun t c => t.faultRange a c va 0x10000) s
      .next ((s1.dropCached a va 1).modCtx a core (fun x => { x with pages := x.pages.set page { d with spilled := true } }))

/-- The records that wait for a page are put into their slots, by the page's rights as they now stand (spec/04 R112). -/
def State.writeHeld (s : State) (a c page : Nat) : State :=
  let x := s.ctx a c
  let due := x.heldRecords.filter (fun r => r.off / 0x10000 == page)
  due.foldl (fun t r => t.putRecord a c r)
    (s.setCtx a c { x with heldRecords := x.heldRecords.filter (fun r => r.off / 0x10000 != page) })

/-- PAGE_RETURN: a spilled page is back; operations that wait for it can start. -/
def execPageReturn (a core page : Nat) (s : State) : Res :=
  match (s.ctx a core).pages.find page with
  | none => .next s
  | some d =>
    if d.spilled ∧ s.activating.isNone then
      .next (((s.dropCached a (s.windowOf a core + page * 0x10000) 1).modCtx a core
        (fun x => { x with pages := x.pages.set page { d with spilled := false } })).writeHeld a core page)
    else .next s

end Sys2Proof.Machine
end

