-- ==== Sys2Proof/Machine/Larder.lean ====
section
/-! DEFINITION. The Larder: its directory, fills, pins, eviction, withdrawal, base switches, rechecks and quotas (spec/11 R319 to R335, R343 to
R346). -/

namespace Sys2Proof.Machine

/-! ### The directory (spec/11 R324, R325) -/

/-- An entry by its handle, changed. -/
def State.modEntry (s : State) (h : Nat) (f : LEntry → LEntry) : State :=
  match s.larder.find h with
  | none => s
  | some e => { s with larder := s.larder.set h (f e) }

/-- The entry of an allotment and an adaptation number. -/
def State.entryOf (s : State) (owner adapt : Nat) : Option (Nat × LEntry) :=
  s.larder.find? (fun e => e.2.owner == owner && e.2.adapt == adapt)

/-- The entries of an allotment. -/
def State.entriesOf (s : State) (owner : Nat) : List (Nat × LEntry) := s.larder.filter (fun e => e.2.owner == owner)

/-- The counts of resident entries (spec/11, table Larder objects): of the device, and of an allotment. -/
def State.countEntries (s : State) (owner : Nat) : State :=
  let on := fun (l : List (Nat × LEntry)) => (l.filter (fun e => e.2.state != 1)).length
  (s.setReg 0x3300 0x02 (on s.larder)).setReg 0x3304 owner (on (s.entriesOf owner))

/-- Whether an entry holds a pin (spec/11 R332). -/
def LEntry.pinned (e : LEntry) : Bool := e.tenantPin || decide (0 < e.pins)

/-- The virtual address of an entry's image, and the length of the pages that hold it (spec/11 R326). -/
def larderVa (h : Nat) : Nat := 0x600000000000 + h * 0x40000000
def LEntry.bytes (e : LEntry) : Nat := e.frames.length * 0x200000

/-- The active Well slot's objects: none where no slot is active (spec/16, table Well registry objects). -/
def State.activeWell (s : State) : Option Nat := let v := s.reg 0x3200 0x01; if v < 2 then some v else none
def State.wellDigest (s : State) (slot : Nat) : Nat := s.reg (0x3201 + slot) 0x06
def State.wellShape (s : State) (slot : Nat) : Nat := s.reg (0x3201 + slot) 0x07

/-! ### Actions that complete later (spec/11 R328, spec/16 R484) -/

/-- What a session's .06 to .09 report of its last apply. -/
def State.reportLarder (s : State) (sess owner adapt : Nat) (st : Status) : State :=
  let e := s.entryOf owner adapt
  s.modSession sess (fun x =>
    (((x.setOwn 0x3301 6 (stCode st)).setOwn 0x3301 7 ((e.map Prod.fst).getD 0xFFFF)).setOwn 0x3301 8
      ((e.map (fun p => p.2.state)).getD 0)).setOwn 0x3301 9 ((e.map (fun p => p.2.pins + b2n p.2.tenantPin)).getD 0))

/-- An action that a session waits for has completed with a status: its register message goes on, or its result is sent. -/
def State.actionDone (s : State) (sess idx sub : Nat) (st : Status) : State :=
  match s.session sess with
  | none => s
  | some x =>
    if x.waiting then s.setSession sess { x with result := some st }
    else (s.setSession sess { x with alone := false }).emit (.wrote sess idx sub st)

/-- The waiting actions of an entry complete with a status. -/
def State.wakeActions (s : State) (owner adapt : Nat) (sess : List Nat) (st : Status) : State :=
  sess.foldl (fun t n => (t.reportLarder n owner adapt st).actionDone n 0x3301 0x05 st) s

/-! ### Freeing and withdrawing (spec/11 R334, R335) -/

/-- The frames that an allotment's entries hold. -/
def State.larderFrames (s : State) (n : Nat) : List Nat := (s.entriesOf n).flatMap (fun e => e.2.frames)

/-- The frames of a page quota held to its value: those in use stay, and no more of the others than it leaves room for (spec/11 R325). -/
def State.fitQuota (s : State) (n : Nat) : State :=
  let used := s.larderFrames n
  let spare := (Tbl.get [] s.quotaFrames n).filter (fun f => !used.contains f)
  let room := s.reg 0x3303 n - used.length
  let gone := spare.drop room
  { s with
    quotaFrames := s.quotaFrames.set n (used ++ spare.take room)
    hbmUsed := s.hbmUsed.filter (fun f => !gone.contains f) }

/-- The Carter jobs of an entry that a test picks stop (spec/11 R346). -/
def State.dropWork (s : State) (h : Nat) (p : LarderWork → Bool) : State :=
  { s with jobs := s.jobs.filter (fun (e : Nat × Job) => match e.2.larder with
    | none => true
    | some w => w.1 != h || !p w.2) }

/-- Users of an entry's pages in the spaces that map it fault, its image is zeroed, and the entry is FREE; its frames stay reserved for its
owner as far as the page quota reaches. -/
def State.freeEntry (s : State) (h : Nat) : State :=
  match s.larder.find h with
  | none => s
  | some e =>
    let fault := fun (t : State) (a : Nat) => (t.allotCores a).foldl (fun u c => u.faultRange a c (larderVa h) e.bytes) t
    let s1 := if e.ownerMapped then fault s e.owner else s
    let s2 := if e.greenMapped then fault s1 s1.greenAllot else s1
    let s3 := e.frames.foldl (fun t f => t.zeroRange (f * 0x200000) ((f + 1) * 0x200000)) s2
    ((({ s3 with larder := s3.larder.erase h }).dropWork h (fun _ => true)).fitQuota e.owner).countEntries e.owner

/-- An entry freed with a fill or a recheck that actions wait for: the spec names no status for them (log entry 2). -/
def State.dropEntry (s : State) (h : Nat) (e : LEntry) : State :=
  if e.waiters.isEmpty && e.accepters.isEmpty then s.freeEntry h
  else
    let d := s.drawStatus
    (d.2.freeEntry h).wakeActions e.owner e.adapt (e.waiters ++ e.accepters) d.1

/-- A withdrawn entry whose last pin is released and whose owner's mapping is gone, or a condemned one without a pin, is freed; page-table
changes wait while a live activation runs (spec/15 R451). -/
def State.tryFree (s : State) (h : Nat) : State :=
  match s.larder.find h with
  | none => s
  | some e =>
    if s.activating.isNone && !e.pinned && ((e.state == 5 && !e.ownerMapped) || e.state == 4) then s.dropEntry h e else s

/-- The binding word of a Green slot (spec/11, table Binding word). -/
def bindingVa (slot : Nat) : Nat := 0x7E0000000000 + 8 * slot
def bindingWord (state well handle : Nat) : List Byte := leBytes 8 (state * 2 ^ 62 + well % 2 * 2 ^ 61 + handle % 2 ^ 14)

/-! ### The records ahead (spec/11 R333) -/

/-- A record of a Green stream that asks for a pin: its adaptation number. -/
def State.aheadRecord (s : State) (a n : Nat) (d : StreamDesc) (i : Nat) : Option Nat :=
  let w := s.recordAt a d i
  let g := s.parseGreen n w
  if fld w 63 48 == i % 2 ^ 16 && g.2.isEmpty && g.1.adapt != 0xFFFFFFFF then some g.1.adapt else none

/-- The counts of the records behind the head that the lookahead over a Green stream reaches. -/
def State.aheadOf (s : State) (a n : Nat) : List Nat :=
  let x := s.stream a n
  let depth := s.reg 0x3300 0x03
  let seen := if x.head.isSome then 1 else 0
  match x.desc with
  | none => []
  | some d => if d.carter then [] else (List.range (if depth = 0 then 0 else min (depth - seen) x.left)).map (x.consumed + ·)

/-- Those of them that name an adaptation and are not refused yet. -/
def State.aheadNaming (s : State) (a n adapt : Nat) : List Nat :=
  let x := s.stream a n
  match x.desc with
  | none => []
  | some d =>
    if s.reg (0x3100 + a) 0x0A ≠ n then []
    else (s.aheadOf a n).filter (fun i => (x.aheadFail.find i).isNone && s.aheadRecord a n d i == some adapt)

/-- Records of a stream that wait for an entry are refused with a status: the head, where a test picks it, those of the lookahead that hold a
pin on the entry, and others by their counts. -/
def Stream.failAhead (x : Stream) (h : Nat) (st : Status) (hit : GreenReq → Bool) (more : List Nat) : Stream :=
  let gone := (x.aheadPins.filter (fun e => e.2 == h)).map Prod.fst ++ more
  { x with
    head := match x.head with
      | some (.green r) => if r.refused.isNone && hit r then some (.green { r with handle := none, refused := some st }) else x.head
      | o => o
    aheadPins := x.aheadPins.filter (fun e => e.2 != h)
    aheadFail := gone.foldl (fun t i => t.set i st) x.aheadFail }

/-- The waiting SUBMITs of an entry are refused with a status, and its pins are the entry's no longer. A withdrawal refuses every one that
names the adaptation (spec/11 R335); a fill that fails, those that hold a pin on the entry: one that waits for a condemned entry to be freed
waits on, for a fill of its own (R333, R334). -/
def State.failWaiting (s : State) (h : Nat) (e : LEntry) (st : Status) (naming : Bool) : State :=
  let held := ((s.allot e.owner).streams.map (fun x =>
    (x.2.aheadPins.filter (fun p => p.2 == h)).length +
      (match x.2.head with
        | some (.green r) => if r.handle = some h then 1 else 0
        | _ => 0))).foldl (· + ·) 0
  let hit := fun (r : GreenReq) => r.handle == some h || (naming && r.adapt == e.adapt)
  let more := fun (n : Nat) => if naming then s.aheadNaming e.owner n e.adapt else []
  (s.modAllot e.owner (fun y =>
    { y with streams := y.streams.map (fun (x : Nat × Stream) => (x.1, x.2.failAhead h st hit (more x.1))) })).modEntry h
    (fun e => { e with pins := e.pins - held })

/-- A withdrawal (spec/11 R335). -/
def State.withdraw (s : State) (h : Nat) : State :=
  match s.larder.find h with
  | none => s
  | some e =>
    if e.state = 5 then s
    else
      let s1 := ((s.modEntry h (fun x =>
        { x with
          state := 5, tenantPin := false, filling := none, ended := none, waiters := [], accepters := []
          withdrawnAt := some s.timer })).dropWork h (fun _ => true)).failWaiting h e .adaptationWithdrawn true
      let slots := s1.greenSlots.filter (fun g => g.2.handle == some h)
      let s2 := slots.foldl (fun t g => t.writeVa t.greenAllot (bindingVa g.1) (bindingWord 2 g.2.well h)) s1
      let s3 := s2.wakeActions e.owner e.adapt (e.waiters ++ e.accepters) .adaptationWithdrawn
      let s4 :=
        if !e.ownerMapped then s3
        else if !s3.inUse e.owner (larderVa h) e.bytes then s3.modEntry h (fun x => { x with ownerMapped := false })
        else s3.askRemoval e.owner (larderVa h) e.bytes (.larderOwner h)
      (s4.countEntries e.owner).tryFree h

/-- An entry with a pin becomes CONDEMNED, and one without is freed (spec/11 R334); a fill without a pin stops, and the spec names no status
for the actions that wait for it (log entry 2). A fill with a pin runs on; the recomputation of a condemned entry ends. -/
def State.evict (s : State) (h : Nat) : State :=
  match s.larder.find h with
  | none => s
  | some e =>
    if e.pinned then ((s.modEntry h (fun x => { x with state := 4 })).dropWork h (· == .recheck)).countEntries e.owner else s.dropEntry h e

/-! ### Room (spec/11 R325, R331) -/

/-- The entry of an allotment that a test picks, least recently used, the lowest handle on a tie. -/
def State.oldestEntry (s : State) (owner : Nat) (p : LEntry → Bool) : Option Nat :=
  ((s.entriesOf owner).filter (fun e => p e.2)).foldl (fun (acc : Option (Nat × Nat)) e =>
    match acc with
    | none => some (e.2.lastUse, e.1)
    | some b => if e.2.lastUse < b.1 then some (e.2.lastUse, e.1) else acc) none |>.map Prod.snd

/-- The entry that R331 evicts next: in READY or CARRIED, without a pin. -/
def State.victim (s : State) (owner : Nat) : Option Nat :=
  s.oldestEntry owner (fun e => (e.state == 2 || e.state == 3) && !e.pinned)

/-- Entries evicted until a test holds, or none is left to evict; fuel bounds their number. -/
def State.evictUntil (s : State) (owner : Nat) (ok : State → Bool) : Nat → State
  | 0 => s
  | fuel + 1 =>
    if ok s then s
    else match s.victim owner with
      | none => s
      | some h => (s.evict h).evictUntil owner ok fuel

/-- The quotas of an allotment in force. -/
def State.entryQuota (s : State) (n : Nat) : Nat := s.reg 0x3302 n
def State.pageQuota (s : State) (n : Nat) : Nat := s.reg 0x3303 n

/-- Whether one more entry, or k more pages, fit an allotment's quotas. -/
def State.entryFits (s : State) (n : Nat) : Bool := decide ((s.entriesOf n).length < s.entryQuota n)
def State.pagesFit (s : State) (n k : Nat) : Bool := decide ((s.larderFrames n).length + k ≤ s.pageQuota n)

/-- The record of a Larder job before anything is known. -/
def larderRec (adapt : Nat) : JobRec :=
  { cookie := 0, raddr := 0, rkey := 0, qp := 0, lva := 0, mva := 0, len := 0, seqb := adapt * 2 ^ 16, seqf := true, store := false }

/-- The job that fills an entry (spec/11 R329, R330): it begins with the catalogue record of a fetch, at base + a × 64 under the catalogue's key
and queue pair, or with the header at an INSTALL's source. -/
def State.fillJob (s : State) (h owner adapt : Nat) (src : FillSrc) : Job :=
  let cat := s.reg 0x3306 owner
  match src with
  | .fetch =>
    { allot := owner, stream := 0, larder := some (h, .record)
      rec' := { larderRec adapt with raddr := (fld cat 63 0 + adapt * 64) % 2 ^ 64, rkey := fld cat 95 64, qp := fld cat 107 96, len := 64 } }
  | .install va => { allot := owner, stream := 0, larder := some (h, .header), rec' := { larderRec adapt with lva := va, len := 256 } }

/-- A job begun under the lowest free number. -/
def State.addJob (s : State) (j : Job) : State := { s with jobs := s.jobs.set (lowestFree s.jobs.keys 0) j }

/-- A fill's entry taken, after evictions that make room, and its job begun: the state, and its handle when there is room. -/
def State.takeEntry (s : State) (owner adapt : Nat) (src : FillSrc) (pin : Bool) (waiters : List Nat) : State × Option Nat :=
  let s1 := s.evictUntil owner (fun t => t.entryFits owner) (s.entriesOf owner).length
  let h := lowestFree s1.larder.keys 0
  if s1.entryFits owner && decide (h < 16384) then
    let e : LEntry :=
      { owner := owner, adapt := adapt, tenantPin := pin, filling := some src, waiters := waiters }
    (({ s1 with larder := s1.larder.set h e }).addJob (s1.fillJob h owner adapt src), some h)
  else (s1, none)

/-- A fill that has waited for room meets the entry that another action has made meanwhile, and goes on as that action's own apply would: it
joins its fill, or has its result (spec/11 R327, R328, R346). One that is condemned or withdrawn it waits out. -/
def State.joinFill (s : State) (q : FillReq) (h : Nat) (e : LEntry) : State :=
  let pin := fun (t : State) => if q.pin then t.modEntry h (fun x => { x with tenantPin := true }) else t
  let done := fun (t : State) (st : Status) => (t.reportLarder q.sess q.owner q.adapt st).actionDone q.sess 0x3301 0x05 st
  if 4 ≤ e.state then { s with fillWait := s.fillWait ++ [q] }
  else match q.src with
    | .install _ => done s .accessDenied
    | .fetch =>
      if e.state = 1 then (pin s).modEntry h (fun x => { x with waiters := x.waiters ++ [q.sess] }) else done (pin s) .ok

/-- The fill or the recomputation of an entry ends with a status, which FILL_COMPLETE or CARRY_RECHECK_DONE takes. -/
def State.workEnds (s : State) (n h : Nat) (st : Status) : State :=
  ({ s with jobs := s.jobs.erase n }).modEntry h (fun x => { x with ended := some st })

/-- The pages of an image taken within its owner's quota, after the evictions of R331; false while there is no room. -/
def State.takePages (s : State) (h : Nat) (e : LEntry) (len : Nat) : State × Bool :=
  let n := ceilDiv len 0x200000
  let s1 := s.evictUntil e.owner (fun t => t.pagesFit e.owner n) (s.entriesOf e.owner).length
  if s1.pagesFit e.owner n then
    let used := s1.larderFrames e.owner
    let frames := ((Tbl.get [] s1.quotaFrames e.owner).filter (fun f => !used.contains f)).take n
    (s1.modEntry h (fun x => { x with frames := frames, len := len }), true)
  else (s1, false)

/-- A fill whose LEN is known goes on once the image's pages are taken: to the manifest of a fetch, to the copy of an INSTALL. An image that
exceeds the page quota on its own is refused (spec/11 R330, R331). -/
def State.fillRoom (s : State) (n : Nat) (j : Job) (h : Nat) (e : LEntry) (install : Bool) : State :=
  if s.pageQuota e.owner < ceilDiv j.rec'.len 0x200000 then s.workEnds n h .accessDenied
  else
    let r := s.takePages h e j.rec'.len
    let w : LarderWork := if !r.2 then .room install else if install then .copy else .manifest
    { r.1 with jobs := r.1.jobs.set n { j with larder := some (h, w) } }

/-- The fills that wait for pages take them, as far as there is room. -/
def State.wakeRooms (s : State) : State :=
  s.jobs.foldl (fun t p =>
    match p.2.larder with
    | some (h, .room install) => (match t.larder.find h with
      | some e => t.fillRoom p.1 p.2 h e install
      | none => t)
    | _ => t) s

/-- The fills that wait for room take it in order, as far as there is some; they wait while a live activation runs (spec/15 R451). -/
def State.wakeFills (s : State) : State :=
  if s.activating.isSome then s
  else s.fillWait.foldl (fun (t : State) q =>
    match t.entryOf q.owner q.adapt with
    | some (h, e) => t.joinFill q h e
    | none =>
      let r := t.takeEntry q.owner q.adapt q.src q.pin [q.sess]
      match r.2 with
      | some _ => r.1
      | none => { r.1 with fillWait := r.1.fillWait ++ [q] }) { s.wakeRooms with fillWait := [] }

/-- A pin of a Green request released (spec/11 R331, R333). -/
def State.releasePin (s : State) (h : Nat) : State :=
  ((s.modEntry h (fun e => { e with pins := e.pins - 1, lastUse := s.timer })).tryFree h).wakeFills

/-! ### The lookahead (spec/11 R333) -/

/-- A pin taken for a record that names an adaptation, its fill started when it has no entry: the handle, or the status that refuses the
record; neither while it must wait. -/
def State.pinFor (s : State) (a adapt : Nat) : State × Option Nat × Option Status :=
  if s.entryQuota a = 0 then (s, none, some .accessDenied)
  else match s.entryOf a adapt with
    | some (h, e) =>
      if e.state = 1 ∨ e.state = 2 ∨ e.state = 3 then (s.modEntry h (fun x => { x with pins := x.pins + 1 }), some h, none) else (s, none, none)
    | none =>
      let r := if s.activating.isSome then (s, none) else s.takeEntry a adapt .fetch false []
      match r.2 with
      | some h => (r.1.modEntry h (fun x => { x with pins := 1 }), some h, none)
      | none => (r.1, none, none)

/-- Pins of records that are no longer ahead are released. -/
def State.dropStale (s : State) (a n : Nat) : State :=
  let x := s.stream a n
  let old := x.aheadPins.filter (fun e => decide (e.1 < x.consumed))
  old.foldl (fun t e => t.releasePin e.2) (s.modStream a n (fun y =>
    { y with aheadPins := y.aheadPins.drop (fun k => decide (k < y.consumed)), aheadFail := y.aheadFail.drop (fun k => decide (k < y.consumed)) }))

/-- The head record of a Green stream takes its pin. -/
def State.pinHead (s : State) (a n : Nat) : State :=
  match (s.stream a n).head with
  | some (.green r) =>
    if r.adapt = 0xFFFFFFFF ∨ r.handle.isSome ∨ r.refused.isSome then s
    else
      let p := s.pinFor a r.adapt
      p.1.modStream a n (fun y => { y with head := some (.green { r with handle := p.2.1, refused := p.2.2 }) })
  | _ => s

/-- One record ahead takes its pin. -/
def State.pinAhead (s : State) (a n : Nat) (d : StreamDesc) (i : Nat) : State :=
  let x := s.stream a n
  if (x.aheadPins.find i).isSome ∨ (x.aheadFail.find i).isSome then s
  else match s.aheadRecord a n d i with
    | none => s
    | some adapt =>
      let p := s.pinFor a adapt
      match p.2.1, p.2.2 with
      | some h, _ => p.1.modStream a n (fun y => { y with aheadPins := y.aheadPins.set i h })
      | none, some st => p.1.modStream a n (fun y => { y with aheadFail := y.aheadFail.set i st })
      | none, none => p.1

/-- The lookahead over one Green stream: the head, then the records after it. -/
def State.lookStream (s : State) (a n : Nat) : State :=
  let s1 := (s.dropStale a n).pinHead a n
  let x := s1.stream a n
  match x.desc with
  | none => s1
  | some d => (s1.aheadOf a n).foldl (fun t i => t.pinAhead a n d i) s1

/-- The lookahead over every Green stream. -/
def State.lookAll (s : State) : State :=
  s.allots.foldl (fun t e => let n := t.reg (0x3100 + e.1) 0x0A; if n < 16 ∧ t.greenAllot ≠ 0 then t.lookStream e.1 n else t) s

/-! ### Fills (spec/11 R321 to R323, R329, R330) -/

/-- Whether a header's fields are in range. -/
def headerOk (w : Nat) : Bool :=
  fld w 2047 776 == 0 && decide (fld w 775 768 ≤ 1) && fld w 767 752 % 128 == 0 && decide (128 ≤ fld w 767 752) &&
    decide (fld w 767 752 ≤ 16384) && fld w 751 736 % 32 == 0 && decide (32 ≤ fld w 751 736) && decide (fld w 751 736 ≤ 1024) &&
    decide (1 ≤ fld w 735 728) && decide (fld w 735 728 ≤ 16) && fld w 727 720 == 0 && fld w 719 656 != 0 && fld w 143 64 == 0 &&
    fld w 31 16 == 0 && fld w 15 0 == 1

/-- The image length of a header (spec/11 R322). -/
def headerLen (w : Nat) : Nat :=
  let a := ((List.range 64).filter (fun i => bitAt w (656 + i))).length
  let e := fld w 735 728
  256 + a * (2 * fld w 767 752 * e * (1 + 3 * fld w 751 736))

/-- The check value of block k of an adaptation's image (spec/09 R280, spec/11 R330). -/
def adaptTally (owner adapt k : Nat) (bs : List Byte) : Nat := (tally owner (seqForm (adapt * 2 ^ 16 + k)) bs).toNat

/-- The 32-bit words of bytes. -/
def manifestWords (n : Nat) (bs : List Byte) : List Nat := (List.range n).map (fun i => ofLe ((bs.drop (4 * i)).take 4))

/-- The status of a header against what the entry was asked for (spec/11 R330, step 5). -/
def State.headerStatus (s : State) (e : LEntry) (w : Nat) : Status :=
  if headerOk w && fld w 63 32 == e.adapt && headerLen w == e.len && s.activeWell.map s.wellShape == some (fld w 655 400) then .ok
  else .shapeMismatch

/-- The physical address of block k of an entry's image. -/
def LEntry.blockPa (e : LEntry) (k : Nat) : Nat := e.frames.getD (k / 32) 0 * 0x200000 + k % 32 * 65536

/-- Whether bytes are block k of an entry's image by its manifest (spec/09 R282). -/
def LEntry.blockOk (e : LEntry) (k : Nat) (bs : List Byte) : Bool := e.manifest[k]? == some (adaptTally e.owner e.adapt k bs)

/-- An entry becomes READY, once its entry in the weight log is there (spec/15 R446). -/
def State.makeReady (s : State) (h kind : Nat) : State :=
  match s.larder.find h with
  | none => s
  | some e =>
    let img := (e.frames.flatMap (fun f => s.load (f * 0x200000) 0x200000)).take e.len
    (s.logWeight e.owner (logEntry (sha256Nat img) e.len e.adapt h 0 kind)).modEntry h (fun x => { x with state := if x.state = 4 then 4 else 2 })

/-- A fill ended by a status: its entry and pages are free, and what waited has the status. -/
def State.fillFails (s : State) (h : Nat) (e : LEntry) (st : Status) : State :=
  let s1 := ((s.failWaiting h e st false).modEntry h (fun x => { x with ownerMapped := false, greenMapped := false })).freeEntry h
  (s1.wakeActions e.owner e.adapt e.waiters st).wakeFills

/-- How a base switch, or the end of a fill that saw one, treats an entry (spec/11 R343): withdrawn, unchanged or carried. -/
inductive Carry where
  | withdrawn
  | unchanged
  | carried
  deriving DecidableEq, Repr

/-- What becomes of an entry when the Well slot becomes active (spec/11 R343). -/
def State.carryOf (s : State) (e : LEntry) (slot : Nat) : Carry :=
  if s.reg 0x3300 0x05 = 0 ∨ s.reg 0x3305 e.owner = 2 ∨ e.shape ≠ s.wellShape slot then .withdrawn
  else if e.baseId = s.wellDigest slot then .unchanged
  else .carried

/-- A fill whose image has landed whole: measured, mapped, and READY or CARRIED (spec/11 R330, steps 6 and 7); where a base switch has come
meanwhile it is treated as that has (R343). -/
def State.fillLands (s : State) (h : Nat) (e : LEntry) : State :=
  let w := ofLe (s.load (e.blockPa 0) 256)
  let e1 : LEntry :=
    { e with
      baseId := fld w 399 144, shape := fld w 655 400, filling := none, ended := none, waiters := [], lastUse := s.timer
      ownerMapped := true, greenMapped := true }
  let s2 := { s with larder := s.larder.set h e1 }
  let carry := match s.activeWell with
    | none => Carry.carried
    | some slot => if e.switched then s.carryOf e1 slot else if e1.baseId == s.wellDigest slot then .unchanged else .carried
  let s3 := match carry with
    | .unchanged => s2.makeReady h 0x04
    | _ => (s2.makeReady h 0x04).modEntry h (fun x => { x with state := if x.state = 4 then 4 else 3 })
  let s4 := (s3.countEntries e.owner).wakeActions e.owner e.adapt e.waiters .ok
  let s5 := match carry with
    | .withdrawn => s4.withdraw h
    | _ => s4
  (s5.tryFree h).wakeFills

/-- A fill that has ended lands or fails. -/
def State.endFill (s : State) (h : Nat) : State :=
  match s.larder.find h with
  | none => s
  | some e =>
    match e.filling, e.ended with
    | some _, some .ok => s.fillLands h e
    | some _, some st => s.fillFails h e st
    | _, _ => s

/-! ### Actions (spec/11 R327, R328, R334, R335, R345) -/

/-- Whether an action is accepted in an entry's state; 0 is FREE (spec/11, table Larder entry states). -/
def larderFits (action state : Nat) : Bool :=
  match state with
  | 0 => [1, 2, 7, 8].contains action
  | 1 => [1, 2, 3, 4, 6, 8].contains action
  | 2 => [1, 2, 3, 4, 6, 8].contains action
  | 3 => [1, 2, 3, 4, 5, 6, 8].contains action
  | 4 => [3, 6, 8].contains action
  | _ => action == 8

/-- Whether a session's roles may take an action on an allotment's entries (spec/11, table Larder actions). -/
def State.larderMay (s : State) (sess owner action : Nat) : Bool :=
  s.actsTenant sess owner || (s.actsOperator sess && [1, 4, 6, 8].contains action)

/-- A fill that an action asks for starts, or waits for room. -/
def State.askFill (s : State) (sess owner adapt : Nat) (src : FillSrc) (pin : Bool) : State :=
  let r := s.takeEntry owner adapt src pin [sess]
  match r.2 with
  | some _ => r.1
  | none => { r.1 with fillWait := r.1.fillWait ++ [{ owner := owner, adapt := adapt, src := src, sess := sess, pin := pin }] }

/-- An action that its role and its entry's state allow: the state, and its status unless it waits. Under carry policy 2 an ACCEPT makes
nothing READY (R345). -/
def State.larderDo (s : State) (sess owner adapt action src : Nat) : State × Option Status :=
  match s.entryOf owner adapt with
  | none =>
    if action = 8 then (s, some .ok)
    else if s.entryQuota owner = 0 then (s.noteRefusal 0x3301 0x05 .accessDenied (s.applyRole sess 0x3301 0x05), some .accessDenied)
    else (s.askFill sess owner adapt (if action = 7 then .install src else .fetch) (action == 2), none)
  | some (h, e) =>
    match action with
    | 1 => if e.state = 1 then (s.modEntry h (fun x => { x with waiters := x.waiters ++ [sess] }), none) else (s, some .ok)
    | 2 =>
      let s1 := s.modEntry h (fun x => { x with tenantPin := true })
      if e.state = 1 then (s1.modEntry h (fun x => { x with waiters := x.waiters ++ [sess] }), none) else (s1, some .ok)
    | 3 =>
      if e.tenantPin then (((s.modEntry h (fun x => { x with tenantPin := false, lastUse := s.timer })).tryFree h).wakeFills, some .ok)
      else (s, some .ok)
    | 4 => ((s.evict h).wakeFills, some .ok)
    | 5 =>
      if e.checked then (if s.reg 0x3305 owner = 2 then s else (s.makeReady h 0x05).countEntries owner, some .ok)
      else (s.modEntry h (fun x => { x with accepters := x.accepters ++ [sess] }), none)
    | 6 => ((s.withdraw h).wakeFills, some .ok)
    | _ => (s, some .ok)

/-- An apply of the Larder's command object by a session, with its own values: the state, and its status unless it waits. -/
def State.larderApply (s : State) (sess : Nat) : State × Option Status :=
  match s.session sess with
  | none => (s, some .accessDenied)
  | some x =>
    let owner := x.ownVal 0x3301 1
    let adapt := x.ownVal 0x3301 2
    let action := x.ownVal 0x3301 3
    let state := ((s.entryOf owner adapt).map (fun e => e.2.state)).getD 0
    if !s.mayApply sess 0x3301 0x05 then (s, some .accessDenied)
    else if !s.larderMay sess owner action || !larderFits action state || owner = 0 || s.isGreen owner then
      ((s.noteRefusal 0x3301 0x05 .accessDenied (s.applyRole sess 0x3301 0x05)).reportLarder sess owner adapt .accessDenied, some .accessDenied)
    else
      let r := s.larderDo sess owner adapt action (x.ownVal 0x3301 4)
      match r.2 with
      | none => (r.1, none)
      | some st => (r.1.reportLarder sess owner adapt st, some st)

/-! ### Base switches and rechecks (spec/11 R343 to R345) -/

/-- Every entry as a switch to a slot treats it. -/
def State.larderSwitch (s : State) (slot : Nat) : State :=
  s.larder.foldl (fun t p =>
    match t.larder.find p.1 with
    | none => t
    | some e =>
      if e.filling.isSome then t.modEntry p.1 (fun x => { x with switched := true })
      else if e.state = 5 then t
      else match t.carryOf e slot with
        | .withdrawn => t.withdraw p.1
        | .unchanged => t
        | .carried =>
          if e.state = 4 then t
          else (t.modEntry p.1 (fun x => { x with state := 3, checked := false, ended := none })).dropWork p.1 (· == .recheck)) s

/-- The lowest carried entry that is still to be recomputed. -/
def State.nextRecheck (s : State) : Option Nat :=
  (s.larder.find? (fun e => e.2.state == 3 && !e.2.checked && e.2.ended.isNone)).map Prod.fst

/-- The recomputation of carried entries goes on with the next one, one at a time in ascending handle order (spec/11 R344). -/
def State.startRecheck (s : State) : State :=
  if s.jobs.any (fun e => match e.2.larder with | some (_, .recheck) => true | _ => false) then s
  else match s.nextRecheck with
    | none => s
    | some h => (match s.larder.find h with
      | none => s
      | some e =>
        if e.state = 3 then s.addJob { allot := e.owner, stream := 0, larder := some (h, .recheck), rec' := { larderRec e.adapt with len := e.len } }
        else s)

/-- The recomputation of a carried entry has ended: a mismatch withdraws it; else it is READY under policy 1, and under policy 0 with an
ACCEPT that waits, which completes in any case (spec/11 R344, R345). -/
def State.recheck (s : State) (h : Nat) : State :=
  match s.larder.find h with
  | none => s
  | some e =>
    match e.ended with
    | none => s
    | some st =>
      if e.state ≠ 3 ∨ e.checked then s
      else if st ≠ .ok then (s.withdraw h).wakeFills
      else
        let s1 := s.modEntry h (fun x => { x with checked := true, ended := none })
        let policy := s.reg 0x3305 e.owner
        if policy = 1 ∨ !e.accepters.isEmpty then
          ((if policy = 2 then s1 else s1.makeReady h 0x05).modEntry h (fun x => { x with accepters := [] })).wakeActions e.owner e.adapt
            e.accepters .ok
        else s1

/-! ### Quotas (spec/11 R325, R346) -/

/-- HBM frames that neither the allotments' .07, nor page quotas, nor the Well, nor the binding table claim (spec/10 R285, spec/11 R325). -/
def State.claimedPages (s : State) : Nat :=
  ((List.range 256).map (fun n => if s.reg (0x3100 + n) 0x01 = 0 then 0 else s.reg (0x3100 + n) 0x07)).foldl (· + ·) 0 +
    (s.quotaFrames.map (fun e => e.2.length)).foldl (· + ·) 0 + (s.wells.map (fun e => e.2.frames.length)).foldl (· + ·) 0 +
    (if s.greenAllot = 0 then 0 else 1)

def State.freePages (s : State) : Nat := hbmFrames - s.claimedPages

/-- The entry that a lowered quota takes next: an unpinned one in R331's order, then an unpinned one that still fills, then a pinned one,
least recently used first. -/
def State.overQuota (s : State) (n : Nat) : Option Nat :=
  match s.victim n with
  | some h => some h
  | none =>
    match s.oldestEntry n (fun e => decide (e.state ≤ 3) && !e.pinned) with
    | some h => some h
    | none => s.oldestEntry n (fun e => decide (e.state ≤ 3))

/-- Entries beyond a quota: the unpinned are evicted, then the pinned are CONDEMNED (spec/11 R346); fuel bounds their number. -/
def State.shrinkLarder (s : State) (n : Nat) (fits : State → Bool) : Nat → State
  | 0 => s
  | fuel + 1 =>
    if fits s then s
    else match s.overQuota n with
      | some h => (s.evict h).shrinkLarder n fits fuel
      | none => s

/-- The entries that a quota's fit counts: those that are not on their way out. -/
def State.lasting (s : State) (n : Nat) : List LEntry := ((s.entriesOf n).map Prod.snd).filter (fun e => decide (e.state ≤ 3))

/-- A quota's write: refused, or its value clamped to its range and then to what remains; the state, the status and the value. -/
def State.writeQuota (s : State) (sess idx n v : Nat) : State × Status × Nat :=
  let others := (((List.range 256).filter (· != n)).map (fun m => s.reg 0x3302 m)).foldl (· + ·) 0
  let have' := Tbl.get [] s.quotaFrames n
  let room := if idx = 0x3302 then 16384 - others else have'.length + s.freePages
  match s.session sess with
  | none => (s, .accessDenied, 0)
  | some x =>
    match s.mayAccess x idx n true with
    | none => (s, .accessDenied, 0)
    | some r =>
      let c := min room (min v (if idx = 0x3302 then 16384 else 442368))
      let s1 := (if c = v then s else s.noteClamp idx n v c r).setReg idx n c
      let fuel := (s.entriesOf n).length + 1
      let s2 :=
        if idx = 0x3302 then s1.shrinkLarder n (fun t => decide ((t.lasting n).length ≤ c)) fuel
        else
          let t := (s1.shrinkLarder n (fun t => decide (((t.lasting n).map (fun e => e.frames.length)).foldl (· + ·) 0 ≤ c)) fuel).fitQuota n
          let keep := Tbl.get [] t.quotaFrames n
          let new := freeFrames t.hbmUsed (c - keep.length) 0
          { t with quotaFrames := t.quotaFrames.set n (keep ++ new), hbmUsed := new.foldl insertNat t.hbmUsed }
      (s2.wakeFills, if c = v then .ok else .clamped, c)

end Sys2Proof.Machine
end

