-- ==== Sys2Proof/Machine/Green.lean ====
section
/-! DEFINITION. The Green: its regions, admission and retirement of requests, and its tag-map stores (spec/10 R295 to R303, spec/11 R333, R336,
R337, R341). -/

namespace Sys2Proof.Machine

/-! ### Regions (spec/10 R296, R297) -/

def intakeBase : Nat := 0x700000000000
def outletBase : Nat := 0x780000000000
def bindingBase : Nat := 0x7E0000000000
def admitRing : Nat := 0x7F0000000000
def retireRing : Nat := 0x7F8000000000

/-- n pages of a region mapped into the Green's space from the lowest free frames, from page i on. -/
def State.mapRegion (s : State) (a base : Nat) (w : Bool) (i : Nat) : Nat → State
  | 0 => s
  | fuel + 1 =>
    let f := lowestFree s.hbmUsed 0
    let d : PageDesc := { r := true, w := w, draw := false, frozen := false, tag := true, scrub := true, owner := a, frame := f }
    (({ s with hbmUsed := insertNat s.hbmUsed f }).putPage a (base + i * 0x200000) (some d)).mapRegion a base w (i + 1) fuel

/-- The bytes of a slot, and the pages of the intake, which are those of the outlet. -/
def slotBytes (rows rowBytes : Nat) : Nat := rows * rowBytes
def regionPages (slots rows rowBytes : Nat) : Nat := ceilDiv (slots * slotBytes rows rowBytes) 0x200000

/-- The Green's regions mapped under the geometry in force. -/
def State.mapGreen (s : State) : State :=
  let a := s.greenAllot
  if a = 0 then s
  else
    let n := regionPages (s.reg 0x3000 0x02) (s.reg 0x3000 0x03) (s.reg 0x3000 0x04)
    ((((s.mapRegion a intakeBase false 0 n).mapRegion a outletBase true 0 n).mapRegion a admitRing true 0 1).mapRegion a retireRing true 0
      1).mapRegion a bindingBase false 0 1

/-- The addresses of an allotment's pages in the Green's regions. -/
def State.greenPages (s : State) (a : Nat) : List Nat :=
  (s.hbmPages.filter (fun e => e.1 / 2 ^ 26 == a && decide (intakeBase ≤ e.1 % 2 ^ 26 * 0x200000))).map (fun e => e.1 % 2 ^ 26 * 0x200000)

/-- The Green's regions unmapped at once: started users fault, and the frames are zeroed and free. -/
def State.unmapGreen (s : State) : State :=
  let a := s.greenAllot
  if a = 0 then s
  else (s.greenPages a).foldl (fun t va =>
    ((t.allotCores a).foldl (fun u c => u.faultRange a c va 0x200000) t).putPage a va none) s

/-! ### Grants (spec/10 R294, spec/15 R446) -/

/-- Whether an allotment holds the Well's grant. -/
def State.wellGrant (s : State) (a : Nat) : Bool := s.isGreen a || s.reg (0x3100 + a) 0x0E != 0

/-- An entry of the weight log that names the active slot: kind 0x03 for a grant, 0x06 for a switch. -/
def State.logWell (s : State) (a kind : Nat) : State :=
  match s.activeWell with
  | none => s.logWeight a (logEntry 0 0 0 0xFF 0 kind)
  | some slot => s.logWeight a (logEntry (s.wellDigest slot) (s.reg (0x3201 + slot) 0x04) 0 slot 0 kind)

/-! ### GREEN_APPLY -/

/-- GREEN_APPLY's effect and status (spec/10 R295, R297). A new Green holds the Well's grant from then on, which its weight log gets
(R294, spec/15 R446). -/
def State.applyGreen (s : State) (sess : Nat) : State × Status :=
  let v := fun i => s.applying sess 0x3000 i
  let bytes := v 2 * slotBytes (v 3) (v 4)
  let need := 2 * regionPages (v 2) (v 3) (v 4) + 2
  let old := if v 1 = s.greenAllot then (s.greenPages (v 1)).length - 1 else 0
  let quota := s.reg (0x3100 + v 1) 0x07
  if !s.mayApply sess 0x3000 0x05 then (s, .accessDenied)
  else if s.greenSlots.any (fun e => !e.2.dead) then s.refuseApply sess 0x3000 0x05 .accessDenied
  else if 2 ^ 43 < bytes ∨ (v 1 ≠ 0 ∧ (quota < need + (s.pagesUsed (v 1) - old) ∨ s.reg (0x3100 + v 1) 0x01 = 0 ∨
      hbmFrames + old < s.hbmUsed.length + need)) then
    s.refuseApply sess 0x3000 0x05 .accessDenied
  else
    let s1 := s.unmapGreen
    let s2 := s1.takeFields sess 0x3000 0x05 [(0x3000, 1, v 1), (0x3000, 2, v 2), (0x3000, 3, v 3), (0x3000, 4, v 4)]
    let s3 := { s2 with greenSlots := [], greenRoster := [] }
    let s4 := if v 1 ≠ 0 ∧ s3.reg (0x3100 + v 1) 0x0D ≠ 0 then (s3.noteClamp (0x3100 + v 1) 0x0D 1 0 .o).setReg (0x3100 + v 1) 0x0D 0 else s3
    let s5 := if v 1 = 0 ∨ s.wellGrant (v 1) then s4 else s4.logWell (v 1) 0x03
    (s5.mapGreen, .ok)

/-- GREEN_APPLY. -/
def execGreenApply (sess : Nat) (s : State) : Res :=
  s.rowOf sess 0x3000 0x05 (State.wrote (s.applyGreen sess) sess 0x3000 0x05)

/-! ### Slots -/

/-- The counts of admitted requests by the Well slot that their binding words name (spec/16, object 0x320s.08); those that the Crier has
retired are admitted no longer. -/
def State.countBound (s : State) : State :=
  let n := fun (w : Nat) => (s.greenSlots.filter (fun e => e.2.well == w && !e.2.dead)).length
  (s.setReg 0x3201 0x08 (n 0)).setReg 0x3202 0x08 (n 1)

/-- The rows of a slot in the intake and the outlet. -/
def State.slotVa (s : State) (base slot : Nat) : Nat := base + slot * slotBytes (s.reg 0x3000 0x03) (s.reg 0x3000 0x04)

/-- A slot's intake and outlet rows zeroed. -/
def State.zeroSlot (s : State) (slot : Nat) : State :=
  let n := slotBytes (s.reg 0x3000 0x03) (s.reg 0x3000 0x04)
  let g := s.greenAllot
  let z := List.replicate n (0 : Byte)
  (s.writeVa g (s.slotVa intakeBase slot) z).writeVa g (s.slotVa outletBase slot) z

/-- A slot freed: its roster slot and binding word are cleared, and its pin is released. -/
def State.freeSlot (s : State) (slot : Nat) (g : GreenSlot) : State :=
  let s1 := { s with greenSlots := s.greenSlots.erase slot, greenRoster := s.greenRoster.erase slot }
  let s2 := (s1.writeVa s1.greenAllot (bindingVa slot) (leBytes 8 0)).countBound
  match g.handle with
  | none => s2
  | some h => s2.releasePin h

/-- A slot retired by the Crier itself with a status and no rows (spec/11 R336, R337): its binding word is zeroed, and it stays unavailable
until the Green retires it. -/
def State.killSlot (s : State) (slot : Nat) (g : GreenSlot) (st : Status) : State :=
  let s1 := (s.zeroSlot slot).post g.allot g.req.stream { cookie := g.req.cookie, rseq := g.req.rseq, status := st, kind := 0x3 }
  let s2 := ({ s1 with
    greenSlots := s1.greenSlots.set slot { g with dead := true, handle := none }, greenRoster := s1.greenRoster.erase slot }).writeVa s1.greenAllot
      (bindingVa slot) (leBytes 8 0)
  match g.handle with
  | none => s2.countBound
  | some h => s2.countBound.releasePin h

/-! ### Admission (spec/10 R299, spec/11 R333, R336) -/

/-- The words of the admission ring: its head, and the Green's consumed count. -/
def State.greenWord (s : State) (va : Nat) : Nat := ofLe (s.readVa s.greenAllot va 8)

/-- The 32 bytes of an admission entry. -/
def admissionEntry (a : Nat) (r : GreenReq) (slot : Nat) : List Byte :=
  leBytes 32 (r.adapt % 2 ^ 32 * 2 ^ 224 + a % 2 ^ 8 * 2 ^ 216 + (r.inRows - 1) % 2 ^ 17 * 2 ^ 199 + r.outRows % 2 ^ 17 * 2 ^ 182 +
    slot % 2 ^ 16 * 2 ^ 166 + (r.rowLen / 32 - 1) % 2 ^ 8 * 2 ^ 158)

/-- Rows copied from consecutive rows of one pitch to rows of another, in order. -/
def State.copyRows' (s : State) (from' src fromPitch to' dst toPitch len : Nat) (rows : List Nat) : State :=
  rows.foldl (fun t j => t.writeP to' (dst + j * toPitch) (t.readP from' (src + j * fromPitch) len)) s

/-- What a SUBMIT waits for before R299: its entry to be one that the Green may bind. -/
def State.bindable (s : State) (r : GreenReq) : Bool :=
  r.adapt == 0xFFFFFFFF ||
    (match r.handle with
      | none => false
      | some h => match s.larder.find h with
        | none => false
        | some e => e.state == 2 || (e.state == 4 && e.filling.isNone))

/-- A request that leaves the head of its stream without being admitted: its pin is released and its completion posted. -/
def State.refuseSubmit (s : State) (a : Nat) (r : GreenReq) (st : Status) : State :=
  let s1 := (s.modStream a r.stream (fun y => { y with head := none })).post a r.stream
    { cookie := r.cookie, rseq := r.rseq, status := st, kind := 0x3 }
  match r.handle with
  | none => s1
  | some h => s1.releasePin h

/-- A request admitted into a slot (spec/10 R299, steps 3 to 5, spec/11 R333). -/
def State.admitRequest (s : State) (a slot : Nat) (r : GreenReq) : State :=
  let g := s.greenAllot
  let well := (s.activeWell).getD 0
  let h := s.greenWord admitRing
  let s0 := if s.reg (0x3100 + a) 0x0D = 0 then s else (s.stopTrace (fun c => bitAt (s.reg (0x3100 + g) 0x02) c)).zeroTrace
  let s1 := { s0 with
    greenRoster := s.greenRoster.set slot (.tenant a r.sequence)
    greenSlots := s.greenSlots.set slot { allot := a, req := r, handle := r.handle, well := well } }
  let s2 := s1.writeVa g (bindingVa slot) (bindingWord (if r.handle.isSome then 1 else 0) well (r.handle.getD 0))
  let s3 := s2.copyRows' a r.inVa r.rowLen g (s2.slotVa intakeBase slot) (s2.reg 0x3000 0x04) r.rowLen (List.range r.inRows)
  let s4 := s3.writeVa g (admitRing + 64 + h % 8192 * 32) (admissionEntry a r slot)
  ((s4.writeVa g admitRing (leBytes 8 (h + 1))).modStream a r.stream (fun y => { y with head := none })).countBound

/-- Whether the Green's rings are mapped and its admission ring has room. -/
def State.admitRoom (s : State) : Bool :=
  s.greenAllot != 0 && (s.pageOf s.greenAllot admitRing).isSome &&
    decide (s.greenWord admitRing < s.greenWord (admitRing + 8) + 8192)

/-- A SUBMIT at the head of an allotment's Green stream. -/
def State.submit (s : State) (a : Nat) : State :=
  let n := s.reg (0x3100 + a) 0x0A
  match (s.stream a n).head with
  | some (.green r) =>
    match r.refused with
    | some st => s.refuseSubmit a r st
    | none =>
      if !s.bindable r then s
      else
        let inLen := r.inRows * r.rowLen
        let outLen := r.outRows * r.rowLen
        let hbm := decide (r.inVa + inLen ≤ loftVa) && decide (r.outVa + outLen ≤ loftVa)
        let dst : List VRange := if outLen = 0 then [] else [⟨r.outVa, outLen⟩]
        let slot := lowestFree s.greenSlots.keys 0
        if s.slotTooSmall r.inRows r.outRows r.rowLen then s.refuseSubmit a r .shapeMismatch
        else if !hbm || s.transferCheck a [⟨r.inVa, inLen⟩] dst false != .ok then s.refuseSubmit a r .accessDenied
        else if s.reg 0x3000 0x02 ≤ slot ∨ s.reg 0x3000 0x03 = 0 ∨ !s.admitRoom then s
        else s.admitRequest a slot r
  | _ => s

/-! ### Retirement (spec/10 R303, spec/11 R337) -/

/-- The tenant's completion status of a retire entry's status code. -/
def retireStatus (code : Nat) : Status :=
  match stOfCode code with
  | some .ok => .ok
  | some .tagRefused => .tagRefused
  | some .adaptationWithdrawn => .adaptationWithdrawn
  | some .deadlinePartial => .deadlinePartial
  | some .memberLost => .memberLost
  | some .watchdog => .watchdog
  | _ => .passAbortedFault

/-- Whether a slot's binding word reads withdrawn. -/
def State.bindingWithdrawn (s : State) (g : GreenSlot) : Bool :=
  match g.handle with
  | none => false
  | some h => match s.larder.find h with
    | none => false
    | some e => e.state == 5

/-- A slot retired by the Green with a status and rows: outlet rows go to the tenant, its completion is posted, and the slot is zeroed and
free. -/
def State.retire (s : State) (slot : Nat) (g : GreenSlot) (st : Status) (rows : Nat) : State :=
  let n := min rows g.req.outRows
  let len := n * g.req.rowLen
  let chk := if len = 0 then .ok else s.transferCheck g.allot [] [⟨g.req.outVa, len⟩] false
  let s1 := if chk = .ok then
      s.copyRows' s.greenAllot (s.slotVa outletBase slot) (s.reg 0x3000 0x04) g.allot g.req.outVa g.req.rowLen g.req.rowLen (List.range n)
    else s
  let s2 := s1.post g.allot g.req.stream
    { cookie := g.req.cookie, count := if chk = .ok then n else 0, rseq := g.req.rseq, status := if chk = .ok then st else chk, kind := 0x3 }
  (s2.zeroSlot slot).freeSlot slot g

/-- One entry of the retire ring. -/
def State.retireEntry (s : State) (w : Nat) : State :=
  let slot := fld w 15 0
  match s.greenSlots.find slot with
  | none => s.logDrop 0xFFFF s.greenAllot
  | some g =>
    if g.dead then (s.zeroSlot slot).freeSlot slot g
    else s.retire slot g (if s.bindingWithdrawn g then .adaptationWithdrawn else retireStatus (fld w 47 40)) (fld w 32 16)

/-- The new entries of the retire ring in order, each counted once it has been processed; fuel bounds their number. -/
def State.drainRetires (s : State) : Nat → State
  | 0 => s
  | fuel + 1 =>
    let t := s.greenWord retireRing
    let c := s.greenWord (retireRing + 8)
    if t = c then s
    else
      let w := s.greenWord (retireRing + 64 + c % 8192 * 8)
      ((s.retireEntry w).writeVa s.greenAllot (retireRing + 8) (leBytes 8 (c + 1))).drainRetires fuel

/-! ### Tag-map stores of the Green (spec/06 R165, spec/10 R301) -/

/-- Whether a started operation of an allotment reads a range. -/
def State.readersOf (s : State) (a va len : Nat) : Bool :=
  (s.allotCores a).any (fun c => (engines.flatMap (s.ctx a c).started).any (fun f => f.readsVa va len))

/-- The rows of a tag-map entry. -/
def TagMapEnt.span (e : TagMapEnt) : Nat × Nat := (e.base, e.pitch * e.rows)

/-- TAG_MAP_STORE_APPLY: once no started operation reads the rows of the old or the new entry, those rows are zeroed, the entry is in force,
and the store is done. -/
def execTagMapStoreApply (a core : Nat) (s : State) : Res :=
  match s.onCore core with
  | none => .next s
  | some (b, x) =>
    match x.tagStore with
    | none => .next s
    | some v =>
      let i := v / 2 ^ 256
      let w := v % 2 ^ 256
      let spans := ((x.tagMap.find i).toList ++ (if bitAt w 0 then [tagMapEnt w] else [])).map TagMapEnt.span
      if b ≠ a ∨ spans.any (fun r => s.readersOf a r.1 r.2) then .next s
      else
        let s1 := spans.foldl (fun t r => t.writeVa a r.1 (List.replicate r.2 0)) s
        let s2 := s1.writeVa a (s.windowOf a core + 0x81800 + 32 * i) (leBytes 32 w)
        .next (s2.moveOn a core { x.setTagMap i w with tagStore := none } (x.pc + 4))

end Sys2Proof.Machine
end

