-- ==== Sys2Proof/Machine/Carter.lean ====
section
/-! DEFINITION. Carter jobs: records, blocks, checks and completions (spec/09 R275 to R277, R280, R282, spec/10 R313, R314, spec/15
R461, spec/17 R502). -/

namespace Sys2Proof.Machine

/-- A Carter job record, and whether a reserved code or bit, or LEN, refuses it (spec/09 R275). -/
def parseJob (w : Nat) : JobRec × Bool :=
  ({ cookie := fld w 511 448, raddr := fld w 447 384, rkey := fld w 383 352, qp := fld w 347 336, lva := fld w 335 288, mva := fld w 287 240
     len := fld w 239 200, seqb := fld w 199 145, seqf := bitAt w 144, store := fld w 133 132 == 1 },
   fld w 351 348 != 0 || fld w 143 134 != 0 || fld w 131 0 != 0 || decide (2 ≤ fld w 133 132) || fld w 239 200 == 0 ||
     decide (2 ^ 39 < fld w 239 200))

/-- Whether a queue pair is connected for an allotment. -/
def State.qpLive (s : State) (a qp : Nat) : Bool :=
  match s.qps.find qp with
  | none => false
  | some q => q.allot == a && !q.error

/-- Whether a range of the Green's space touches the intake, the outlet, the binding table or a Larder page (spec/15 R461). -/
def State.tenantRows (s : State) (a va len : Nat) : Bool :=
  let hits := fun lo hi => decide (va < hi) && decide (lo < va + len)
  s.isGreen a && decide (0 < len) &&
    (hits 0x600000000000 0x700000000000 || hits intakeBase admitRing)

/-- What an LMP debug read of the Green's pages gives a party (spec/15 R460, R461); none: ACCESS_DENIED, while the Green's debug facilities
are closed, and for the ranges and tagged Loft rows that never leave it. No row of the opcode table makes one (log entry 84). -/
def State.greenDebugRead (s : State) (core va len : Nat) : Option (List Byte) :=
  let g := s.greenAllot
  if g = 0 || s.greenClosed || s.tenantRows g va len then none
  else if (List.range len).any (fun i => match s.tagRowAt g core (va + i) with
      | some (e, k) => isTenantTag (s.rosterTag g (e.first + k))
      | none => false) then none
  else some (s.readVa g va len)

/-- A job completed on its stream (spec/17 R498). -/
def State.postJob (s : State) (a stream : Nat) (r : JobRec) (blocks : Nat) (st : Status) : State :=
  s.post a stream { cookie := r.cookie, count := blocks, status := st, kind := 0x4 }

/-- The status that refuses a job record when it is taken. -/
def State.jobStatus (s : State) (a : Nat) (r : JobRec) (bad : Bool) : Status :=
  if !s.qpLive a r.qp || (r.store && s.tenantRows a r.lva r.len) then .accessDenied
  else if bad then .shapeMismatch
  else .ok

/-- The blocks of a job. -/
def JobRec.blocks (r : JobRec) : Nat := ceilDiv r.len 65536

/-- Whether a job moves its bytes over a queue pair: a copy and a recomputation of the Larder do not. -/
def Job.onQp (j : Job) : Bool :=
  match j.larder with
  | none => true
  | some (_, w) => w == .record || w == .room false || w == .manifest || w == .image

/-- The Carter that serves a job: that of the port of its queue pair (spec/17 R488), and without one that of the entry's handle mod 4 (log
entry 104). -/
def State.carterOf (s : State) (j : Job) : Nat :=
  if j.onQp then ((s.qps.find j.rec'.qp).map Qp.port).getD 0
  else match j.larder with
    | none => 0
    | some w => w.1 % 4

/-- Whether a job's blocks take Tally instances at present. -/
def Job.moves (j : Job) : Bool :=
  match j.larder with
  | none => true
  | some (_, w) => w == .image || w == .copy || w == .recheck

/-- The blocks in flight on a Carter. -/
def State.inFlight (s : State) (p : Nat) : Nat := ((s.jobs.filter (fun e => s.carterOf e.2 == p)).map (fun e => e.2.flight)).foldl (· + ·) 0

/-- The job of a Carter whose turn comes next and that has a block to move. -/
def State.nextJob (s : State) (p : Nat) : Option (Nat × Job) :=
  let js := s.jobs.filter (fun e => s.carterOf e.2 == p && e.2.moves && decide (e.2.blocks + e.2.flight < e.2.rec'.blocks))
  match js.find? (fun e => decide (Tbl.get 0 s.carterTurn p ≤ e.1)) with
  | some e => some e
  | none => js.head?

/-- A Carter's free Tally instances filled round-robin over its jobs, one block per job per turn (spec/19 R532); fuel is their number. -/
def State.fillCarter (s : State) (p : Nat) : Nat → State
  | 0 => s
  | fuel + 1 =>
    if 4 ≤ s.inFlight p then s
    else match s.nextJob p with
      | none => s
      | some e =>
        ({ s with
          jobs := s.jobs.set e.1 { e.2 with flight := e.2.flight + 1 }
          carterTurn := s.carterTurn.set p (e.1 + 1) }).fillCarter p fuel

/-- A Carter's translation cache: its 1,024 entries are divided among the allotments that have jobs on it; when one comes or leaves, the
division changes and every entry goes (spec/09 R262). -/
def State.divideCache (s : State) (p : Nat) : State :=
  let users := (s.jobs.filter (fun e => s.carterOf e.2 == p)).foldl (fun l e => insertNat l e.2.allot) []
  if (Tbl.get {} s.carterCaches p).users = users then s
  else { s with carterCaches := s.carterCaches.set p { users := users, entries := [] } }

/-- The recomputation of carried entries goes on, every Carter's cache is divided among its users, and it takes what blocks it can into flight. -/
def State.fillCarters (s : State) : State := (List.range 4).foldl (fun t p => (t.divideCache p).fillCarter p 4) s.startRecheck

/-- The local ranges of a job's next block translated by its Carter (spec/09 R261). -/
def State.translateBlock (s : State) (j : Job) : State :=
  let p := s.carterOf j
  let c := Tbl.get {} s.carterCaches p
  let share := cacheShare 1024 c.users.length
  let l := s.cacheRange share j.allot c.entries (j.rec'.lva + 65536 * j.blocks) (min 65536 (j.rec'.len - 65536 * j.blocks))
  { s with carterCaches := s.carterCaches.set p { c with entries := s.cacheRange share j.allot l (j.rec'.mva + 4 * j.blocks) 4 } }

/-- CARTER_JOB: the next record of a Carter stream is taken; a refused one completes at once. -/
def execCarterJob (a stream : Nat) (s : State) : Res :=
  let x := s.stream a stream
  match x.desc with
  | none => .next s
  | some d =>
    if x.left == 0 || !d.carter || decide (256 ≤ x.waiting.length) || decide (s.reg (0x3100 + a) 0x09 ≤ stream) then .next s
    else
      let r := parseJob (s.recordAt a d x.consumed)
      let s1 := s.modStream a stream Stream.consume
      let st := s.jobStatus a r.1 r.2
      if st = .ok then
        .next (s1.addJob { allot := a, stream := stream, rec' := r.1 }).fillCarters
      else .next (s1.postJob a stream r.1 0 st)

/-- F of a block's Tally prefix (spec/09 R280). -/
def JobRec.blockF (r : JobRec) (k : Nat) : Nat := if r.seqf then seqForm (r.seqb + k) else (r.lva + 65536 * k) % 2 ^ 48

/-- The length of block k (spec/09 R276). -/
def JobRec.blockLen (r : JobRec) (k : Nat) : Nat := min 65536 (r.len - 65536 * k)

/-- The page checks of block k (spec/09 R264, R277): local addresses lie in HBM pages. -/
def State.blockCheck (s : State) (a : Nat) (r : JobRec) (k : Nat) : Status :=
  let data : VRange := ⟨r.lva + 65536 * k, r.blockLen k⟩
  let word : VRange := ⟨r.mva + 4 * k, 4⟩
  if loftVa < data.va + data.len ∨ loftVa < word.va + 4 then .accessDenied
  else if r.store then s.transferCheck a [data] [word] false
  else s.transferCheck a [word] [data] false

/-- A fetched block: its bytes are checked against its manifest word, and written only when they match. Where the block does not match and
the manifest word is poisoned too, the Refused status goes first (spec/00 R9). -/
def State.fetchBlock (s : State) (a : Nat) (r : JobRec) (k : Nat) (remote : List Byte) : State × Status :=
  let len := r.blockLen k
  let got := remote.take len
  let va := r.lva + 65536 * k
  let s1 := (s.sendQp r.qp (.hostRead r.qp (r.raddr + 65536 * k) r.rkey len) 0).bumpReg (0x3100 + a) 0x22 got.length
  if got.length < len then (s1, .tallyMismatch)
  else if s.poisonedVa a (r.mva + 4 * k) 4 then (s1, .passAbortedFault)
  else if (tally a (r.blockF k) got).toNat ≠ ofLe (s.readVa a (r.mva + 4 * k) 4) then (s1, .tallyMismatch)
  else (s1.writeVa a va got, .ok)

/-- A stored block: its bytes are sent, and its check value goes into the manifest. -/
def State.storeBlock (s : State) (a : Nat) (r : JobRec) (k : Nat) : State × Status :=
  let len := r.blockLen k
  let va := r.lva + 65536 * k
  if s.poisonedVa a va len then (s, .passAbortedFault)
  else
    let bs := s.readVa a va len
    let s1 := (s.sendQp r.qp (.hostWrite r.qp (r.raddr + 65536 * k) r.rkey bs) len).bumpReg (0x3100 + a) 0x22 len
    (s1.writeVa a (r.mva + 4 * k) (leBytes 4 (tally a (r.blockF k) bs).toNat), .ok)

/-- The next block of a job: the state after it, and its status. -/
def State.moveBlock (s : State) (j : Job) (remote : List Byte) : State × Status :=
  match s.blockCheck j.allot j.rec' j.blocks with
  | .ok =>
    if !s.qpLive j.allot j.rec'.qp then (s, .memberLost)
    else if j.rec'.store then s.storeBlock j.allot j.rec' j.blocks
    else s.fetchBlock j.allot j.rec' j.blocks remote
  | st => (s, st)

/-- A job ends with a status after the blocks it has written. -/
def State.endJob (s : State) (n : Nat) (j : Job) (blocks : Nat) (st : Status) : State :=
  ({ s with jobs := s.jobs.erase n }).postJob j.allot j.stream j.rec' blocks st

/-! ### The Larder's jobs (spec/11 R329, R330, R344, spec/19 R532) -/

/-- A read over a Larder job's queue pair: it goes out under the catalogue's key, and what it brings counts in the host meter (spec/10 R315). -/
def State.larderRead (s : State) (j : Job) (raddr len : Nat) (remote : List Byte) : State :=
  (s.sendQp j.rec'.qp (.hostRead j.rec'.qp raddr j.rec'.rkey len) 0).bumpReg (0x3100 + j.allot) 0x22 (min len remote.length)

/-- A block of a Larder job is done: the job goes on, or ends with its last block. -/
def State.workMoved (s : State) (n : Nat) (j : Job) (h : Nat) : State :=
  let s1 := s.petWatchdog j.allot
  if j.rec'.blocks ≤ j.blocks + 1 then s1.workEnds n h .ok
  else { s1 with jobs := s1.jobs.set n { j with blocks := j.blocks + 1, flight := j.flight - 1 } }

/-- A block that has passed its check lands; as soon as block 0 has, the header is judged (spec/11 R330, steps 4 and 5). -/
def State.landBlock (s : State) (n : Nat) (j : Job) (h : Nat) (e : LEntry) (bs : List Byte) : State :=
  let s1 := (s.store (e.blockPa j.blocks) bs).perf j.allot 6 bs.length
  let st : Status := if j.blocks = 0 then s1.headerStatus e (ofLe (bs.take 256)) else .ok
  if st = .ok then s1.workMoved n j h else s1.workEnds n h st

/-- The catalogue record of a fetch has come (spec/11 R329, R330, step 2). -/
def State.recordComes (s : State) (n : Nat) (j : Job) (h : Nat) (e : LEntry) (remote : List Byte) : State :=
  let r := ofLe (remote.take 64)
  let len := fld r 383 344
  if !s.qpLive j.allot j.rec'.qp then s.workEnds n h .accessDenied
  else
    let s1 := s.larderRead j j.rec'.raddr 64 remote
    if remote.length < 64 || fld r 343 0 != 0 || decide (len < 256) || decide (2 ^ 30 < len) then s1.workEnds n h .shapeMismatch
    else s1.fillRoom n { j with rec' := { j.rec' with raddr := fld r 511 448, mva := fld r 447 384, len := len } } h e false

/-- The header at an INSTALL's source is read, which gives the image's length (log entry 55). -/
def State.headerComes (s : State) (n : Nat) (j : Job) (h : Nat) (e : LEntry) : State :=
  let va := j.rec'.lva
  let w := ofLe (s.readVa e.owner va 256)
  if loftVa < va + 256 then s.workEnds n h .accessDenied
  else match s.transferCheck e.owner [⟨va, 256⟩] [] false with
    | .ok =>
      if s.poisonedVa e.owner va 256 then s.workEnds n h .passAbortedFault
      else if !headerOk w || decide (2 ^ 30 < headerLen w) then s.workEnds n h .shapeMismatch
      else s.fillRoom n { j with rec' := { j.rec' with len := headerLen w } } h e true
    | st => s.workEnds n h st

/-- The manifest of a fetch has come into the entry's manifest store (spec/11 R330, step 3). -/
def State.manifestComes (s : State) (n : Nat) (j : Job) (h : Nat) (remote : List Byte) : State :=
  let words := j.rec'.blocks
  if !s.qpLive j.allot j.rec'.qp then s.workEnds n h .memberLost
  else
    let s1 := s.larderRead j j.rec'.mva (4 * words) remote
    ({ s1 with jobs := s1.jobs.set n { j with larder := some (h, .image) } }).modEntry h (fun x =>
      { x with manifest := manifestWords (min words (remote.length / 4)) remote })

/-- A block of the image has come over the queue pair: it lands when its manifest word confirms it (spec/11 R330, step 4). -/
def State.blockComes (s : State) (n : Nat) (j : Job) (h : Nat) (e : LEntry) (remote : List Byte) : State :=
  let len := j.rec'.blockLen j.blocks
  if !s.qpLive j.allot j.rec'.qp then s.workEnds n h .memberLost
  else
    let s1 := s.larderRead j (j.rec'.raddr + 65536 * j.blocks) len remote
    if remote.length < len || !e.blockOk j.blocks (remote.take len) then s1.workEnds n h .tallyMismatch
    else s1.landBlock n j h e (remote.take len)

/-- A block of an INSTALL is copied from its source, and its check value goes into the manifest (spec/11 R330, step 4). -/
def State.blockCopied (s : State) (n : Nat) (j : Job) (h : Nat) (e : LEntry) : State :=
  let len := j.rec'.blockLen j.blocks
  let va := j.rec'.lva + 65536 * j.blocks
  if loftVa < va + len then s.workEnds n h .accessDenied
  else match s.transferCheck e.owner [⟨va, len⟩] [] false with
    | .ok =>
      if s.poisonedVa e.owner va len then s.workEnds n h .passAbortedFault
      else
        let bs := s.readVa e.owner va len
        let e1 : LEntry := { e with manifest := e.manifest ++ [adaptTally e.owner e.adapt j.blocks bs] }
        ({ s with larder := s.larder.set h e1 } : State).landBlock n j h e1 bs
    | st => s.workEnds n h st

/-- A block of a carried image is read again and compared with its manifest word (spec/11 R344). -/
def State.blockRechecked (s : State) (n : Nat) (j : Job) (h : Nat) (e : LEntry) : State :=
  let len := j.rec'.blockLen j.blocks
  let pa := e.blockPa j.blocks
  if s.poisonedRange pa len || !e.blockOk j.blocks (s.load pa len) then s.workEnds n h .tallyMismatch else s.workMoved n j h

/-- The work that a Carter does next for an entry is done, remote being what the remote memory delivers. -/
def State.workDone (s : State) (n : Nat) (j : Job) (h : Nat) (w : LarderWork) (remote : List Byte) : State :=
  match s.larder.find h with
  | none => { s with jobs := s.jobs.erase n }
  | some e =>
    match w with
    | .record => s.recordComes n j h e remote
    | .header => s.headerComes n j h e
    | .room install => s.fillRoom n j h e install
    | .manifest => s.manifestComes n j h remote
    | .image => s.blockComes n j h e remote
    | .copy => s.blockCopied n j h e
    | .recheck => s.blockRechecked n j h e

/-- What the remote memory delivers for a piece of work, of a record, an image and a manifest that it holds. -/
def LarderWork.piece (w : LarderWork) (k : Nat) (record image manifest : List Byte) : List Byte :=
  match w with
  | .record => record
  | .manifest => manifest
  | .image => image.drop (65536 * k)
  | _ => []

/-- Whether a job cannot go on at present: none of its blocks has a Tally instance, or no message crosses on its queue pair (log entry 114). -/
def State.jobRests (s : State) (j : Job) : Bool :=
  (j.moves && j.flight == 0) || (j.onQp && s.qpLive j.allot j.rec'.qp && !s.crosses j.rec'.qp)

/-- The work for an entry that no block's own command has brought is done in its order: a block of it only when the rotation has given it a
Tally instance, which the blocks of the other jobs in flight keep (spec/19 R532), and as far as there is room; fuel bounds its pieces (log
entry 101). -/
def State.finishWork (s0 : State) (h : Nat) (record image manifest : List Byte) : Nat → State
  | 0 => s0
  | fuel + 1 =>
    let s := s0.fillCarters
    match s.larder.find h, s.jobs.find? (fun e => e.2.larder.map Prod.fst == some h) with
    | some e, some (n, j) =>
      (match e.ended, j.larder with
        | none, some (_, w) =>
          if s.jobRests j then s
          else
            let s1 := s.workDone n j h w (w.piece j.blocks record image manifest)
            if s1.jobs.find n = s.jobs.find n then s1 else s1.finishWork h record image manifest fuel
        | _, _ => s)
    | _, _ => s

/-- More than the pieces of any fill: its record or header, its manifest and 16,384 blocks. -/
def workPieces : Nat := 16400

/-- The recomputation of an entry that is its turn is brought to its end. -/
def State.finishRecheck (s : State) (h : Nat) : State :=
  match s.larder.find h with
  | none => s
  | some e => if e.state = 3 ∧ e.checked = false ∧ e.ended = none then s.startRecheck.finishWork h [] [] [] workPieces else s

/-- The jobs on queue pairs that a test picks end with MEMBER_LOST after the blocks written so far (spec/17 R502). -/
def State.loseJobs (s : State) (on : Nat → Bool) : State :=
  ((s.jobs.filter (fun e => e.2.onQp && on e.2.rec'.qp)).foldl (fun (t : State) e => match e.2.larder with
    | none => t.endJob e.1 e.2 e.2.blocks .memberLost
    | some w => t.workEnds e.1 w.1 .memberLost) s).fillCarters

end Sys2Proof.Machine
end

