-- ==== Sys2Proof/Machine/Well.lean ====
section
/-! DEFINITION. The Well registry (spec/16 R475 to R477, spec/11 R342, spec/15 R446), the removals of rights that wait (spec/09 R271), and the
snapshot of the numeric counters (spec/12 R364). -/

namespace Sys2Proof.Machine

/-! ### Slots -/

/-- The first address of a slot, and the length of both slots' ranges. -/
def wellVa (slot : Nat) : Nat := 0x400000000000 + slot * 0x80000000000

def State.modWell (s : State) (slot : Nat) (f : WellSlot → WellSlot) : State := { s with wells := s.wells.set slot (f (s.wellSlot slot)) }

/-- An object of a slot. -/
def State.wellReg (s : State) (slot sub : Nat) : Nat := s.reg (0x3201 + slot) sub
def State.setWellReg (s : State) (slot sub v : Nat) : State := s.setReg (0x3201 + slot) sub v

/-- The pages of a slot from number n on are unmapped: their frames are zeroed and free. -/
def State.trimWell (s : State) (slot n : Nat) : State :=
  let gone := (s.wellSlot slot).frames.drop n
  let s1 := gone.foldl (fun t f => t.zeroRange (f * 0x200000) ((f + 1) * 0x200000)) s
  ({ s1 with hbmUsed := s1.hbmUsed.filter (fun f => !gone.contains f) }).modWell slot (fun w => { w with frames := w.frames.take n })

/-- Zeroed pages mapped at the end of a slot, up to n, as far as there are free ones. -/
def State.growWell (s : State) (slot n : Nat) : State :=
  let new := freeFrames s.hbmUsed (min (n - (s.wellSlot slot).frames.length) s.freePages) 0
  let s1 := new.foldl (fun t f => t.zeroRange (f * 0x200000) ((f + 1) * 0x200000)) s
  ({ s1 with hbmUsed := new.foldl insertNat s1.hbmUsed }).modWell slot (fun w => { w with frames := w.frames ++ new })

/-- The first steps of a seal (spec/16 R476, steps 1 and 2): the pages beyond the image are unmapped, the bytes of the last page beyond it are
zeroed, and every page is frozen. -/
def State.freezeWell (s : State) (slot : Nat) : State :=
  let len := s.wellReg slot 0x04
  let s1 := s.trimWell slot (ceilDiv len 0x200000)
  let s2 := match (s1.wellSlot slot).frames[len / 0x200000]? with
    | some f => if len % 0x200000 = 0 then s1 else
        s1.store (f * 0x200000 + len % 0x200000) (List.replicate (0x200000 - len % 0x200000) 0)
    | none => s1
  s2.modWell slot (fun w => { w with sealing := true })

/-- The digest and the shape signature of a slot (spec/16 R476, steps 3 and 4). -/
def State.wellImageDigest (s : State) (slot : Nat) : Nat :=
  sha256Nat ((s.wellSlot slot).frames.flatMap (fun f => sha256 (s.load (f * 0x200000) 0x200000)))
def State.wellSignature (s : State) (slot : Nat) : Nat := sha256Nat (leBytes 256 (s.wellReg slot 0x05))

/-! ### Removals of rights that wait (spec/09 R271) -/

/-- The pages at the end of a slot that .03 has lost since are to be unmapped; those that it has gained are mapped (spec/16 R477). -/
def State.resizeWell (s : State) (slot : Nat) : State :=
  let n := s.wellReg slot 0x03
  let have' := (s.wellSlot slot).frames.length
  if s.wellRole slot ≠ 1 ∨ (s.wellSlot slot).sealing then s
  else if have' < n then s.growWell slot n
  else if n < have' then s.askRemoval 0 (wellVa slot + n * 0x200000) ((have' - n) * 0x200000) (.wellTrim slot n)
  else s

/-- What a removal does when it applies. -/
def State.doRemoval (s : State) (r : Removal) : State :=
  match r.kind with
  | .page d =>
    match s.pageOf r.allot r.va with
    | none => s
    | some old => s.putPage r.allot r.va (d.map (fun p => { p with frame := old.frame, spilled := old.spilled }))
  | .larderOwner h => ((s.modEntry h (fun x => { x with ownerMapped := false })).tryFree h).wakeFills
  | .well => s
  | .wellSeal slot => s.freezeWell slot
  | .wellTrim slot n => (s.trimWell slot n).resizeWell slot
  | .wellClear slot => s.modWell slot (fun w => { w with unmapped := true })
  | .loftTrim c => s.settleCore c

/-- The removal of a number applies once nothing holds it up. -/
def State.tryRemoval (s : State) (i : Nat) : State :=
  match s.removals[i]? with
  | none => s
  | some r => if s.removalReady i r then ({ s with removals := s.removals.eraseIdx i }).doRemoval r else s

/-- RIGHT_REMOVAL_APPLY: a removal whose operations have completed applies; page-table changes wait while a live activation runs (spec/15
R451). -/
def execRightRemovalApply (i : Nat) (s : State) : Res := .next (if s.activating.isNone then s.tryRemoval i else s)

/-- A removal asked for, which applies at once when nothing holds it up. -/
def State.removeRight (s : State) (a va len : Nat) (kind : RemovalKind) : State := (s.askRemoval a va len kind).tryRemoval s.removals.length

/-! ### Actions (spec/16 R475) -/

/-- Whether a slot is being cleared: it is on its way to EMPTY, and no switch takes it (log entry 62). -/
def State.wellBusy (s : State) (slot : Nat) : Bool := !(s.wellSlot slot).clearers.isEmpty

/-- Whether a slot's pages keep their number for now: some wait to be unmapped, the slot is frozen for its digest, or it is being cleared. -/
def State.wellHeld (s : State) (slot : Nat) : Bool :=
  (s.wellSlot slot).sealing || s.wellBusy slot || s.removals.any (fun r => match r.kind with
    | .wellTrim k _ => k == slot
    | _ => false)

/-- Whether .03 to .05 of a slot keep their values: from the freeze of its seal on (spec/16 R476, R477). -/
def State.wellFixed (s : State) (slot : Nat) : Bool := decide (2 ≤ s.wellRole slot) || (s.wellSlot slot).sealing

/-- The condition of an action (table Well actions), with the pages of the apply. -/
def State.wellFits (s : State) (slot action pages : Nat) : Bool :=
  let role := s.wellRole slot
  let other := s.wellRole (1 - slot)
  match action with
  | 0 => role == 0 || role == 1
  | 1 => role == 0 && other != 1 && other != 2 && decide (pages ≤ (s.wellSlot slot).frames.length + s.freePages)
  | 2 => role == 1
  | 3 => role == 2 && (other == 3 || other == 0) && !s.wellBusy slot
  | _ => role == 1 || role == 2 || (role == 4 && s.wellReg slot 0x08 == 0)

/-- The pages of a slot that is FILLING follow .03, as far as there are free ones; while earlier ones wait to be unmapped, they follow
behind those (spec/16 R477, log entry 62). -/
def State.sizeWell (s : State) (slot : Nat) : State :=
  let n := s.wellReg slot 0x03
  let have' := (s.wellSlot slot).frames.length
  if s.wellRole slot ≠ 1 ∨ s.wellHeld slot then s
  else if have' < n then s.growWell slot n
  else if n < have' then s.removeRight 0 (wellVa slot + n * 0x200000) ((have' - n) * 0x200000) (.wellTrim slot n)
  else s

/-- A switch (spec/11 R342, R343): the slot ACTIVE, the former active one RETIRING, every Larder entry treated, every grant's log extended. -/
def State.switchWell (s : State) (slot : Nat) : State :=
  let s1 := if s.wellRole (1 - slot) = 3 then s.setWellReg (1 - slot) 0x01 4 else s
  let s2 := (((s1.setWellReg slot 0x01 3).setReg 0x3200 0x01 slot).setReg 0x3200 0x02 ((s1.reg 0x3200 0x02 + 1) % 2 ^ 32)).larderSwitch slot
  ((List.range 256).filter (fun a => s2.wellGrant a && s2.reg (0x3100 + a) 0x01 != 0)).foldl (fun t a => t.logWell a 0x06) s2.wakeFills

/-- A seal, and a clear, of a session: it begins, or joins the one under way. -/
def State.beginSeal (s : State) (sess slot : Nat) (st : Status) : State :=
  let t := s.modWell slot (fun w => { w with sealers := w.sealers ++ [(sess, st)] })
  if (s.wellSlot slot).sealers.isEmpty then
    t.removeRight 0 (wellVa slot) (max (s.wellSlot slot).frames.length (s.wellReg slot 0x03) * 0x200000) (.wellSeal slot)
  else t
def State.beginClear (s : State) (sess slot : Nat) (st : Status) : State :=
  let t := s.modWell slot (fun w => { w with clearers := w.clearers ++ [(sess, st)] })
  if s.wellBusy slot then t
  else t.removeRight 0 (wellVa slot) (max (s.wellSlot slot).frames.length (s.wellReg slot 0x03) * 0x200000) (.wellClear slot)

/-- What an action does: the state, and its status unless it completes later. -/
def State.wellDo (s : State) (sess slot action : Nat) (st : Status) : State × Option Status :=
  let sized := s.sizeWell slot
  match action with
  | 0 => (sized, some st)
  | 1 => ((s.setWellReg slot 0x01 1).growWell slot (s.wellReg slot 0x03), some st)
  | 2 => (sized.beginSeal sess slot st, none)
  | 3 => (s.switchWell slot, some st)
  | _ => (s.beginClear sess slot st, none)

/-- An apply of a slot object by a session: the state, and its status unless it waits for its action. -/
def State.wellApply (s : State) (sess slot : Nat) : State × Option Status :=
  let idx := 0x3201 + slot
  let v := fun i => s.applying sess idx i
  let len := if v 3 = 0 then v 4 else nearest 1 (v 3 * 0x200000) (v 4)
  let changed := [3, 4, 5].any (fun i => v i != s.reg idx i)
  if !s.mayApply sess idx 0x0A || decide (2 ≤ slot) then (s, some .accessDenied)
  else if !s.wellFits slot (v 9) (v 3) || (changed && s.wellFixed slot) then
    (((s.noteRefusal idx 0x0A .accessDenied (s.applyRole sess idx 0x0A)).setReg idx 0x0B (stCode .accessDenied)), some .accessDenied)
  else
    let s1 := if len = v 4 then s else s.noteClamp idx 4 (v 4) len .o
    let st : Status := if len = v 4 then .ok else .clamped
    let s2 := s1.takeFields sess idx 0x0A [(idx, 3, v 3), (idx, 4, len), (idx, 5, v 5), (idx, 9, v 9)]
    let r := s2.wellDo sess slot (v 9) st
    match r.2 with
    | none => (r.1, none)
    | some t => (r.1.setReg idx 0x0B (stCode t), some t)

/-- Actions of a slot that have completed: the result of each, and the session that waits for it. -/
def State.wellDone (s : State) (slot : Nat) (l : List (Nat × Status)) : State :=
  l.foldl (fun t e => (t.setWellReg slot 0x0B (stCode e.2)).actionDone e.1 (0x3201 + slot) 0x0A e.2) s

/-- The digest of a slot that is being sealed is recorded. -/
def State.wellSealed (s : State) (slot : Nat) : State :=
  if (s.wellSlot slot).sealing then
    ((((s.setWellReg slot 0x06 (s.wellImageDigest slot)).setWellReg slot 0x07 (s.wellSignature slot)).setWellReg slot 0x01 2).modWell slot
      (fun w => { w with sealing := false, sealers := [] })).wellDone slot (s.wellSlot slot).sealers
  else s

/-- The frames of a slot that is being cleared are zeroed: it is EMPTY. A seal that waits behind the clear finds no slot that is FILLING, and
completes with ACCESS_DENIED (log entry 62). -/
def State.wellCleared (s : State) (slot : Nat) : State :=
  if (s.wellSlot slot).unmapped then
    let w := s.wellSlot slot
    let s1 := (s.trimWell slot 0).modWell slot (fun w => { w with unmapped := false, sealers := [], clearers := [] })
    let s2 := ([3, 4, 5, 6, 7].foldl (fun t i => t.setWellReg slot i 0) s1).setWellReg slot 0x01 0
    ({ s2 with removals := s2.removals.filter (fun (r : Removal) => r.kind != RemovalKind.wellSeal slot) }).wellDone slot
      (w.clearers ++ w.sealers.map (fun (e : Nat × Status) => (e.1, Status.accessDenied)))
  else s

/-! ### Counters (spec/12 R364) -/

/-- The snapshot of an allotment's numeric counters for a session. -/
def State.snapshot (s : State) (sess n : Nat) : State × Status :=
  let idx := 0x5000 + n
  match s.session sess with
  | none => (s, .accessDenied)
  | some x =>
    if (s.mayAccess x idx 0x09 true).isNone then (s, .accessDenied)
    else
      (s.setSession sess (([1, 2, 3, 4, 5, 6, 7, 8].foldl (fun (y : Session) i => y.setOwn idx (0x10 + i) (s.reg idx i)) x).setOwn idx 0x0A
        s.timer), .ok)

/-- COUNTER_SNAPSHOT. -/
def execCounterSnapshot (sess n : Nat) (s : State) : Res :=
  s.rowOf sess (0x5000 + n) 0x09 (State.wrote (s.snapshot sess n) sess (0x5000 + n) 0x09)

end Sys2Proof.Machine
end

