-- ==== Sys2Proof/Machine/Allotments.lean ====
section
/-! DEFINITION. Allotment definitions and resets (spec/10 R284 to R287, R292, R294, R317, spec/15 R430, R443, R452, R453, R457, R458). -/

namespace Sys2Proof.Machine

/-! ### Definitions (spec/10 R285) -/

/-- The allotments other than n that are defined. -/
def State.others (s : State) (n : Nat) : List Nat := (List.range 256).filter (fun m => m != n && s.reg (0x3100 + m) 0x01 != 0)

/-- Whether a core of a new definition of n is another allotment's, or is shared by too many, or its slice is too small. Frames still in
force where a change waits for a halt (R286) count beside the applied ones. -/
def State.coreClash (s : State) (n cores shared frames c : Nat) : Bool :=
  let on := (s.others n).filter (fun m => bitAt (s.reg (0x3100 + m) 0x02) c)
  let own := bitAt shared c
  let held := fun (m : Nat) => ((s.ctx m c).pages).length
  let users := (List.range 256).filter (fun m => m != n && (on.contains m || (s.ctx? m c).isSome))
  let uses := (users.map (fun m => max (if on.contains m then s.reg (0x3100 + m) 0x06 else 0) (held m))).foldl (· + ·) (max frames (held n))
  let isShared := own || on.any (fun m => s.listsShared m c)
  bitAt cores c &&
    (on.any (fun m => !own || !s.listsShared m c) || decide (4 < on.length + 1) ||
      decide (2048 < uses + (if isShared then 76 * (on.length + 1) else 0)))

/-- Whether a new definition of n is refused. v gives the value of each field. -/
def State.defRefused (s : State) (n : Nat) (v : Nat → Nat) : Bool :=
  let sum := fun (i : Nat) => ((s.others n).map (fun m => s.reg (0x3100 + m) i)).foldl (· + ·) (v i)
  let own7 := if s.reg (0x3100 + n) 0x01 = 0 then 0 else s.reg (0x3100 + n) 0x07
  (List.range 128).any (s.coreClash n (v 2) (v 3) (v 6)) || decide (hbmFrames < s.claimedPages - own7 + v 7) || decide (4096 < sum 8) ||
    (v 0x0F != 0xFFFF && (s.others n).any (fun m => s.reg (0x3100 + m) 0x0F == v 0x0F)) || (v 0x0A != 0xFF && decide (v 9 ≤ v 0x0A))

/-- The subindices of a definition. -/
def defSubs : List Nat := [0x02, 0x03, 0x04, 0x05, 0x06, 0x07, 0x08, 0x09, 0x0A, 0x0B, 0x0C, 0x0D, 0x0E, 0x0F, 0x10, 0x11]

/-- The configuration digest of a definition in force (spec/15 R453). -/
def State.configDigest (s : State) (n : Nat) : Nat :=
  sha256Nat (defSubs.flatMap (fun i => leBytes (((allotDef i).map (fun d => d.ty.size)).getD 0) (s.reg (0x3100 + n) i)))

/-- The Well's grant follows .0E, and the Green holds it whatever that says (spec/10 R294): a new grant is logged, a revoked one ends once
no started operation uses the Well. old: whether it was held before. -/
def State.tuneGrant (s : State) (n old : Nat) : State :=
  let new := b2n (s.wellGrant n)
  if old = new then s
  else if new = 0 then s.removeRight n 0x400000000000 0x100000000000 RemovalKind.well
  else ({ s with removals := s.removals.filter (fun r => !(r.allot == n && r.kind == RemovalKind.well)) }).logWell n 0x03

/-- Confidential mode set (spec/15 R458): the allotment's performance counts are cleared, the trace of every one of its cores stops, and
the trace buffer is zeroed. -/
def State.tuneConfidential (s : State) (n old : Nat) : State :=
  if old = 0 ∧ s.reg (0x3100 + n) 0x0D ≠ 0 then
    let s1 := (List.range 7).foldl (fun (t : State) i =>
      { t.setReg (0x6000 + n) (i + 1) 0 with perfHidden := t.perfHidden.erase (n * 256 + i + 1) }) s
    (s1.stopTrace (bitAt (s.reg (0x3100 + n) 0x02))).zeroTrace
  else s

/-- ALLOTMENT_APPLY's effect and status (spec/10 R284 to R286). -/
def State.applyAllotment (s : State) (sess n : Nat) : State × Status :=
  let idx := 0x3100 + n
  let raw := fun i => s.applying sess idx i
  let shared := Nat.land (raw 3) (raw 2)
  let open' := n == 0 || s.isGreen n
  let conf := if open' then 0 else raw 0x0D
  let v := fun i => if i = 3 then shared else if i = 0x0D then conf else raw i
  let now := fun i => s.reg idx i
  if !s.mayApply sess idx 0x1F || decide (256 ≤ n) then (s, .accessDenied)
  else if (n ≠ 0 ∧ s.reg 0x1100 0x01 ≠ 2) ∨ s.defRefused n v ∨ (conf ≠ 0 ∧ now 0x0D = 0 ∧ !(s.allot n).macsec.keyed) then
    s.refuseApply sess idx 0x1F .accessDenied
  else
    let r := s.applyRole sess idx 0x1F
    let s1 := if shared = raw 3 then s else s.noteClamp idx 3 (raw 3) shared r
    let s2 := if conf = raw 0x0D then s1 else s1.noteClamp idx 0x0D (raw 0x0D) conf r
    let s3 := s2.takeFields sess idx 0x1F (defSubs.map (fun i => (idx, i, v i)))
    let s4 := if now 1 = 0 then (s3.setReg idx 1 1).bumpReg 0x1120 n 1 else s3
    let s5 := ((s4.setReg 0x1121 n (s4.configDigest n)).tuneGrant n (b2n (now 1 != 0 && s.wellGrant n))).tuneConfidential n (now 0x0D)
    let cores := (List.range 128).filter (fun c => bitAt (now 2) c || bitAt (v 2) c || (s5.ctx? n c).isSome)
    ((cores.foldl (fun t c => t.settleCore c) s5).tuneWatchdog n, if shared = raw 3 ∧ conf = raw 0x0D then .ok else .clamped)

/-- ALLOTMENT_APPLY. -/
def execAllotmentApply (sess n : Nat) (s : State) : Res :=
  s.rowOf sess (0x3100 + n) 0x1F (State.wrote (s.applyAllotment sess n) sess (0x3100 + n) 0x1F)

/-! ### Sessions that end (spec/15 R443) -/

/-- A session ends: its pending copies, messages and scope go with it. -/
def State.endSession (s : State) (n : Nat) : State :=
  if (s.session n).isSome then ({ s with sessions := s.sessions.erase n }).emit (.spdm (some n) .ended) else s

/-- The sessions that a test picks end. -/
def State.endSessions (s : State) (p : Session → Bool) : State :=
  (s.sessions.filter (fun e => p e.2)).foldl (fun t e => t.endSession e.1) s

/-! ### The Green's rows of a reset tenant (spec/10 R317, step 5) -/

/-- A Tub element of a tenant reads +0 with the common tag. -/
def TubElem.strip (n : Nat) (e : TubElem) : TubElem := if tagOwner e.rtag = some n then {} else e

/-- An activation row of a tenant holds zeros with the common tag. -/
def ActRow.strip (n : Nat) (r : ActRow) : ActRow :=
  if tagOwner r.tag = some n then { r with tag := .common, codes := r.codes.map (fun _ => (0, 0)) } else r

/-- A started pass's results and activation rows of a tenant. -/
def PassRun.strip (n : Nat) (p : PassRun) : PassRun :=
  { p with
    wet := p.wet.map (fun (e : Nat × TubElem) => (e.1, e.2.strip n))
    os := p.os.map (fun (o : OsWork) => { o with acts := o.acts.map (ActRow.strip n) }) }

/-- A started transfer whose Hawk units no longer hold a tenant's rows. -/
def TrowelRun.strip (n : Nat) (t : TrowelRun) : TrowelRun :=
  { t with
    unitSrc := t.unitSrc.map (fun (e : Nat × UnitSrc) =>
      (e.1, e.2.map (fun (r : Nat × List Tag) => (r.1, r.2.map (fun (g : Tag) => if tagOwner g = some n then .common else g))))) }

/-- The units of the Green's part of a core's Hawk whose row tag names a tenant hold zeros with the common tag, so that no pass fed from
them gives the Tub the tenant's tag again (log entry 111). -/
def State.stripHawk (s : State) (g c n : Nat) : State :=
  let x := s.ctx g c
  let mine := fun (u : Nat) => decide (x.hawkBase ≤ u * 64) && decide (u * 64 < x.hawkBase + x.hawkLen) &&
    tagOwner (Tbl.get .common (s.core c).hawkTags u) == some n
  s.modCore c (fun k => { k with hawk := k.hawk.drop (fun b => mine (b / 64)), hawkTags := k.hawkTags.drop mine })

/-- Tub and tile elements of a Green context whose row tag names a tenant read +0 with the common tag. -/
def Ctx.strip (n : Nat) (x : Ctx) : Ctx :=
  let rows := (x.tileTags.filter (fun e => tagOwner e.2 == some n)).map Prod.fst
  { x with
    tub := x.tub.map (fun (e : Nat × TubElem) => (e.1, e.2.strip n))
    tiles := x.tiles.drop (fun k => rows.contains (k / 128))
    zeroCells := x.zeroCells ++ rows.flatMap (fun r => (List.range 128).map (fun i => r * 128 + i))
    tileTags := x.tileTags.map (fun (e : Nat × Tag) => if tagOwner e.2 = some n then (e.1, .common) else e)
    passes := x.passes.map (PassRun.strip n)
    trowels := x.trowels.map (TrowelRun.strip n) }

/-- The Loft rows of the Green on a core to which a tag map gives a tenant's tag are zeroed. -/
def State.zeroTagged (s : State) (g c n : Nat) : State :=
  (s.ctx g c).tagMap.foldl (fun t e =>
    (List.range e.2.rows).foldl (fun u i =>
      if tagOwner (s.rosterTag g (e.2.first + i)) = some n then u.writeVa g (e.2.base + i * e.2.pitch) (List.replicate e.2.pitch 0) else u) t) s

/-- The admitted requests of a tenant that is reset are retired: their rows are zeroed, and their slots stay unavailable until the Green
retires them, which also releases their pins (spec/11, table Coinciding events); the binding words of those without a pin are zeroed,
and the withdrawal of the entries marks the others. -/
def State.stripGreen (s : State) (n : Nat) : State :=
  let g := s.greenAllot
  let slots := s.greenSlots.filter (fun e => e.2.allot == n && !e.2.dead)
  if g = 0 then s
  else
    let s1 := slots.foldl (fun t e =>
      if e.2.handle.isNone then (t.zeroSlot e.1).writeVa g (bindingVa e.1) (leBytes 8 0) else t.zeroSlot e.1) s
    let s2 := (s1.allotCores g).foldl (fun t c => ((t.zeroTagged g c n).stripHawk g c n).modCtx g c (Ctx.strip n)) s1
    ({ s2 with
      greenSlots := s2.greenSlots.map (fun (e : Nat × GreenSlot) => if e.2.allot = n then (e.1, { e.2 with dead := true }) else e)
      greenRoster := s2.greenRoster.drop (fun k => slots.any (fun e => e.1 == k)) }).countBound

/-- Every admitted request retired by a reset of the Green itself, with PASS_ABORTED_FAULT and no rows. -/
def State.abortGreen (s : State) : State :=
  let s1 := s.greenSlots.foldl (fun t e =>
    let u := if e.2.dead then t else
      t.post e.2.allot e.2.req.stream { cookie := e.2.req.cookie, rseq := e.2.req.rseq, status := .passAbortedFault, kind := 0x3 }
    match e.2.handle with
    | none => u
    | some h => u.releasePin h) s
  ({ s1 with greenSlots := [], greenRoster := [] }).countBound

/-! ### Reset of an allotment (spec/10 R317, spec/15 R452) -/

/-- The allotment's part of a core's Hawk zeroed. -/
def State.zeroHawkPart (s : State) (c : Nat) (x : Ctx) : State :=
  let inB := fun (k : Nat) => decide (x.hawkBase ≤ k) && decide (k < x.hawkBase + x.hawkLen)
  let inU := fun (u : Nat) => inB (u * 64)
  s.modCore c (fun k =>
    { k with
      hawk := k.hawk.drop inB, drawn := k.drawn.filter (fun u => !inU u), owners := k.owners.drop inU, hawkTags := k.hawkTags.drop inU
      hawkPoison := k.hawkPoison.filter (fun w => !inB w) })

/-- A core's context of an allotment that is reset: halted, its Loft window unmapped and zeroed, its Hawk part zeroed. -/
def State.wipeCore (s : State) (n c : Nat) : State :=
  let x := s.ctx n c
  let s1 := (s.trimLoft n c 0).zeroHawkPart c x
  (s1.setCtx n c { hawkBase := x.hawkBase, hawkLen := x.hawkLen }).modCore c (fun k =>
    if s.sharedBy n c then
      { k with
        resident := if k.resident = some n then none else k.resident
        phase := match k.phase with
          | .leaving next r => if k.resident = some n then (match next with
              | some m => .restoring m
              | none => .idle) else .leaving (next.filter (· != n)) r
          | .restoring m => if m = n then .idle else .restoring m
          | .idle => .idle }
    else k)

/-- Every HBM page of an allotment unmapped and its frame zeroed. -/
def State.wipeHbm (s : State) (n : Nat) : State :=
  let mine := s.hbmPages.filter (fun e => e.1 / 2 ^ 26 == n)
  let s1 := mine.foldl (fun t e => t.zeroRange (e.2.frame * 0x200000) ((e.2.frame + 1) * 0x200000)) s
  let fs := mine.map (fun e => e.2.frame)
  { s1 with hbmPages := s1.hbmPages.drop (fun k => k / 2 ^ 26 == n), hbmUsed := s1.hbmUsed.filter (fun f => !fs.contains f) }

/-- The Larder entries of an allotment withdrawn (spec/11 R335), and the fills that wait for its room dropped; the spec names no status for
those (log entry 2). -/
def State.wipeLarder (s : State) (n : Nat) : State :=
  let s1 := (s.entriesOf n).foldl (fun t e => ((t.withdraw e.1).modEntry e.1 (fun x => { x with ownerMapped := false })).tryFree e.1) s
  let gone := s1.fillWait.filter (fun q => q.owner == n)
  gone.foldl (fun t q =>
    let d := t.drawStatus
    d.2.actionDone q.sess 0x3301 0x05 d.1) { s1 with fillWait := s1.fillWait.filter (fun q => q.owner != n) }

/-- Allotment n reset: everything it runs ends with no completion, what it held is unmapped and zeroed, and its state is 2. -/
def State.resetAllot (s : State) (n : Nat) : State :=
  let green := s.isGreen n
  let s1 := ((s.bumpReg 0x1120 n 1).setReg 0x1123 n 0).setReg (0x3100 + n) 0x01 2
  let s2 := s1.endSessions (fun x => x.bound == some n)
  let s3 := ((List.range 12).filter (fun g => s2.mOwner g == n && (s2.mState g == 1 || s2.mState g == 2))).foldl (fun t g => t.loseGroup g) s2
  let s4 := if green then s3.abortGreen else s3.stripGreen n
  let s5 := (s4.allotCores n).foldl (fun t c => t.wipeCore n c) s4
  let s6 := (s5.wipeLarder n).modAllot n (fun x =>
    { x with
      streams := [], cmds := [], programLog := {}, weightLog := {}, wdSince := none, wdSpent := false, macsec := {} })
  let s7 := { s6 with
    jobs := s6.jobs.filter (fun (e : Nat × Job) => e.2.allot != n)
    removals := s6.removals.filter (fun (r : Removal) => !(r.allot == n && (match r.kind with
      | .page _ => true
      | .larderOwner _ => true
      | .well => true
      | _ => false))) }
  let s8 := (s7.qps.filter (fun e => e.2.allot == n)).foldl (fun t e => t.failQp e.1) (s7.wipeHbm n).fillCarters
  (s8.allotCores n).foldl (fun t c => t.settleCore c) s8

/-- ALLOTMENT_RESET's effect and status. -/
def State.applyReset (s : State) (sess n : Nat) : State × Status :=
  let idx := 0x3100 + n
  if !s.mayApply sess idx 0x1E || decide (256 ≤ n) then (s, .accessDenied)
  else if s.reg idx 0x01 ≠ 1 then s.refuseApply sess idx 0x1E .accessDenied
  else (s.resetAllot n, .ok)

/-- ALLOTMENT_RESET_DONE: the zeroing has ended: the state is 1, the Loft windows of the definition are mapped anew, and so are the Green's
regions. The Well is mapped again under a grant, which its emptied log gets as a new entry before any weight is read (spec/15 R446). It
waits while a live activation runs (R451). -/
def execAllotmentResetDone (n : Nat) (s : State) : Res :=
  if s.reg (0x3100 + n) 0x01 = 2 ∧ s.activating.isNone then
    let s1 := s.setReg (0x3100 + n) 0x01 1
    let s2 := (s1.allotCores n).foldl (fun t c => t.settleCore c) s1
    let s3 := if s2.wellGrant n then s2.logWell n 0x03 else s2
    .next (if s.isGreen n then s3.mapGreen else s3)
  else .next s

end Sys2Proof.Machine
end

