-- ==== Sys2Proof/Machine/Security.lean ====
section
/-! DEFINITION. Life cycle, sessions, reports and the Lych Gate (spec/15 R429 to R460). -/

namespace Sys2Proof.Machine

/-! ### Life cycle (spec/15 R429 to R434) -/

def State.lifeCycle (s : State) : Nat := s.reg 0x1100 0x01

/-- The 64-byte body of a maker token, as a number. -/
def tokenBody (t : MakerToken) : Nat := t.identity % 2 ^ 256 + t.nonce % 2 ^ 128 * 2 ^ 256 + t.target % 256 * 2 ^ 384

/-! Identity and debug, as the life-cycle state opens them (spec/15 R429, R432, table Life-cycle states). -/

/-- Whether the device has an identity: none in Bare, destroyed in Stripped. -/
def State.hasIdentity (s : State) : Bool := s.lifeCycle == 1 || s.lifeCycle == 2

/-- The instructions of the JTAG port. -/
inductive Jtag where
  | bypass
  | idcode
  | samplePreload
  | extest
  | other
  deriving DecidableEq, Repr

/-- Whether the device is held in reset: while it waits for its reference clocks, the one such state in which it is powered (log entry 65). -/
def State.inReset (s : State) : Bool := s.power == .clockHeld

/-- Whether JTAG executes an instruction. -/
def State.jtagOpen (s : State) (i : Jtag) : Bool :=
  match s.lifeCycle with
  | 0 => true
  | 2 => s.inReset && i != .other
  | _ => i == .bypass || i == .idcode || s.reg 0x1100 0x04 == 1

/-- What a debugger can ask for: the memories and registers of the device, which are State's own: a byte of HBM, an object of the register, a
byte of Loft or Hawk with its marks, owner, tag and poison; of an allotment's context on a core the Tub, the tile registers with sidecars
and tags, both weight sets, the scalar, nest, loop and mark registers, the engines' status registers, the tag map, the address FIFO, the
provisional epochs, the rings, the Tally, the queues and the started operations, and the save area; an allotment's streams, commands, logs
and channel keys; the Larder's directory and manifests; queue pairs, links, routes, Moot buckets, Carter jobs and sessions; the boot flash;
and the seed, and the identity key that it gives. -/
inductive DebugTarget where
  | hbm (addr : Nat)
  | object (idx sub : Nat)
  | loft (core addr : Nat)
  | hawk (core addr : Nat)
  | hawkMark (core unit : Nat)
  | tub (core i : Nat)
  | tile (allot core reg byte : Nat)
  | weights (allot core sub : Nat) (shadow : Bool)
  | scalar (allot core i : Nat)
  | nest (allot core i : Nat)
  | loop (allot core i : Nat)
  | mark (allot core i : Nat)
  | engineStatus (allot core : Nat) (e : Engine)
  | tagMap (allot core entry : Nat)
  | fifo (allot core i : Nat)
  | epoch (allot core i : Nat)
  | ring (allot core base : Nat)
  | tally (allot core : Nat)
  | queue (allot core : Nat) (e : Engine) (i : Nat)
  | started (allot core : Nat) (e : Engine) (i : Nat)
  | saveArea (allot core byte : Nat)
  | stream (allot n : Nat)
  | measurementLog (allot : Nat) (weight : Bool) (i : Nat)
  | channelKey (allot an : Nat)
  | larder (handle : Nat)
  | queuePair (n : Nat)
  | link (n : Nat)
  | route (n : Nat)
  | bucket (group n : Nat)
  | carterJob (n : Nat)
  | session (n : Nat)
  | flash (key : Nat)
  | seed
  | identityKey
  deriving DecidableEq, Repr

/-- Whether maker debug reaches it: every memory and register while it is open, and all debug in Bare; never the seed and its key. -/
def State.debugReaches (s : State) (d : DebugTarget) : Bool :=
  (s.lifeCycle == 0 || ((s.lifeCycle == 1 || s.lifeCycle == 3) && s.reg 0x1100 0x04 == 1)) && d != .seed && d != .identityKey

/-- Whether a maker token for a target verifies on this device. -/
def State.tokenOk (s : State) (t : MakerToken) (target : Nat) : Bool :=
  t.identity == s.reg 0x1100 0x02 && t.target == target && Config.slhDsaVerify 2 (sha256Nat (leBytes 64 (tokenBody t))) t.signature

/-- The strip nonce discarded. -/
def State.dropNonce (s : State) : State := ({ s with stripNonce := none }).setReg 0x1102 0x02 0

/-- STRIP_ARM's effect and status: a nonce is drawn, published and kept for 600 s (spec/15 R433). -/
def State.stripArm (s : State) (sess : Nat) : State × Status :=
  if !s.mayApply sess 0x1102 0x01 then (s, .accessDenied)
  else if s.lifeCycle ≠ 2 then s.refuseApply sess 0x1102 0x01 .accessDenied
  else
    let d := s.drawNat
    let v := d.1 % 2 ^ 128
    (({ d.2 with stripNonce := some (v, s.timer + 600000000000) }).setReg 0x1102 0x02 v, .ok)

/-- STRIP_ARM (spec/15 R433). -/
def execStripArm (sess : Nat) (s : State) : Res :=
  s.rowOf sess 0x1102 0x01 (State.wrote (s.stripArm sess) sess 0x1102 0x01)

/-- STRIP_TOKEN's effect and status: a token that verifies under the nonce held writes the fuse and begins the stripping, which ends in a
reset; any other is refused, and the nonce is discarded (spec/15 R431, R433, R434). -/
def State.stripToken (s : State) (sess : Nat) (t : MakerToken) : State × Status :=
  if !s.mayApply sess 0x1102 0x03 then (s, .accessDenied)
  else
    let held : Bool := match s.stripNonce with
      | none => false
      | some n => t.nonce == n.1 && decide (s.timer < n.2)
    if s.lifeCycle = 2 ∧ held ∧ s.tokenOk t 3 then (({ s.dropNonce with transition := true }).setReg 0x1100 0x01 3, .ok)
    else (s.dropNonce, .accessDenied)

/-- STRIP_TOKEN (spec/15 R433, R434). -/
def execStripToken (sess : Nat) (token : MakerToken) (s : State) : Res :=
  s.rowOf sess 0x1102 0x03 (State.wrote (s.stripToken sess token) sess 0x1102 0x03)

/-- STRIP_NONCE_EXPIRY: 600 s after the arm. -/
def execStripNonceExpiry (s : State) : Res :=
  match s.stripNonce with
  | none => .next s
  | some n => if n.2 ≤ s.timer then .next s.dropNonce else .next s

/-- MAKER_DEBUG_TOKEN: a token for target debug that verifies opens maker debug in Primed or Stripped (spec/15 R432). -/
def execMakerDebugToken (token : MakerToken) (s : State) : Res :=
  if s.power = .running ∧ (s.lifeCycle = 1 ∨ s.lifeCycle = 3) ∧ s.tokenOk token Config.debugTarget then .next (s.setReg 0x1100 0x04 1) else .next s

/-- The operator key list empty, also in the boot flash. -/
def State.dropOperatorKeys (s : State) : State :=
  let s1 := [1, 2, 3, 4].foldl (fun (t : State) i => t.setReg 0x1110 i 0) s
  { s1 with
    flash := s1.flash.drop (fun k => k / 256 == 0x1110)
    flashWait := s1.flashWait.filter (fun e => e.1 / 256 != 0x1110) }

/-- A seed fused at the test station, and the certificate issued for its identity (spec/15 R431, R435); its value is the station's. -/
def State.fuseSeed (s : State) (identity : Nat) : State :=
  let d := s.drawNat
  ({ d.2 with seed := .fused d.1, deviceCert := some identity }).setReg 0x1100 0x02 identity

/-- TEST_STATION_TRANSITION: the fuse is written, the actions follow, and the device then resets; none begins while another's remaining
actions are still to come (spec/15 R431). -/
def execTestStationTransition (move : StationMove) (s : State) : Res :=
  if s.transition ∨ s.power ≠ .running then .next s
  else match move with
    | .bareToPrimed identity =>
      if s.lifeCycle = 0 then .next ({ (s.setReg 0x1100 0x01 1).fuseSeed identity with transition := true }) else .next s
    | .primedToFinished token =>
      if s.lifeCycle = 1 ∧ s.tokenOk token 2 then
        .next ({ ((s.setReg 0x1100 0x01 2).setReg 0x1100 0x04 0).dropOperatorKeys with transition := true })
      else .next s
    | .strippedToPrimed identity =>
      if s.lifeCycle = 3 ∧ s.reg 0x1100 0x03 < 3 then
        .next ({ ((s.setReg 0x1100 0x01 1).fuseSeed identity).setReg 0x1100 0x03 (s.reg 0x1100 0x03 + 1) with transition := true })
      else .next s

/-! ### Certificates and algorithms (spec/15 R435) -/

/-- A certificate of the chain; the device's binds the identity public key, by its digest, to the part number and the stepping. -/
inductive Cert where
  | rootCa
  | productCa
  | device (part stepping : String) (identity : Nat)
  deriving DecidableEq, Repr

/-- The certificate chain in slot 0; no row of the opcode table reads it (log entry 84). -/
def State.certChain (s : State) : List Cert :=
  match s.deviceCert with
  | none => []
  | some d => [.rootCa, .productCa, .device "SP-7204" "B0" d]

/-- A signature algorithm that a requester may offer. -/
inductive SigAlg where
  | slhDsaSha2128f
  | other (code : Nat)
  deriving DecidableEq, Repr

/-- What the device chooses of the algorithms offered: it signs with SLH-DSA-SHA2-128f alone. -/
def negotiate (offered : List SigAlg) : Option SigAlg := offered.find? (· == .slhDsaSha2128f)

/-! ### Sessions (spec/15 R441 to R443) -/

/-- Whether a key digest is one of the operator's. -/
def State.operatorKey (s : State) (d : Nat) : Bool := [1, 2, 3, 4].any (fun i => s.reg 0x1110 i == d && d != 0)

/-- OPERATOR_KEY_WRITE's effect, status and value: while the list is empty, the first slot may be written from any session on the management
port, which then holds role O. A write that would clear the list is refused: only stripping does (spec/15 R442, log entry 65). -/
def State.writeOperatorKey (s : State) (sess slot digest : Nat) : State × Status × Nat :=
  match s.session sess with
  | none => (s, .accessDenied, 0)
  | some x =>
    if slot = 0 ∨ 4 < slot then (s, .accessDenied, 0)
    else if slot = 1 ∧ x.path = .management ∧ [1, 2, 3, 4].all (fun i => s.reg 0x1110 i == 0) ∧ digest < 2 ^ 256 then
      ((s.putReg 0x1110 1 digest).setSession sess { x with oper := true }, .ok, digest)
    else if digest = 0 ∧ s.mayApply sess 0x1110 slot ∧ [1, 2, 3, 4].all (fun i => i == slot || s.reg 0x1110 i == 0) then
      (s, .accessDenied, 0)
    else s.writeObject sess 0x1110 slot digest

/-- OPERATOR_KEY_WRITE (spec/15 R442). -/
def execOperatorKeyWrite (sess slot : Nat) (digest : Nat) (s : State) : Res :=
  let r := s.writeOperatorKey sess slot digest
  s.rowOf sess 0x1110 slot (State.wrote (r.1, r.2.1) sess 0x1110 slot)

/-- Whether SPDM requests on a path are heard: on the management port from phase 2 of the boot on and in recovery, in band once the port
is up (spec/18 R523, spec/16 R487). -/
def State.heard (s : State) (path : LmpPath) : Bool :=
  s.power == .running &&
    (match path with
      | .management => decide (2 ≤ s.reg 0x1300 0x02)
      | .inBand p => s.portUp p && s.mgmtQps.contains p)

/-- A request that waits for signing; Busy while 16 wait (spec/15 R449). -/
def State.askSign (s : State) (r : SignReq) : State :=
  if 16 ≤ s.signQ.length then s.reply r.sess .busy else { s with signQ := s.signQ ++ [r] }

/-- The sessions open, with the exchanges that wait for their signature. -/
def State.sessionCount (s : State) : Nat :=
  s.sessions.length + (s.signQ.filter (fun r => match r.kind with
    | .keyExchange _ => true
    | _ => false)).length

/-- KEY_EXCHANGE: a session opens once its response is signed; beyond 512 it is refused. -/
def execKeyExchange (path : LmpPath) (req : Requester) (s : State) : Res :=
  if !s.heard path || s.activating.isSome || s.transition then .next s
  else if 512 ≤ s.sessionCount then .next (s.emit (.spdm none .sessionLimit))
  else .next (s.askSign { sess := none, path := path, kind := .keyExchange req })

/-- A session opened, with the roles of its requester. -/
def State.openSession (s : State) (path : LmpPath) (r : Requester) : State :=
  let x : Session :=
    { path := path, authed := r.mutualAuth, keyDigest := if r.mutualAuth then r.keyDigest else 0, maker := r.mutualAuth && r.maker
      oper := r.mutualAuth && s.operatorKey r.keyDigest }
  ({ s with sessions := s.sessions.set s.nextSess x, nextSess := s.nextSess + 1 }).emit (.spdm (some s.nextSess) .opened)

/-- END_SESSION, which a session that has ended answers with InvalidSession. -/
def execEndSession (sess : Nat) (s : State) : Res := if s.talks then s.onSession sess (.next (s.endSession sess)) else .next s
/-- HEARTBEAT_MISSED: three periods without one (spec/15 R443). -/
def execHeartbeatMissed (sess : Nat) (s : State) : Res := .next (s.endSession sess)

/-! ### Reports (spec/15 R436, R444 to R450) -/

/-- The running digest and SVN of a firmware component. -/
def State.component (s : State) (i : Nat) : Nat × Nat := (s.components.find i).getD (Config.componentDigest i, Config.componentSvn i)

/-- Whether the Green's debug facilities are open (spec/15 R460). -/
def State.greenDebug (s : State) : Bool := s.greenAllot != 0 && !s.greenClosed

/-- The extension and the count of a log. -/
def MLog.block (m : MLog) : List Byte := m.ext ++ leBytes 8 m.count

/-- The report status word (spec/15 R447), for the allotment in scope if there is one. -/
def State.statusWord (s : State) (scope : Option Nat) (withheld : Bool) : Nat :=
  let bit := fun (i : Nat) (b : Bool) => b2n b * 2 ^ i
  let of := fun (p : Nat → Bool) => match scope with
    | none => false
    | some n => p n
  bit 15 s.staged.isSome + bit 14 (of (fun n => (s.entriesOf n).any (fun e => e.2.state == 3))) + bit 13 s.greenDebug +
    bit 12 (of (fun n => decide (4096 < (s.allot n).programLog.count) || decide (4096 < (s.allot n).weightLog.count))) +
    bit 11 (of (fun n => s.reg (0x3100 + n) 0x0D != 0)) + bit 10 (of (fun n => s.reg (0x3100 + n) 0x0C != 0)) +
    bit 9 (of (fun n => (s.allot n).macsec.keyed)) + stCode (if withheld then .accessDenied else .ok)

/-- The device-wide blocks 0x01 to 0x09. -/
def State.deviceBlocks (s : State) : List (Nat × List Byte) :=
  let comp := fun (i : Nat) => (i, leBytes 32 (s.component i).1 ++ leBytes 1 (s.component i).2)
  let well := fun (k : Nat) => leBytes 1 (s.wellRole k) ++ leBytes 32 (s.wellDigest k) ++ leBytes 32 (s.wellShape k)
  [comp 1, comp 2, comp 3, comp 4, comp 5] ++
    (match s.staged with
      | none => []
      | some g => [(0x06, leBytes 1 g.component ++ leBytes 32 g.digest ++ leBytes 1 g.svn)]) ++
    [(0x07, [1, 2, 3, 4, 5].flatMap (fun i => leBytes 1 (s.reg 0x1101 i))),
     (0x08, leBytes 1 s.lifeCycle ++ leBytes 1 (s.reg 0x1100 0x03) ++ leBytes 1 (s.reg 0x1100 0x04)), (0x09, well 0 ++ well 1)]

/-- Blocks 0x10 to 0x13 of an allotment. -/
def State.allotBlocks (s : State) (n : Nat) : List (Nat × List Byte) :=
  [(0x10, leBytes 1 n ++ leBytes 1 (s.reg (0x3100 + n) 0x01) ++ leBytes 2 (s.reg (0x3100 + n) 0x0F) ++ leBytes 8 (s.reg 0x1120 n) ++
      leBytes 32 (s.reg 0x1121 n) ++ leBytes 32 (s.keeper n)),
   (0x11, (s.allot n).programLog.block), (0x12, (s.allot n).weightLog.block)] ++
    (if s.greenAllot = 0 then [] else [(0x13, (s.allot s.greenAllot).programLog.block)])

/-- The allotment in scope of a session (spec/15 R444). -/
def Session.inScope (x : Session) : Option Nat := if x.bound.isSome then x.bound else if x.oper then x.scope else none

/-- Whether a session is given the blocks of an allotment (spec/15 R448). -/
def State.mayReport (s : State) (x : Session) (n : Nat) : Bool :=
  (s.holds x .t && x.bound == some n) || (x.oper && s.reg (0x3100 + n) 0x0D == 0)

/-- The blocks of a report at its snapshot (spec/15 R444, R448, R449). -/
def State.reportBlocks (s : State) (x : Session) : List (Nat × List Byte) :=
  let given := match x.inScope with
    | none => none
    | some n => if s.mayReport x n then some n else none
  s.deviceBlocks ++ (given.toList.flatMap s.allotBlocks) ++
    [(0x14, leBytes 4 (s.statusWord x.inScope given.isNone) ++ leBytes 8 s.timer)]

/-- CHALLENGE: it waits for an identity signature; while a live activation runs it is answered in transition. -/
def execChallenge (path : LmpPath) (nonce : Nat) (s : State) : Res :=
  if !s.heard path then .next s
  else if s.activating.isSome then .next (s.emit (.spdm none (.inTransition 250)))
  else .next (s.askSign { sess := none, path := path, kind := .challenge nonce })

/-- GET_MEASUREMENTS: the blocks are snapshotted and wait for their signature, or the request is answered in transition (spec/15 R450). -/
def execGetMeasurements (sess : Nat) (nonce : Nat) (s : State) : Res :=
  if !s.talks then .next s
  else if s.activating.isSome then .next (s.reply (some sess) (.inTransition 250))
  else if s.transition then .next (s.reply (some sess) (.inTransition 0))
  else match s.session sess with
    | none => .next (s.emit (.spdm (some sess) .invalidSession))
    | some x =>
      if !s.up then .next s
      else
        let busy := match x.inScope with
          | none => false
          | some n => s.reg (0x3100 + n) 0x01 == 2
        if busy then
          let d := s.drawNat
          .next (d.2.reply (some sess) (.inTransition (max 1 d.1)))
        else .next (s.askSign { sess := some sess, path := x.path, kind := .report nonce (s.reportBlocks x) })

/-- The message that an identity signature of a report covers. -/
def reportMessage (nonce : Nat) (blocks : List (Nat × List Byte)) : List Byte :=
  leBytes 32 nonce ++ blocks.flatMap (fun b => leBytes 1 b.1 ++ b.2)

/-- The identity key's signature of a message: the key is the one that the fused seed gives (spec/15 R434, R436). -/
def State.sign (s : State) (message : List Byte) : BitVec 136704 := Config.identitySign s.seed (sha256Nat message)

/-- REPORT_SIGNED: the oldest signature is made: its report or answer is sent, or its session opens. -/
def execReportSigned (s : State) : Res :=
  match s.signQ with
  | [] => .next s
  | r :: rest =>
    let s1 := { s with signQ := rest }
    match r.kind with
    | .keyExchange req => .next (s1.openSession r.path req)
    | .challenge nonce => .next (s1.reply r.sess (.challengeAuth nonce (s.sign (leBytes 32 nonce))))
    | .report nonce blocks =>
      .next (s1.reply r.sess (.measurements nonce blocks (s.sign (reportMessage nonce blocks))))

/-! ### The Lych Gate (spec/15 R454 to R456) -/

/-- The answer to a Lych Gate message. -/
def State.lych (s : State) (sess : Nat) (st : Status) (data : List Byte := []) : State := s.reply (some sess) (.lych st data)

/-- A Lych Gate message on a session: none is answered while a live activation runs, and one without a session is invalid. -/
def State.lychOn (s : State) (sess : Nat) (f : Session → State) : Res :=
  if !s.answers then .next s
  else match s.session sess with
    | none => .next (s.emit (.spdm (some sess) .invalidSession))
    | some x => .next (f x)

/-- LYCH_CLAIM: the session is bound to an allotment, whose free keeper it becomes. -/
def execLychClaim (sess n : Nat) (s : State) : Res :=
  s.lychOn sess (fun x =>
    let free := s.reg (0x3100 + n) 0x01 == 1 && s.keeper n == 0
    let mine := s.keeper n != 0 && s.keeper n == x.keyDigest
    let elsewhere := match x.bound with
      | none => false
      | some m => m != n
    if !x.authed || s.lifeCycle != 2 || n == 0 || decide (256 ≤ n) || elsewhere || !(free || mine) then s.lych sess .accessDenied
    else
      let s1 := if free then s.setReg 0x1122 n x.keyDigest else s
      (s1.setSession sess { x with bound := some n }).lych sess .ok)

/-- LYCH_SCOPE: the scope of a role-O session's reports. -/
def execLychScope (sess n : Nat) (s : State) : Res :=
  s.lychOn sess (fun x =>
    if x.oper && decide (n < 256) then (s.setSession sess { x with scope := some n }).lych sess .ok else s.lych sess .accessDenied)

/-- The info string of a key derivation (spec/15 R455). -/
def lychInfo (dir n an g : Nat) : List Byte :=
  [0x6F, 0x64, 0x74, 0x69, 0x6B, 0x20, 0x6C, 0x79, 0x63, 0x68] ++ leBytes 1 dir ++ leBytes 1 n ++ leBytes 1 an ++ leBytes 4 g

/-- The secure channel identifier of a direction (spec/15 R456): the device's, and the host's. -/
def ssci (toHost : Bool) : Nat := if toHost then 0x00000001 else 0x00000002

/-- The association of an allotment after a LYCH_KEY: the next AN with both directions' keys; the previous one is received for 1 s more, and
so is each older one whose second has not passed. -/
def Macsec.rekey (m : Macsec) (secret : List Byte) (n g now : Nat) : Macsec :=
  let an := if m.keyed then (m.an + 1) % 4 else 0
  let key := hkdf44 secret (lychInfo 1 n an g) ++ hkdf44 secret (lychInfo 2 n an g)
  { keyed := true, an := an, sent := [], keys := Tbl.set (if m.keyed then m.keys else []) an key, old := if m.keyed then (m.old.set m.an (now + 1000000000)).erase an else [] }

/-- The associations whose second has passed are received no longer. -/
def Macsec.expire (m : Macsec) (now : Nat) : Macsec :=
  let gone := m.old.keys.filter (fun k => decide (Tbl.get 0 m.old k ≤ now))
  { m with keys := m.keys.drop (fun k => gone.contains k), old := m.old.drop (fun k => gone.contains k) }

/-- LYCH_KEY: the channel of the bound allotment is keyed or rekeyed; the first key ends its unprotected queue pairs (spec/17 R492). -/
def execLychKey (sess : Nat) (g : W32) (s : State) : Res :=
  s.lychOn sess (fun x =>
    match x.bound with
    | none => s.lych sess .accessDenied
    | some n =>
      let m := (s.allot n).macsec
      let m' := m.rekey (leBytes 32 (Config.exportSecret sess)) n g.toNat s.timer
      let s1 := (s.modAllot n (fun y => { y with macsec := m' })).setReg 0x1123 n (0x80 + m'.an)
      let s2 := if m.keyed then s1 else (s1.qps.filter (fun e => e.2.allot == n && !e.2.isProtected)).foldl (fun t e => t.failQp e.1) s1
      s2.lych sess .ok (leBytes 1 m'.an))

/-- The entry of a log with a count, the first having count 1; none when it is not retained. -/
def MLog.entryAt (m : MLog) (i : Nat) : Option (List Byte) := if i = 0 ∨ m.count < i then none else m.entries[m.count - i]?

/-- LYCH_LOG: retained entries of a log of the bound allotment. -/
def execLychLog (sess : Nat) (weight : Bool) (first : W64) (count : Nat) (s : State) : Res :=
  s.lychOn sess (fun x =>
    match x.bound with
    | none => s.lych sess .accessDenied
    | some n =>
      let m := if weight then (s.allot n).weightLog else (s.allot n).programLog
      let got := (List.range count).map (fun i => m.entryAt (first.toNat + i))
      if count = 0 ∨ 64 < count ∨ got.any Option.isNone then s.lych sess .accessDenied
      else s.lych sess .ok (got.filterMap id).flatten)

/-- LYCH_RELEASE: the keeper digest is cleared and every session bound to the allotment ends. -/
def execLychRelease (sess : Nat) (s : State) : Res :=
  s.lychOn sess (fun x =>
    match x.bound with
    | none => s.lych sess .accessDenied
    | some n => ((s.lych sess .ok).setReg 0x1122 n 0).endSessions (fun y => y.bound == some n))

/-- OLD_AN_EXPIRY: 1 s after a rekey, the previous association is received no longer. -/
def execOldAnExpiry (n : Nat) (s : State) : Res := .next (s.modAllot n (fun x => { x with macsec := x.macsec.expire s.timer }))

end Sys2Proof.Machine
end

