-- ==== Sys2Proof/Machine/Ports.lean ====
section
/-! DEFINITION. Host ports and queue pairs (spec/17 R488 to R496, R500, R502, R503). -/

namespace Sys2Proof.Machine

/-! ### Connections (spec/17 R491, R492) -/

/-- Whether a connection request for an allotment is accepted. -/
def State.mayConnect (s : State) (n : Nat) (isProtected : Bool) : Bool :=
  let live := s.qps.filter (fun e => !e.2.error)
  decide (n < 256) && s.reg (0x3100 + n) 0x01 == 1 &&
    decide ((live.filter (fun e => e.2.allot == n)).length < s.reg (0x3100 + n) 0x08) && decide (live.length < 4096) &&
    (isProtected || s.keeper n == 0)

/-- RDMA_CM_CONNECT: a request on a port creates a queue pair with an R_Key of the device's choice and a path MTU of 256 to 4,096 bytes, which
is negotiated (spec/17 R490, a free value, log entry 114), or is rejected; a protected one for a channel that is not keyed is dropped. -/
def execRdmaCmConnect (n p : Nat) (isProtected : Bool) (s : State) : Res :=
  if !s.portUp p then .next s
  else if isProtected && !(s.allot n).macsec.keyed then .next (s.dropPort p 0x04 n)
  else if !s.mayConnect n isProtected then .next (s.emit (.rejected n p))
  else
    let d := s.drawNat
    let m := d.2.drawNat
    let live := (m.2.qps.filter (fun e => !e.2.error)).map Prod.fst
    let qp := lowestFree live 0
    let key := d.1 % 2 ^ 32
    let mtu := 256 * 2 ^ (m.1 % 5)
    let s1 := ({ m.2 with qps := m.2.qps.set qp { allot := n, port := p, isProtected := isProtected, rkey := key, mtu := mtu } }).countQps n
    .next (s1.emit (.connected qp key))

/-- QP_DISCONNECT: either side releases a queue pair; the completions that wait for it are dropped. -/
def execQpDisconnect (qp : Nat) (s : State) : Res :=
  match s.qps.find qp with
  | none => .next s
  | some q =>
    let t := s.failQp qp
    .next (({ t with qps := t.qps.erase qp }).countQps q.allot)

/-! ### Inbound access (spec/17 R493, R494, R496) -/

/-- The doorbell window. -/
def bellBase : Nat := 0x7FFFFFFF0000
def inBells (va len : Nat) : Bool := decide (va < bellBase + 0x10000) && decide (bellBase < va + len)

/-- A refused message: a NAK, and the queue pair in the error state. -/
def State.nakQp (s : State) (qp : Nat) (invalid : Bool) : State := (s.failQp qp).sendQp qp (.nak qp invalid) 0

/-- Whether a range touches what inbound messages never reach: VA[47] = 1, the fabric window, the doorbell window. -/
def barred (va len : Nat) : Bool :=
  decide (loftVa < va + len) || (decide (va < 0x600000000000) && decide (0x500000000000 < va + len)) || inBells va len

/-- The 8 bytes that a READ in the doorbell window gives: a doorbell's consumed count and last accepted D, or a stream's consumed
completions. -/
def State.bellWord (s : State) (a off : Nat) : List Byte :=
  let x := s.stream a (off % 0x80 / 8)
  if off < 0x80 then leBytes 8 (x.consumed % 2 ^ 32 + x.doorbell % 2 ^ 32 * 2 ^ 32) else leBytes 8 x.hostConsumed

/-- RDMA_READ_INBOUND: one message, checked as a source and answered, or refused; a poisoned word in it is never sent (spec/09 R255). -/
def execRdmaReadInbound (qp : Nat) (rkey : W32) (va : W64) (len : Nat) (s0 : State) : Res :=
  match s0.liveQp qp with
  | none => .next (s0.noQp qp)
  | some q =>
    let s := s0.portArrive q.port
    let v := va.toNat
    let off := v - bellBase
    let give := fun (bs : List Byte) => (s.bumpReg (0x3100 + q.allot) 0x22 bs.length).sendQp qp (.readAnswer qp bs) bs.length
    if rkey.toNat ≠ q.rkey then .next (s.nakQp qp false)
    else if len = 0 then .next (give [])
    else if inBells v len then
      if v % 8 = 0 ∧ len = 8 ∧ bellBase ≤ v ∧ off < 0x100 then .next (give (s.bellWord q.allot off)) else .next (s.nakQp qp false)
    else if barred v len || s.transferCheck q.allot [⟨v, len⟩] [] false != .ok || s.poisonedVa q.allot v len then .next (s.nakQp qp false)
    else .next (give (s.readVa q.allot v len))

/-- ATOMIC_REQUEST: a NAK for an invalid request, and the queue pair in the error state (spec/17 R490). -/
def execAtomicRequest (qp : Nat) (s : State) : Res :=
  match s.liveQp qp with
  | none => .next (s.noQp qp)
  | some q => .next ((s.portArrive q.port).nakQp qp true)

/-! ### Frames (spec/17 R488, R489) -/

/-- Whether the channel receives a frame on an AN: the current one, and an older one within its second (spec/15 R456). -/
def Macsec.receives (m : Macsec) (an now : Nat) : Bool :=
  m.keyed && (an == m.an || (match m.old.find an with
    | some t => decide (now < t)
    | none => false))

/-- The longest frame that a port accepts, in bytes (spec/17 R488). -/
def frameLimit : Nat := 4224

/-- What becomes of a frame (table Host drop reasons): the reason code of its drop, and the allotment concerned; none where the port
accepts it. A protected frame whose ICV holds is judged on the channel that the port identifier 0x0100 + n of its SCI names, and its AN (spec/15
R456, spec/17 R492). The table has no reason for a frame that is too long: a free one (log entry 113). -/
def State.dropCode (s : State) (reason : DropReason) : Option (Nat × Nat) :=
  match reason with
  | .qpNotConnected => some (0x01, 0)
  | .icvFailed => some (0x02, 0)
  | .unprotected => some (0x03, 0)
  | .notKeyed => some (0x04, 0)
  | .unsupported => some (0x05, 0)
  | .onChannel sci an =>
    let n := sci % 2 ^ 16 - 0x0100
    if sci % 2 ^ 16 < 0x0100 ∨ 256 ≤ n then some (0x04, 0)
    else if !(s.channel n).keyed then some (0x04, n)
    else if (s.channel n).receives an s.timer then none
    else some (0x02, n)
  | .overlong => some (s.drawNat.1, 0)

/-- UNACCEPTED_FRAME: dropped, counted, and recorded at most once per 1 ms; a failed ICV is counted too. -/
def execUnacceptedFrame (p : Nat) (reason : DropReason) (s : State) : Res :=
  if !s.portUp p then .next s
  else match s.dropCode reason with
    | none => .next s
    | some (code, a) =>
      let s0 := if reason = .overlong then s.drawNat.2 else s
      let s1 := s0.dropPort p code a
      .next (if reason = .icvFailed then s1.bumpReg (0x2001 + p) 0x0F 1 else s1)

/-- Whether a non-RoCE frame is for a port: it names the port's own address of its protocol, and is not too long (spec/17 R488). -/
def State.ownFrame (s : State) (p : Nat) (f : NonRoce) : Bool :=
  decide (f.bytes ≤ frameLimit) && f.target == s.portReg p (match f.kind with
    | .arp => 0x04
    | .icmpEcho => 0x04
    | .neighbourDiscovery => 0x05
    | .icmpEchoV6 => 0x05)

/-- NON_ROCE_FRAME: answered at the port's own addresses; any other is dropped. -/
def execNonRoceFrame (p : Nat) (kind : NonRoce) (s : State) : Res :=
  .next (if !s.portUp p then s else if s.ownFrame p kind then s.emit (.frameAnswer p kind) else s.dropPort p 0x05 0)

/-! ### Rate control and PFC (spec/17 R500) -/

/-- The CNP counts of a port: sent in [63:32], received in [31:0], each holding at its maximum. -/
def State.countCnp (s : State) (p sent received : Nat) : State :=
  let v := s.portReg p 0x10
  s.setReg (0x2001 + p) 0x10 (min (2 ^ 32 - 1) (v / 2 ^ 32 + sent) * 2 ^ 32 + min (2 ^ 32 - 1) (v % 2 ^ 32 + received))

/-- ECN_MARKED_PACKET: a CNP is sent, at most one per queue pair in each 50 µs. -/
def execEcnMarkedPacket (qp : Nat) (s0 : State) : Res :=
  match s0.liveQp qp with
  | none => .next (s0.noQp qp)
  | some q =>
    let s := s0.portArrive q.port
    let due : Bool := match q.cnpSent with
      | none => true
      | some t => decide (t + 50000 ≤ s.timer)
    if due then
      .next ((({ s with qps := s.qps.set qp { q with cnpSent := some s.timer } }).countCnp q.port 1 0).sendQp qp (.cnp qp) 0)
    else .next s

/-- The lowest transmit rate and the recovery step of a port, in Mb/s. -/
def State.minRate (s : State) (p : Nat) : Nat := s.portReg p 0x0C % 65536
def State.rateStep (s : State) (p : Nat) : Nat := s.portReg p 0x0C / 65536

/-- CNP_RECEIVED: the queue pair's rate falls by the rate cut, never below the minimum. -/
def execCnpReceived (qp : Nat) (s0 : State) : Res :=
  match s0.liveQp qp with
  | none => .next (s0.noQp qp)
  | some q =>
    let s := s0.portArrive q.port
    let r := max (s.minRate q.port) (q.rate * (100 - s.portReg q.port 0x0A) / 100)
    .next (({ s with qps := s.qps.set qp { q with rate := r, cnpSeen := some s.timer } }).countCnp q.port 0 1)

/-- RATE_RECOVERY_TIMER: a recovery period without a CNP raises the rate by one step, up to 200 Gb/s, and never leaves it below the
minimum in force. -/
def execRateRecoveryTimer (qp : Nat) (s : State) : Res :=
  match s.liveQp qp with
  | none => .next s
  | some q =>
    match q.cnpSeen with
    | none => .next s
    | some t =>
      if s.timer < t + s.portReg q.port 0x0B * 1000 then .next s
      else
        let r := min 200000 (max (s.minRate q.port) (q.rate + s.rateStep q.port))
        .next { s with qps := s.qps.set qp { q with rate := r, cnpSeen := if r = 200000 then none else some s.timer } }

/-- PFC_PAUSE_RECEIVED: with PFC enabled, a pause frame for the PFC priority pauses the port's RoCE traffic, or lets it go on. -/
def execPfcPauseReceived (p priority : Nat) (pause : Bool) (s : State) : Res :=
  if s.portUp p ∧ s.portReg p 0x06 ≠ 0 ∧ s.portReg p 0x07 = priority then .next { s with paused := s.paused.set p pause } else .next s

/-! ### Link state (spec/17 R502, R503) -/

/-- A port dark: its queue pairs are in the error state, its management queue pair is gone, and the Carter jobs on them end with MEMBER_LOST. -/
def State.darkPort (s : State) (p : Nat) : State :=
  let mine := (s.qps.filter (fun e => e.2.port == p)).map Prod.fst
  let s1 := (s.setReg (0x2001 + p) 0x02 0)
  let s2 := (mine.foldl (fun t q => t.failQp q) s1).loseJobs (fun q => mine.contains q)
  { s2 with paused := s2.paused.erase p, rxHeld := s2.rxHeld.erase p, mgmtQps := s2.mgmtQps.filter (· != p) }

/-- HOST_PORT_DARK. -/
def execHostPortDark (p : Nat) (s : State) : Res := if s.portUp p then .next (s.darkPort p) else .next s

/-- HOST_PORT_LINK_UP: an enabled port finishes link training, from phase 6 of the boot on; its management queue pair can be reached from
then on (spec/17 R490, spec/16 section LMP, log entry 114). -/
def execHostPortLinkUp (p : Nat) (s : State) : Res :=
  if p < 4 ∧ s.up ∧ 6 ≤ s.reg 0x1300 0x02 ∧ s.portReg p 0x01 ≠ 0 then .next { s.setReg (0x2001 + p) 0x02 2 with mgmtQps := insertNat s.mgmtQps p } else .next s

/-- HOST_PORT_APPLY's effect and status: a port disabled goes dark, and one enabled trains, from phase 6 of the boot on (spec/18 R523). -/
def State.applyPort (s : State) (sess p : Nat) : State × Status :=
  let idx := 0x2001 + p
  if !s.mayApply sess idx 0x0D || decide (4 ≤ p) then (s, .accessDenied)
  else
    let s1 := s.takeFields sess idx 0x0D ([1, 4, 5, 6, 7, 8, 9, 0x0A, 0x0B, 0x0C].map (fun i => (idx, i, s.applying sess idx i)))
    if s1.portReg p 0x01 = 0 then (if s1.portReg p 0x02 = 0 then s1 else s1.darkPort p, .ok)
    else if s1.portReg p 0x02 = 0 ∧ 6 ≤ s1.reg 0x1300 0x02 then (s1.setReg idx 0x02 1, .ok)
    else (s1, .ok)

/-- HOST_PORT_APPLY (spec/17 R503). -/
def execHostPortApply (sess p : Nat) (s : State) : Res :=
  s.rowOf sess (0x2001 + p) 0x0D (State.wrote (s.applyPort sess p) sess (0x2001 + p) 0x0D)

end Sys2Proof.Machine
end

