-- ==== Sys2Proof/Machine/Power.lean ====
section
/-! DEFINITION. Resets, bring-up, supplies, throttles and thermal limits (spec/18 R505 to R525, spec/04 R119 to R121, spec/16 R478). -/

namespace Sys2Proof.Machine

/-! ### Resets (spec/18 R509, R521, R522) -/

/-- The writes to the boot flash at a reset: those 100 ms old are there, and of each younger one either the previous value or the new one
(spec/18 R522, R525). -/
def State.settleFlash (s : State) : State :=
  s.flashWait.foldl (fun t e =>
    if e.2.2 ≤ t.timer then { t with flash := t.flash.set e.1 e.2.1 }
    else
      let d := t.drawBool
      if d.1 then { d.2 with flash := d.2.flash.set e.1 e.2.1 } else d.2) { s with flashWait := [] }

/-- The actions of a life-cycle transition that remain (spec/15 R431, R434): a stripped device has no operator keys and no identity,
and its seed is overwritten. -/
def State.endTransition (s : State) : State :=
  if s.transition ∧ s.lifeCycle = 3 then ({ s.dropOperatorKeys with seed := .overwritten, deviceCert := none } : State).setReg 0x1100 0x02 0
  else s

/-- Whether a boot-flash key is a written route. -/
def isRoute (k : Nat) : Bool := decide (0x2180 ≤ k / 256) && decide (k / 256 < 0x2184)

/-- What the objects 0x7F00.06 to .08 show of the staged image. -/
def State.showStaged (s : State) : State :=
  let g : Staged := s.staged.getD { component := 0, digest := 0, svn := 0 }
  ((s.setReg 0x7F00 0x06 g.component).setReg 0x7F00 0x07 g.digest).setReg 0x7F00 0x08 g.svn

/-- The device reset: only fuses, the boot flash with a staged image, and the device certificate keep their contents; the cause is
reported, and bring-up begins. -/
def State.deviceReset (s : State) (mode : PowerMode) (cause : Nat) : State :=
  let s1 := s.endTransition.settleFlash
  let fuses := [1, 2, 3].map (fun i => (objKey 0x1100 i, s1.reg 0x1100 i)) ++ [1, 2, 3, 4, 5].map (fun i => (objKey 0x1101 i, s1.reg 0x1101 i))
  let objs := fuses ++ s1.flash.filter (fun e => !isRoute e.1)
  let base : State :=
    { pending := s1.pending, freeCtr := s1.freeCtr, out := s1.out, nextSess := s1.nextSess, power := mode, flash := s1.flash
      components := s1.components, staged := s1.staged, seed := s1.seed, deviceCert := s1.deviceCert
      regs := objs.foldl (fun t e => t.set e.1 e.2) []
      routes := (s1.flash.filter (fun e => isRoute e.1)).foldl (fun t e => t.set ((e.1 / 256 - 0x2180) * 128 + e.1 % 256 - 1) e.2) [] }
  let b1 := if base.reg 0x2100 0x01 = 1 then base.setReg 0x2100 0x03 (base.reg 0x2100 0x02) else base
  let b2 := if b1.reg 0x2100 0x04 = 1 then
      b1.routes.foldl (fun t e => t.setReg (0x2180 + e.1 / 128) (e.1 % 128 + 1) e.2) b1 else b1
  b2.showStaged.setReg 0x1300 0x03 cause

/-- POWER_ON_RESET: RESET_N is released after the rails have come up. -/
def execPowerOnReset (s : State) : Res := .next (if s.power = .off then s.deviceReset .running 0x01 else s)

/-- PIN_RESET: ignored while the device is off or has tripped; it stays in reset while a reference clock is lost. -/
def execPinReset (s : State) : Res :=
  match s.power with
  | .running => .next (s.deviceReset .running 0x02)
  | .clockHeld => .next (s.deviceReset .clockHeld 0x02)
  | _ => .next s

/-- A commanded reset runs, once no live activation does (spec/18 R525). -/
def State.runReset (s : State) : State :=
  if s.resetPending ∧ s.activating.isNone then s.deviceReset .running 0x03 else s

/-- COMMANDED_RESET's effect on the write: role O asks for the reset, which waits for the answer. -/
def State.askReset (s : State) (sess : Nat) : State × Status :=
  if s.mayApply sess 0x1300 0x01 then ({ s with resetPending := true }, .ok) else (s, .accessDenied)

/-- COMMANDED_RESET: the write is answered, and the device then resets. -/
def execCommandedReset (sess : Nat) (s : State) : Res :=
  let r := s.askReset sess
  s.rowOf sess 0x1300 0x01 (.next (r.1.emit (.wrote sess 0x1300 0x01 r.2)).runReset)

/-- CLOCK_LOSS: a reset in which the device stays until both clocks are back (spec/18 R511). -/
def execClockLoss (s : State) : Res := .next (if s.power = .running then s.deviceReset .clockHeld 0x04 else s)

/-- REFERENCE_CLOCKS_RETURN: both clocks have been within specification for 100 µs, and bring-up begins. -/
def execReferenceClocksReturn (s : State) : Res := .next (if s.power = .clockHeld then { s with power := .running, releasedAt := s.timer } else s)

/-- VERGER_FAULT_RESET. -/
def execVergerFaultReset (s : State) : Res := .next (if s.power = .running then s.deviceReset .running 0x06 else s)

/-- POWER_LOSS: PWR_OK has fallen or a rail is out of tolerance: everything but the boot flash is lost; the one way out of a trip. -/
def execPowerLoss (_cause : PowerCause) (s : State) : Res := .next (s.deviceReset .off 0x01)

/-- THERMAL_TRIP: a junction has reached 110 °C: everything stops until a power cycle, whatever the firmware does (spec/18 R518). -/
def execThermalTrip (ward : Nat) (milliC : Int) (s : State) : Res :=
  .next (if (s.power = .running ∨ s.power = .clockHeld) ∧ ward < 4 ∧ 110000 ≤ milliC then s.deviceReset .tripped 0x01 else s)

/-- The steps of a tick in which Gangers stalled, and in which engines waited for Loft, counted for the allotments that hold the cores (spec/16
R468, .03 and .07): how many is timing, a free value (log entry 77). -/
def State.countWaits (s : State) : State :=
  s.cores.foldl (fun t e =>
    match e.2.resident with
    | none => t
    | some a => (t.perf a 3 (Config.waitSteps s.timer e.1 3)).perf a 7 (Config.waitSteps s.timer e.1 7)) s

/-- The tick of the 1 GHz device timer, which runs while the device does (spec/01, log entry 5): a life-cycle transition under way ends in the
device's reset (spec/15 R431, R434). -/
def State.tick (s : State) : State :=
  if s.power ≠ .running then s
  else
    let s1 := ({ s with timer := s.timer + 1 } : State).countWaits
    if s1.transition then s1.deviceReset .running 0x05 else s1

/-! ### Bring-up (spec/18 R523) -/

def State.phase (s : State) : Nat := s.reg 0x1300 0x02

/-- A ward's supply set over AVSBus (spec/18 R506). -/
def State.setSupply (s : State) (w mv : Nat) : State := (s.setReg (0x1201 + w) 0x02 mv).emit (.avs w mv)

/-- The firmware components that a bring-up phase verifies (spec/15 R437, table Firmware components). -/
def phaseComponents (phase : Nat) : List Nat :=
  match phase with
  | 1 => [2]
  | 2 => [3]
  | 3 => [4, 5]
  | _ => []

/-- The image of a component that a boot verifies: the staged one, which takes effect at this reset, else the one before (spec/16 R479). -/
def State.bootImage (s : State) (i : Nat) : Nat × Nat :=
  match s.staged with
  | some g => if g.component = i then (g.digest, g.svn) else s.component i
  | none => s.component i

/-- A verified image runs; a staged one is staged no longer. -/
def State.runImage (s : State) (i : Nat) : State :=
  match s.staged with
  | some g => if g.component = i then ({ s with staged := none, components := s.components.set i (g.digest, g.svn) } : State).showStaged else s
  | none => s

/-- Whether the boot runs the images of a phase: their signatures verify, and no SVN lies below its fused floor (spec/15 R437). -/
def State.bootRuns (s : State) (phase : Nat) (signed : Bool) : Bool :=
  signed && (phaseComponents phase).all (fun i => decide (s.reg 0x1101 i ≤ (s.bootImage i).2))

/-- What the end of a bring-up phase releases. -/
def State.release (s : State) (phase : Nat) : State :=
  match phase with
  | 1 => [0, 1, 2, 3].foldl (fun t w => t.setSupply w (t.reg (0x1201 + w) 0x01)) s
  | 5 => s.setReg 0x1300 0x04 ((s.timer - s.releasedAt) / 1000)
  | 6 =>
    let s1 := [0, 1, 2, 3].foldl (fun (t : State) p => if t.portReg p 0x01 = 0 then t else t.setReg (0x2001 + p) 0x02 1) s
    (List.range 64).foldl (fun t l => t.wakeLink l) s1
  | _ => s

/-- BOOT_PHASE_COMPLETE: a phase ends; a failed verification in phase 1, 2 or 3 leaves the device in recovery (spec/15 R438). verified: the
signatures of the phase's images verify. -/
def execBootPhaseComplete (verified : Bool) (s : State) : Res :=
  let p := s.phase + 1
  if s.power ≠ .running ∨ 7 < p then .next s
  else if p ≤ 3 ∧ !s.bootRuns p verified then .next (s.setReg 0x1300 0x02 0xEE)
  else .next ((((phaseComponents p).foldl (fun t i => t.runImage i) s).setReg 0x1300 0x02 p).release p)

/-! ### Throttles (spec/18 R514, R515, R119) -/

/-- A signed object. -/
def State.regInt (s : State) (idx sub : Nat) : Int := sext 32 (s.reg idx sub)

/-- The junction of a ward, the throttle onset and the hold threshold, in thousandths of a degree. -/
def State.junction (s : State) (w : Nat) : Int := s.regInt 0x1210 (w + 1)
def State.onset (s : State) : Int := s.regInt 0x1210 0x05
def State.holdAt (s : State) : Int := s.regInt 0x1210 0x06

/-- The started passes of a ward's cores changed. -/
def State.markPasses (s : State) (w : Nat) (f : PassRun → PassRun) : State :=
  { s with ctxs := s.ctxs.map (fun (e : Nat × Ctx) =>
      if e.1 % 128 / 32 = w then (e.1, { e.2 with passes := e.2.passes.map (fun (p : PassRun) => if p.status.isNone then f p else p) }) else e) }

/-- A ward's evaluation: cause gives the bits of its throttle cause. -/
def State.evalWard (s : State) (w cause : Nat) : State :=
  let mv := s.reg (0x1201 + w) 0x02
  if cause ≠ 0 then
    (if 600 < mv then (({ s with lowered := insertNat s.lowered w } : State).setSupply w (max 600 (mv - 25))).markPasses w (fun p => { p with throttled := true }) else s)
  else
    let due : Bool := match s.raisedAt.find w with
      | none => true
      | some t => decide (t + 1000000 ≤ s.timer)
    if due && decide (s.junction w + 2000 ≤ s.onset) && decide (mv < s.reg (0x1201 + w) 0x01) then
      let top := s.reg (0x1201 + w) 0x01
      ({ s with
        raisedAt := s.raisedAt.set w s.timer
        lowered := if top ≤ mv + 25 then s.lowered.filter (· != w) else s.lowered }).setSupply w (min top (mv + 25))
    else s

/-- The wards in the order of their junctions, the hottest first; of two alike the lower number first. -/
def State.byHeat (s : State) : List Nat :=
  [0, 1, 2, 3].foldl (fun l w => l.takeWhile (fun k => decide (s.junction w ≤ s.junction k)) ++
    w :: l.dropWhile (fun k => decide (s.junction w ≤ s.junction k))) []

/-- Measured currents and voltages: the spec gives no values (log entry 2). -/
def State.measure (s : State) : State :=
  let one := fun (t : State) (k : Nat × Nat) =>
    let d := t.drawNat
    d.2.setReg k.1 k.2 (d.1 % 2 ^ 16)
  ([(0x1201, 3), (0x1202, 3), (0x1203, 3), (0x1204, 3), (0x1205, 1), (0x1205, 2), (0x1205, 3), (0x1205, 4), (0x1205, 5), (0x1205, 6), (0x1205, 7)] :
    List (Nat × Nat)).foldl one s

/-- Whether 100 µs of the device timer have passed since the last evaluation. -/
def State.throttleDue (s : State) : Bool :=
  match s.throttleAt with
  | none => true
  | some t => decide (t + 100000 ≤ s.timer)

/-- THROTTLE_EVAL: each ward's core supply is lowered or raised by one step, the hottest ward first; vrHot lists the wards whose VR_HOT_N is low, watts is the package
power over the last 100 µs, and no evaluation comes before they have passed (spec/18 R515). -/
def execThrottleEval (vrHot : List Nat) (watts : Nat) (s : State) : Res :=
  if s.power ≠ .running ∨ !s.throttleDue then .next s
  else
    let cause := fun (w : Nat) =>
      b2n (decide (s.onset ≤ s.junction w)) + b2n (decide (s.reg 0x1200 0x01 < watts)) * 2 + b2n (vrHot.contains w) * 4
    let e := s.energy + watts
    let s1 := ((({ s with energy := e, throttleAt := some s.timer }).setReg 0x1200 0x02 (watts % 2 ^ 16)).setReg 0x1200 0x03 (e / 10000)).setReg 0x1200 0x04
      (cause 0 + cause 1 * 2 ^ 8 + cause 2 * 2 ^ 16 + cause 3 * 2 ^ 24)
    .next (s.byHeat.foldl (fun t w => t.evalWard w (cause w)) s1).measure

/-! ### Junctions and holds (spec/16 R478, spec/04 R120, R121, spec/18 R516) -/

/-- A bit of a ward mask set or cleared. -/
def setBit (m w : Nat) (b : Bool) : Nat := if bitAt m w = b then m else if b then m + 2 ^ w else m - 2 ^ w

/-- A hold begins: the ward's started passes rest, their records carry HELD, and its step rate reads 0 (spec/01 R26). -/
def State.beginHold (s : State) (w : Nat) : State :=
  ((({ s with heldSince := s.heldSince.set w s.timer }).markPasses w (fun p => { p with held := true })).bumpReg 0x1210 0x0B 1).setReg
    0x1220 (w + 1) 0

/-- A hold has lifted: watchdogs that expired under it take effect, and what waited for the ward goes on. -/
def State.endHold (s : State) (w : Nat) : State :=
  let s1 := ({ s with heldSince := s.heldSince.erase w }).bumpReg 0x1210 0x0C ((s.timer - Tbl.get s.timer s.heldSince w) / 1000)
  let due := (s1.ctxs.filter (fun e => e.1 % 128 / 32 == w && e.2.expired)).map Prod.fst
  let s2 := due.foldl (fun t k => t.watchdogCore (k / 128) (k % 128)) s1
  let s3 := s2.buckets.foldl (fun t e => t.mootRun (e.1 / 256) (e.1 % 256)) s2
  s3.inbound.foldl (fun t e => t.settleInbound (e.1 / 1024) (e.1 % 1024)) s3

/-- One ward's sample. -/
def State.sampleWard (s : State) (w : Nat) (t : Int) : State :=
  let hot := bitAt (s.reg 0x1210 0x08) w
  let held := bitAt (s.reg 0x1210 0x09) w
  let hot' := decide (s.onset ≤ t) || (hot && decide (s.onset - 2000 < t))
  let held' := decide (s.holdAt ≤ t) || (held && decide (s.holdAt - 5000 < t))
  let s1 := ((s.setReg 0x1210 (w + 1) (wrapNat 32 t)).setReg 0x1210 0x08 (setBit (s.reg 0x1210 0x08) w hot')).setReg 0x1210 0x09
    (setBit (s.reg 0x1210 0x09) w held')
  let s2 := if hot' && !hot then s1.bumpReg 0x1210 0x0A 1 else s1
  if held' && !held then s2.beginHold w else if held && !held' then s2.endHold w else s2

/-- THERMAL_SAMPLE: the junctions are published, and the wards throttled and held follow. -/
def execThermalSample (milliC : List Int) (s : State) : Res :=
  if s.power ≠ .running then .next s
  else .next (((milliC.take 4).zip (List.range 4)).foldl (fun t e => t.sampleWard e.2 e.1) s)

/-! ### Output pins (spec/18 R518, R524) -/

/-- The level of THERMTRIP_N: low from a thermal trip until power is removed. -/
def State.thermtripN (s : State) : Bool := s.power != .tripped

/-- The level of ALERT_N: low while any ward is throttled or held. -/
def State.alertN (s : State) : Bool := [0, 1, 2, 3].all (fun w => !s.wardThrottled w && !bitAt (s.reg 0x1210 0x08) w && !s.wardHeld w)

/-! ### Settings -/

/-- An apply of plain settings: its fields take effect. -/
def State.applyPlain (s : State) (sess idx sub : Nat) (fields : List Nat) : State × Status :=
  if !s.mayApply sess idx sub then (s, .accessDenied)
  else (s.takeFields sess idx sub (fields.map (fun i => (idx, i, s.applying sess idx i))), .ok)

/-- POWER_APPLY: the package power limit. -/
def State.applyPower (s : State) (sess : Nat) : State × Status := s.applyPlain sess 0x1200 0x05 [1]

/-- POWER_APPLY (spec/18, table Power objects). -/
def execPowerApply (sess : Nat) (s : State) : Res := s.rowOf sess 0x1200 0x05 (State.wrote (s.applyPower sess) sess 0x1200 0x05)

/-- SETPOINT_APPLY's effect: the setpoint goes onto the rail at once, but a ward that a throttle keeps below its old setpoint only falls
(spec/18 R514, R525). -/
def State.applySetpoint (s : State) (sess ward : Nat) : State × Status :=
  let idx := 0x1201 + ward
  let low := s.wardThrottled ward || decide (s.onset ≤ s.junction ward) || fld (s.reg 0x1200 0x04) (8 * ward + 7) (8 * ward) != 0
  let r := s.applyPlain sess idx 0x04 [1]
  if 4 ≤ ward then (s, .accessDenied)
  else if r.2 ≠ .ok then r
  else
    let v := r.1.reg idx 0x01
    if low && decide (r.1.reg idx 0x02 ≤ v) then
      ({ r.1 with lowered := if r.1.reg idx 0x02 < v then insertNat r.1.lowered ward else r.1.lowered }, r.2)
    else (({ r.1 with lowered := r.1.lowered.filter (· != ward) } : State).setSupply ward v, .ok)

/-- SETPOINT_APPLY (spec/18 R514). -/
def execSetpointApply (sess ward : Nat) (s : State) : Res :=
  s.rowOf sess (0x1201 + ward) 0x04 (State.wrote (s.applySetpoint sess ward) sess (0x1201 + ward) 0x04)

/-- THERMAL_APPLY's effect: the hold threshold is raised to 5 °C above the onset (table Thermal object). -/
def State.applyThermal (s : State) (sess : Nat) : State × Status :=
  let on := s.applying sess 0x1210 0x05
  let h := s.applying sess 0x1210 0x06
  let h' := max h (on + 5000)
  if !s.mayApply sess 0x1210 0x0D then (s, .accessDenied)
  else
    let s1 := if h = h' then s else s.noteClamp 0x1210 0x06 h h' (s.applyRole sess 0x1210 0x0D)
    (s1.takeFields sess 0x1210 0x0D [(0x1210, 5, on), (0x1210, 6, h')], if h = h' then .ok else .clamped)

/-- THERMAL_APPLY (spec/18, table Thermal object). -/
def execThermalApply (sess : Nat) (s : State) : Res :=
  s.rowOf sess 0x1210 0x0D (State.wrote (s.applyThermal sess) sess 0x1210 0x0D)

/-- MGMT_PORT_APPLY alone: its answer is sent, and the address settings take effect. -/
def State.applyMgmt (s : State) (sess : Nat) : State × Status := s.applyPlain sess 0x20F0 0x06 [2, 3, 4, 5]

/-- The apply in a message: its values wait for the message's answer. -/
def State.deferMgmt (s : State) (sess : Nat) : State × Status :=
  if !s.mayApply sess 0x20F0 0x06 then (s, .accessDenied)
  else
    let vals := [2, 3, 4, 5].map (fun i => ((0x20F0, i, s.applying sess 0x20F0 i) : Nat × Nat × Nat))
    ((s.dropPend sess 0x20F0 0x06).modSession sess (fun x => { x with mgmt := vals }), .ok)

/-- The values that waited take effect. -/
def State.takeMgmt (s : State) (sess : Nat) : State :=
  match s.session sess with
  | none => s
  | some x => (s.putFields x.mgmt).modSession sess (fun y => { y with mgmt := [] })

/-- MGMT_PORT_APPLY (spec/16, section Management port). -/
def execMgmtPortApply (sess : Nat) (s : State) : Res := s.rowOf sess 0x20F0 0x06 (State.wrote (s.applyMgmt sess) sess 0x20F0 0x06)

/-- STEP_RATE_MEASURE: each ward's steps per second, in thousands, are published, at most 4,000,000; a held ward's read 0 (spec/01 R26). -/
def execStepRateMeasure (kiloSteps : List Nat) (s : State) : Res :=
  if s.power ≠ .running then .next s
  else
    .next (((kiloSteps.take 4).zip (List.range 4)).foldl
      (fun t e => t.setReg 0x1220 (e.2 + 1) (if s.wardHeld e.2 then 0 else min 4000000 e.1)) s)

end Sys2Proof.Machine
end

