-- ==== Sys2Proof/Machine/Firmware.lean ====
section
/-! DEFINITION. Firmware updates (spec/16 R479, spec/15 R440, R451). -/

namespace Sys2Proof.Machine

/-- Whether a register access is heard. -/
def State.hears (s : State) : Bool := s.answers || s.inRecovery

/-- STAGE: the image in the buffer is verified, and replaces the one staged. -/
def State.fwStage (s : State) (comp len : Nat) : Option State :=
  let img := s.fwBuffer % 2 ^ (8 * len)
  match Config.imageSvn comp img len with
  | none => none
  | some svn =>
    if svn < s.reg 0x1101 comp then none
    else some ({ s with staged := some { component := comp, digest := sha256Nat (leBytes len img), svn := svn } }).showStaged

/-- What a live activation does to requests that wait for signing: reports and challenges are answered in transition (spec/15 R462). -/
def State.dropSigning (s : State) : State :=
  (s.signQ.filter (fun r => match r.kind with
    | .keyExchange _ => false
    | _ => true)).foldl (fun t r => t.reply r.sess (.inTransition 250)) { s with signQ := [] }

/-- ACTIVATE of the staged Verger runtime: it restarts live, and every session ends (spec/15 R443, R451). -/
def State.fwActivate (s : State) (comp : Nat) : Option State :=
  match s.staged with
  | none => none
  | some g =>
    if comp = 3 ∧ g.component = 3 ∧ s.up then
      some (({ s.dropNonce.dropSigning with activating := some s.timer } : State).endSessions (fun _ => true))
    else none

/-- COMMIT: the floor of a component, which is fused, rises to its running SVN and never falls (spec/15 R437, R440). -/
def State.fwCommit (s : State) (comp : Nat) : State :=
  if s.reg 0x1101 comp < (s.component comp).2 then s.setReg 0x1101 comp (s.component comp).2 else s

/-- An action of the firmware object; none: refused. -/
def State.fwDo (s : State) (action comp len : Nat) : Option State :=
  match action with
  | 1 => s.fwStage comp len
  | 2 => s.fwActivate comp
  | 3 => some (s.fwCommit comp)
  | 4 => some ({ s with staged := none }).showStaged
  | _ => some s

/-- An apply of the firmware object. -/
def State.applyFw (s : State) (sess : Nat) : State × Status :=
  let v := fun i => s.applying sess 0x7F00 i
  if !s.mayApply sess 0x7F00 0x04 then (s, .accessDenied)
  else match s.fwDo (v 2) (v 1) (v 3) with
    | none => ((s.noteRefusal 0x7F00 0x04 .accessDenied (s.applyRole sess 0x7F00 0x04)).setReg 0x7F00 0x05 (stCode .accessDenied), .accessDenied)
    | some t => ((t.takeFields sess 0x7F00 0x04 [(0x7F00, 1, v 1), (0x7F00, 2, v 2), (0x7F00, 3, v 3)]).setReg 0x7F00 0x05 (stCode .ok), .ok)

/-- An apply of the firmware object whose action is k. -/
def State.fwApplied (s : State) (sess k : Nat) : Res :=
  if s.hears && s.sessionIdle sess then s.onSession sess (if s.applying sess 0x7F00 0x02 = k then State.wrote (s.applyFw sess) sess 0x7F00 0x04 else .next s)
  else .next s

/-- FW_STAGE (spec/16 R479). -/
def execFwStage (sess : Nat) (s : State) : Res := s.fwApplied sess 1
/-- FW_ACTIVATE. -/
def execFwActivate (sess : Nat) (s : State) : Res := s.fwApplied sess 2
/-- FW_COMMIT. -/
def execFwCommit (sess : Nat) (s : State) : Res := s.fwApplied sess 3
/-- FW_DISCARD. -/
def execFwDiscard (sess : Nat) (s : State) : Res := s.fwApplied sess 4

/-- What waited for a live activation goes on: the core sets, the entries and fills of the Larder, and the lookahead (spec/15 R451). -/
def State.resume (s : State) : State :=
  let s1 := (List.range 128).foldl (fun t c => t.settleCore c) s
  (s1.larder.keys.foldl (fun t h => t.tryFree h) s1).wakeFills.lookAll

/-- LIVE_ACTIVATION_DONE: the new runtime runs and answers, and a commanded reset that waited runs, or what else waited goes on. -/
def execLiveActivationDone (s : State) : Res :=
  match s.activating, s.staged with
  | some _, some g =>
    let s1 := ({ s with activating := none, staged := none, components := s.components.set g.component (g.digest, g.svn) } : State).showStaged
    .next (if s1.resetPending then s1.runReset else s1.resume)
  | _, _ => .next s

end Sys2Proof.Machine
end

