-- ==== Sys2Proof/Machine/Lmp.lean ====
section
/-! DEFINITION. Register access messages and LMP datagrams (spec/16 R463 to R474, R480 to R487). -/

namespace Sys2Proof.Machine

/-! ### Reads (spec/16 R468, R471, R474, R486, spec/15 R458 to R460, spec/19 R538) -/

/-- Whether a session acts as the tenant of an allotment. -/
def State.asTenant (s : State) (x : Session) (n : Nat) : Bool := s.holds x .t && x.bound == some n

/-- An event record without INDEX, SUB, WRITTEN and APPLIED. -/
def hideEvent (v : Nat) : Nat := fld v 255 192 * 2 ^ 192 + fld v 39 0

/-- An event record as a session sees it. -/
def State.eventView (s : State) (x : Session) (seq : Nat) : Nat :=
  let v := Tbl.get 0 s.log seq
  let n := fld v 31 24
  let hidden := bitAt v 256 || s.reg (0x3100 + n) 0x0D != 0 || (fld v 39 32 == 3 && s.isGreen n && s.greenClosed)
  if s.asTenant x n then fld v 255 0
  else if !(x.oper || x.maker) then 0
  else if hidden then hideEvent v
  else fld v 255 0

/-- A performance counter as a session sees it. -/
def State.perfView (s : State) (x : Session) (n sub : Nat) : Nat :=
  let v := s.reg (0x6000 + n) sub
  if s.asTenant x n then v else (v + 2 ^ 64 - Tbl.get 0 s.perfHidden (n * 256 + sub)) % 2 ^ 64

/-- The value that a session reads of an object that it may read. -/
def State.valueFor (s : State) (x : Session) (idx sub : Nat) : Nat :=
  if sub = 0 then (objHighest idx).getD 0
  else if idx = 0x7001 then s.eventView x (x.ownVal 0x7000 3 + sub - 1)
  else if 0x6000 ≤ idx ∧ idx < 0x6100 then s.perfView x (idx - 0x6000) sub
  else if perSession idx sub then x.ownVal idx sub
  else s.reg idx sub

/-- The bytes of a value of a type on the wire; a STRING has no terminator. -/
def ObjTy.wire (t : ObjTy) (v : Nat) : List Byte :=
  match t with
  | .text => ((leBytes 64 v).reverse.dropWhile (fun b => b == 0)).reverse
  | t => leBytes t.size v

/-- Whether a type's values are read and written by segments. -/
def ObjTy.cut : ObjTy → Bool
  | .octets _ => true
  | .text => true
  | _ => false

/-! ### Operations (spec/16 R464, R482) -/

/-- Whether recovery refuses an object (spec/16 R487). -/
def State.recoveryBars (s : State) (idx : Nat) : Bool := s.inRecovery && idx != 0x7F00 && idx != 0x7F01

/-- A READ: its status and value. -/
def State.performRead (s : State) (x : Session) (o : LmpOp) : Status × List Byte :=
  match objDef o.index o.sub with
  | none => (.accessDenied, [])
  | some d =>
    if s.recoveryBars o.index || (s.mayAccess x o.index o.sub false).isNone then (.accessDenied, [])
    else if o.type ≠ d.ty.code ∨ (!d.ty.cut ∧ (o.offset ≠ 0 ∨ o.length ≠ d.ty.size)) then (.shapeMismatch, [])
    else
      let bs := d.ty.wire (s.valueFor x o.index o.sub)
      (.ok, if d.ty.cut then (bs.drop o.offset).take o.length else bs)

/-- The maker token of a 29,856-byte value (spec/15, table Maker token); none where its reserved bytes are not zero. -/
def tokenOf (v : Nat) : Option MakerToken :=
  if fld v 511 392 = 0 then
    some { identity := v % 2 ^ 256, nonce := fld v 383 256, target := fld v 391 384, signature := v / 2 ^ 512 }
  else none

/-- The effect of an apply that completes at once. -/
def applied (r : State × Status) : Option (State × Option Status) := some (r.1, some r.2)

/-- The apply subindices of an allotment. -/
def State.applyDefinition (s : State) (sess n sub : Nat) : Option (State × Option Status) :=
  if sub = 0x1E then applied (s.applyReset sess n) else if sub = 0x1F then applied (s.applyAllotment sess n) else none

/-- The apply subindices of the objects that are alone of their kind. -/
def State.applySingle (s : State) (sess idx sub : Nat) : Option (State × Option Status) :=
  match idx, sub with
  | 0x1102, 1 => applied (s.stripArm sess)
  | 0x1200, 5 => applied (s.applyPower sess)
  | 0x1210, 0x0D => applied (s.applyThermal sess)
  | 0x1300, 1 => applied (s.askReset sess)
  | 0x20F0, 6 => applied (s.deferMgmt sess)
  | 0x2100, 9 => applied (s.applyFabric sess)
  | 0x2184, 1 => applied (s.applyRoutes sess)
  | 0x3000, 5 => applied (s.applyGreen sess)
  | 0x3201, 0x0A => some (s.wellApply sess 0)
  | 0x3202, 0x0A => some (s.wellApply sess 1)
  | 0x3301, 5 => some (s.larderApply sess)
  | 0x7F00, 4 => applied (s.applyFw sess)
  | _, _ => none

/-- The apply subindices by object: the effect of writing 1 to one; none for the others. A status is absent where the action completes
later. -/
def State.applyAt (s : State) (sess idx sub : Nat) : Option (State × Option Status) :=
  if 0x3100 ≤ idx ∧ idx < 0x3200 then s.applyDefinition sess (idx - 0x3100) sub
  else if 0x5000 ≤ idx ∧ idx < 0x5100 then (if sub = 9 then applied (s.snapshot sess (idx - 0x5000)) else none)
  else if 0x4000 ≤ idx ∧ idx < 0x400C then (if sub = 0x0E then applied (s.applyGroup sess (idx - 0x4000)) else none)
  else if 0x2110 ≤ idx ∧ idx < 0x2150 then (if sub = 0x0A then applied (s.retrain sess (idx - 0x2110)) else none)
  else if 0x2001 ≤ idx ∧ idx < 0x2005 then (if sub = 0x0D then applied (s.applyPort sess (idx - 0x2001)) else none)
  else if 0x1201 ≤ idx ∧ idx < 0x1205 then (if sub = 4 then applied (s.applySetpoint sess (idx - 0x1201)) else none)
  else s.applySingle sess idx sub

/-- A whole value written: the state, the status unless the action waits, and the value to answer. -/
def State.writeValue (s : State) (sess idx sub v : Nat) : State × Option Status × Nat :=
  let done' := fun (r : State × Status × Nat) => (r.1, some r.2.1, r.2.2)
  match s.applyAt sess idx sub with
  | some r => if v = 1 then (r.1, r.2, 1) else (s, some .ok, v)
  | none =>
    if 0x2110 ≤ idx ∧ idx < 0x2150 ∧ sub = 1 then done' (s.writeEnable sess (idx - 0x2110) v)
    else match idx, sub with
      | 0x1110, _ => done' (s.writeOperatorKey sess sub v)
      | 0x1102, 3 =>
        (match tokenOf v with
          | some t => let r := s.stripToken sess t; (r.1, some r.2, v)
          | none => (s.dropNonce, some .accessDenied, v))
      | 0x3302, _ => done' (s.writeQuota sess 0x3302 sub v)
      | 0x3303, _ => done' (s.writeQuota sess 0x3303 sub v)
      | 0x7F01, 1 => ({ s with fwBuffer := v }, some .ok, v)
      | _, _ => done' (s.writeObject sess idx sub v)

/-- Whether a session may write an object; the first operator key may come from any session on the management port (spec/15 R442). -/
def State.mayWrite (s : State) (x : Session) (idx sub : Nat) : Bool :=
  (s.mayAccess x idx sub true).isSome ||
    (idx == 0x1110 && sub == 1 && x.path == .management && [1, 2, 3, 4].all (fun i => s.reg 0x1110 i == 0))

/-- The segment that a session writes next of an object: the offset expected, and the bytes so far. -/
def Session.expected (x : Session) (idx sub : Nat) : Nat × List Byte :=
  match x.segment with
  | some (k, n, bs) => if k = objKey idx sub then (n, bs) else (0, [])
  | none => (0, [])

/-- The result of an operation: the state, and its status and value unless it waits. -/
abbrev OpRes := State × Option (Status × List Byte)

/-- A whole value written by an operation whose part of it is answered. -/
def State.writeWhole (s : State) (sess : Nat) (d : ObjDef) (o : LmpOp) (v : Nat) : OpRes :=
  let r := s.writeValue sess o.index o.sub v
  match r.2.1 with
  | none => (r.1, none)
  | some st =>
    let bs := d.ty.wire r.2.2
    (r.1, some (st, if stRank st = 0 then o.value else if d.ty.cut then (bs.drop o.offset).take o.length else bs))

/-- The bytes that a value of one operation holds at most: an access message of 65,536 bytes less its header and the operation's (spec/16 R480,
R482). -/
def opLimit : Nat := maxSpdmMessage - 24

/-- A segment written of a value that is longer than one operation (spec/16 R486). -/
def State.writeSegment (s : State) (sess : Nat) (x : Session) (d : ObjDef) (o : LmpOp) : OpRes :=
  let e := x.expected o.index o.sub
  let clear := s.setSession sess { x with segment := none }
  if o.offset ≠ e.1 ∨ o.length = 0 ∨ d.ty.size < o.offset + o.length then (clear, some (.shapeMismatch, o.value))
  else if o.offset + o.length = d.ty.size then clear.writeWhole sess d o (ofLe (e.2 ++ o.value))
  else (s.setSession sess { x with segment := some (objKey o.index o.sub, o.offset + o.length, e.2 ++ o.value) }, some (.ok, o.value))

/-- A WRITE. -/
def State.performWrite (s : State) (sess : Nat) (x : Session) (o : LmpOp) : OpRes :=
  match objDef o.index o.sub with
  | none => (s, some (.accessDenied, o.value))
  | some d =>
    if s.recoveryBars o.index || !s.mayWrite x o.index o.sub then (s, some (.accessDenied, o.value))
    else if s.sealedField o.index o.sub then (s, some (.accessDenied, o.value))
    else if o.type ≠ d.ty.code then (s, some (.shapeMismatch, o.value))
    else if opLimit < d.ty.size then s.writeSegment sess x d o
    else if o.offset ≠ 0 ∨ o.length ≠ d.ty.size then (s, some (.shapeMismatch, o.value))
    else s.writeWhole sess d o (ofLe o.value)

/-- An operation of a session's message. -/
def State.performOp (s : State) (sess : Nat) (o : LmpOp) : OpRes :=
  match s.session sess with
  | none => (s, some (.accessDenied, []))
  | some x => if o.op = 1 then (s, some (s.performRead x o)) else s.performWrite sess x o

/-! ### Messages (spec/16 R482 to R485) -/

/-- An operation's 16 bytes with a status and the length of a value, the value, and zeros to a multiple of 8. -/
def opBytes (o : LmpOp) (st : Status) (v : List Byte) : List Byte :=
  leBytes 16 (o.offset % 2 ^ 32 * 2 ^ 96 + v.length % 2 ^ 16 * 2 ^ 80 + stCode st * 2 ^ 72 + o.type % 256 * 2 ^ 64 + o.sub % 256 * 2 ^ 56 +
    o.index % 2 ^ 16 * 2 ^ 40 + o.op % 256 * 2 ^ 32) ++ v ++ List.replicate (ceilDiv v.length 8 * 8 - v.length) 0

/-- An answer: the message header, and every operation. -/
def answerBytes (txid : Nat) (ops : List (LmpOp × Status × List Byte)) : List Byte :=
  leBytes 8 (txid % 2 ^ 32 + ops.length % 256 * 2 ^ 32) ++ ops.flatMap (fun e => opBytes e.1 e.2.1 e.2.2)

/-- An operation as it stands in a message, and whether no reserved code or bit of it is set. -/
def opOf (w : Nat) (value : List Byte) : LmpOp × Bool :=
  ({ op := fld w 39 32, index := fld w 55 40, sub := fld w 63 56, type := fld w 71 64, length := fld w 95 80, offset := fld w 127 96
     value := value },
    (fld w 39 32 == 1 || fld w 39 32 == 2) && fld w 31 0 == 0 && decide (1 ≤ fld w 71 64) && decide (fld w 71 64 ≤ 9))

/-- The operations of a message, and whether all are well formed and fill it; count is their number. -/
def parseOps : Nat → List Byte → List LmpOp × Bool
  | 0, bs => ([], bs.isEmpty)
  | count + 1, bs =>
    if bs.length < 16 then ([], false)
    else
      let w := ofLe (bs.take 16)
      let len := if fld w 39 32 = 1 then 0 else fld w 95 80
      let o := opOf w ((bs.drop 16).take len)
      if bs.length < 16 + ceilDiv len 8 * 8 then ([o.1], false)
      else
        let r := parseOps count (bs.drop (16 + ceilDiv len 8 * 8))
        (o.1 :: r.1, o.2 && r.2)

/-- An answer sent on a session with its next sequence number, counted from 0 (spec/16 R481), and held under its TXID with the last 16. -/
def State.sendAnswer (s : State) (sess txid : Nat) (bytes : List Byte) : State :=
  (s.modSession sess (fun x =>
    { x with
      sent := x.sent + chunksOf x.path bytes.length
      answers := ((txid, bytes) :: x.answers.filter (fun e => e.1 != txid)).take 16 })).emit (.answer sess (((s.session sess).map Session.sent).getD 0) bytes)

/-- Whether an answered message has asked for the device's reset. -/
def LmpMsg.resets (m : LmpMsg) : Bool :=
  m.ready.any (fun e => e.1.op == 2 && e.1.index == 0x1300 && e.1.sub == 1 && e.2.1 == .ok && ofLe e.1.value == 1)

/-- The first operation of a session's first message is done. -/
def Session.advance (x : Session) (st : Status) (v : List Byte) : Session :=
  { x with
    waiting := false, result := none
    msgs := match x.msgs with
      | m :: rest => (match m.todo with
        | o :: os => { m with todo := os, ready := m.ready ++ [(o, st, v)] } :: rest
        | [] => m :: rest)
      | [] => [] }

/-- A session's messages as far as they go: fuel bounds their operations. One whose operations are all done is answered; a message that
asks for a reset then has it, and the management port's settings that it applied take effect. -/
def State.runSession (s : State) (sess : Nat) : Nat → State
  | 0 => s
  | fuel + 1 =>
    match s.session sess with
    | none => s
    | some x =>
      match x.msgs with
      | [] => s
      | m :: rest =>
        if x.alone then s
        else match m.todo with
          | [] =>
            let s1 := (s.setSession sess { x with msgs := rest }).sendAnswer sess m.txid (answerBytes m.txid m.ready)
            (if m.resets then s1.runReset else s1.takeMgmt sess).runSession sess fuel
          | o :: _ =>
            if x.waiting then
              match x.result with
              | none => s
              | some st => (s.setSession sess (x.advance st o.value)).runSession sess fuel
            else
              let r := s.performOp sess o
              match r.2 with
              | none => r.1.modSession sess (fun y => { y with waiting := true })
              | some e => (r.1.modSession sess (fun y => y.advance e.1 e.2)).runSession sess fuel

/-- The operations and messages of a session. -/
def Session.load (x : Session) : Nat := (x.msgs.map (fun m => m.todo.length + 1)).foldl (· + ·) 0

/-- Whether a session's first message can go on. -/
def Session.ready (x : Session) : Bool := !x.msgs.isEmpty && !x.alone && (!x.waiting || x.result.isSome)

/-- Every session whose messages can go on, the lowest number first; fuel bounds the turns. -/
def State.runTurns (s : State) : Nat → State
  | 0 => s
  | fuel + 1 =>
    match s.sessions.find? (fun e => e.2.ready) with
    | none => s
    | some e => (s.runSession e.1 (e.2.load + 1)).runTurns fuel

/-- Every session that can go on does so, in the order of their numbers (log entry 75). -/
def State.runSessions (s : State) : State :=
  if s.hears then s.runTurns ((s.sessions.map (fun e => e.2.load)).foldl (· + ·) 0 + 1) else s

/-- What follows a command that can finish actions or free room in the Larder: waiting messages go on, and the lookahead takes its pins. -/
def State.settle (s : State) : State := s.runSessions.lookAll.runSessions

/-- A register access message on a session; one larger than the device takes has no effect (spec/16 R480, log entry 115). -/
def State.takeMessage (s : State) (sess : Nat) (x : Session) (bytes : List Byte) : State :=
  let h := ofLe (bytes.take 8)
  let txid := h % 2 ^ 32
  let count := fld h 39 32
  let r := parseOps count (bytes.drop 8)
  if bytes.length < 8 ∨ maxSpdmMessage < bytes.length then s
  else match x.answers.find? (fun e => e.1 == txid) with
    | some e => (s.modSession sess (fun y => { y with sent := y.sent + chunksOf y.path e.2.length })).emit (.answer sess x.sent e.2)
    | none =>
      if x.msgs.any (fun m => m.txid == txid) || decide (16 ≤ x.msgs.length) then s
      else if r.2 && decide (1 ≤ count) && decide (count ≤ 64) && fld h 63 40 == 0 then
        (s.setSession sess { x with msgs := x.msgs ++ [{ txid := txid, todo := r.1, ready := [] }] }).settle
      else s.sendAnswer sess txid (answerBytes txid (r.1.map (fun o => (o, Status.shapeMismatch, o.value))))

/-- LMP_ACCESS_MESSAGE: a message on a session; without the session, an SPDM error (spec/15 R443). -/
def execLmpAccessMessage (sess : Nat) (bytes : List Byte) (s : State) : Res :=
  if !s.hears then .next s
  else match s.session sess with
    | none => .next (s.emit (.spdm (some sess) .invalidSession))
    | some x => .next (s.takeMessage sess x bytes)

/-! ### Datagrams (spec/16 R480, R481) -/

/-- The bytes that a datagram holds at most on a path. -/
def pathLimit : LmpPath → Nat
  | .management => 1472
  | .inBand _ => 4096

/-- Whether a sequence number is accepted: not yet accepted, and no more than 64 below the highest accepted. -/
def Session.acceptsSeq (x : Session) (n : Nat) : Bool :=
  let top := x.accepted.foldl max 0
  !x.accepted.contains n && (x.accepted.isEmpty || decide (top ≤ n + 64))

/-- A sequence number accepted; those too low to be accepted again are forgotten. -/
def Session.acceptSeq (x : Session) (n : Nat) : Session :=
  let l := n :: x.accepted
  { x with accepted := l.filter (fun k => decide (l.foldl max 0 ≤ k + 64)) }

/-- LMP_DATAGRAM: its header is checked; a secured message whose sequence number is accepted is taken as a register access message; an SPDM
message outside a session has rows of its own. -/
def execLmpDatagram (path : LmpPath) (sess : Nat) (bytes : List Byte) (s : State) : Res :=
  let w := ofLe (bytes.take 16)
  if !s.heard path || !s.hears then .next s
  else if bytes.length < 16 ∨ pathLimit path < bytes.length ∨ fld w 15 0 ≠ 0x4D4C ∨ fld w 23 16 ≠ 1 ∨ fld w 63 32 ≠ 0 ∨
      (fld w 31 24 ≠ 1 ∧ fld w 31 24 ≠ 2) then .next (s.logDrop 0xFFFF 0)
  else if fld w 31 24 = 1 then .next s
  else match s.session sess with
    | none => .next (s.emit (.spdm (some sess) .invalidSession))
    | some x =>
      if x.acceptsSeq (fld w 127 64) then
        let y := x.acceptSeq (fld w 127 64)
        .next ((s.setSession sess y).takeMessage sess y (bytes.drop 16))
      else .next s

/-! ### Single writes (spec/16 R469) -/

/-- Whether an object has no command of its own for a write. -/
def plainObject (idx sub : Nat) : Bool :=
  !isAction idx sub && idx != 0x1110 && !(idx == 0x1102 && sub == 3) && idx != 0x3302 && idx != 0x3303 &&
    !(decide (0x2110 ≤ idx) && decide (idx < 0x2150) && sub == 1)

/-- REGISTER_WRITE: a value written to an object without a command of its own: clamped, held pending or in force. -/
def execRegisterWrite (sess : Nat) (index : W16) (sub : Byte) (value : Nat) (s : State) : Res :=
  if s.hears && s.sessionIdle sess && plainObject index.toNat sub.toNat then
    s.onSession sess <|
    if s.recoveryBars index.toNat then .next (s.emit (.wrote sess index.toNat sub.toNat .accessDenied))
    else if index.toNat = 0x7F01 ∧ sub.toNat = 1 then
      (match s.session sess with
        | none => State.wrote (s, .accessDenied) sess 0x7F01 1
        | some x =>
          if (s.mayAccess x 0x7F01 1 true).isNone then State.wrote (s, .accessDenied) sess 0x7F01 1
          else if 134217728 ≤ Nat.log2 value then State.wrote (s, .shapeMismatch) sess 0x7F01 1
          else State.wrote ({ s with fwBuffer := value }, .ok) sess 0x7F01 1)
    else
      let r := s.writeObject sess index.toNat sub.toNat value
      State.wrote (r.1, r.2.1) sess index.toNat sub.toNat
  else .next s

end Sys2Proof.Machine
end

