-- ==== Sys2Proof/Machine/Actions.lean ====
section
/-! DEFINITION. Commands whose effect can finish actions that sessions wait for: those of the Larder, the Well, the quotas, the Green streams
and an allotment's reset (spec/10 R299, R303, R317, spec/11 R325 to R346, spec/16 R475, R476, R484, spec/17 R493, R496). -/

namespace Sys2Proof.Machine

/-! ### The Larder's actions (spec/11, table Larder actions) -/

/-- What an action asked for outside a message gives: its result, or a session that waits for it. -/
def State.askedAlone (r : State × Option Status) (sess idx sub : Nat) : Res :=
  match r.2 with
  | some st => .next (r.1.emit (.wrote sess idx sub st)).settle
  | none => .next (r.1.modSession sess (fun x => { x with alone := true })).settle

/-- An apply of the Larder's command object by a session whose own action is k, and that waits for no other action. -/
def State.larderRow (s : State) (sess k : Nat) : Res :=
  s.rowOf sess 0x3301 0x05 (
    match s.session sess with
    | none => .next s
    | some x =>
      if x.ownVal 0x3301 3 == k then State.askedAlone (s.larderApply sess) sess 0x3301 0x05 else .next s)

/-- LARDER_PREFETCH. -/
def execLarderPrefetch (sess : Nat) (s : State) : Res := s.larderRow sess 1
/-- LARDER_PIN. -/
def execLarderPin (sess : Nat) (s : State) : Res := s.larderRow sess 2
/-- LARDER_UNPIN. -/
def execLarderUnpin (sess : Nat) (s : State) : Res := s.larderRow sess 3
/-- LARDER_EVICT. -/
def execLarderEvict (sess : Nat) (s : State) : Res := s.larderRow sess 4
/-- LARDER_ACCEPT. -/
def execLarderAccept (sess : Nat) (s : State) : Res := s.larderRow sess 5
/-- LARDER_WITHDRAW. -/
def execLarderWithdraw (sess : Nat) (s : State) : Res := s.larderRow sess 6
/-- LARDER_INSTALL. -/
def execLarderInstall (sess : Nat) (s : State) : Res := s.larderRow sess 7
/-- LARDER_QUERY. -/
def execLarderQuery (sess : Nat) (s : State) : Res := s.larderRow sess 8

/-- CARTER_BLOCK_DONE: the next block of a job has moved and been checked, remote being what the remote memory of a fetch delivers: the job
goes on, or ends at its last block, at its first refused one, or with the status at which it is to stop (spec/10 R314). The Tally
instance goes on to the next block in turn; a job none of whose blocks is in flight waits for one. A job of the Larder does the next piece of
its work instead (spec/11 R329, R330, R344); fills wait while a live activation runs (spec/15 R451). -/
def execCarterBlockDone (job : Nat) (remote : List Byte) (s0 : State) : Res :=
  let s := s0.fillCarters
  match s.jobs.find job with
  | none => .next s
  | some j =>
    match j.larder, j.stop with
    | some w, _ =>
      if s.jobRests j || (s.activating.isSome && w.2 != .recheck) then .next s
      else .next (s.workDone job j w.1 w.2 remote).fillCarters.settle
    | none, some st => .next (s.endJob job j j.blocks st).fillCarters
    | none, none =>
      if s.jobRests j then .next s
      else
        let r := (s.translateBlock j).moveBlock j remote
        if r.2 = .ok then
          let s1 := (r.1.petWatchdog j.allot).perf j.allot 6 (j.rec'.blockLen j.blocks)
          if j.rec'.blocks ≤ j.blocks + 1 then .next (s1.endJob job j (j.blocks + 1) .ok).fillCarters
          else .next ({ s1 with jobs := s1.jobs.set job { j with blocks := j.blocks + 1, flight := j.flight - 1 } }).fillCarters
        else .next (r.1.endJob job j j.blocks r.2).fillCarters

/-- FILL_COMPLETE: the fill of an entry has ended: what no CARTER_BLOCK_DONE has brought of it comes now, and the entry becomes READY or
CARRIED, or is freed. It waits while a live activation runs (spec/11 R330, spec/15 R451). record, image, manifest: what the remote memory
holds (log entry 101). -/
def execFillComplete (h : Nat) (record image manifest : List Byte) (s : State) : Res :=
  if s.activating.isNone then .next ((s.finishWork h record image manifest workPieces).endFill h).settle else .next s

/-- CARRY_RECHECK_DONE: the recomputation of a carried entry has ended, with the blocks that no CARTER_BLOCK_DONE has done; what it changes in
page tables waits while a live activation runs (spec/15 R451). -/
def execCarryRecheckDone (h : Nat) (s : State) : Res :=
  if s.activating.isNone then .next ((s.finishRecheck h).recheck h).settle else .next s

/-- A quota written. -/
def State.quotaRow (s : State) (sess idx n v : Nat) : Res :=
  s.rowOf sess idx n (
    if n < 256 then
      let r := s.writeQuota sess idx n v
      .next (r.1.emit (.wrote sess idx n r.2.1)).settle
    else .next s)

/-- ENTRY_QUOTA_WRITE. -/
def execEntryQuotaWrite (sess n : Nat) (v : W16) (s : State) : Res := s.quotaRow sess 0x3302 n v.toNat
/-- PAGE_QUOTA_WRITE. -/
def execPageQuotaWrite (sess n : Nat) (v : W32) (s : State) : Res := s.quotaRow sess 0x3303 n v.toNat

/-! ### The Well's actions (spec/16, table Well actions) -/

/-- An apply of a Well slot by a session whose pending action is k, and that waits for no other action. -/
def State.wellRow (s : State) (sess slot k : Nat) : Res :=
  s.rowOf sess (0x3201 + slot) 0x0A (
    match s.session sess with
    | none => .next s
    | some _ =>
      if decide (slot < 2) && s.applying sess (0x3201 + slot) 9 == k then
        State.askedAlone (s.wellApply sess slot) sess (0x3201 + slot) 0x0A
      else .next s)

/-- WELL_FILL. -/
def execWellFill (sess slot : Nat) (s : State) : Res := s.wellRow sess slot 1
/-- WELL_SEAL. -/
def execWellSeal (sess slot : Nat) (s : State) : Res := s.wellRow sess slot 2
/-- WELL_SWITCH. -/
def execWellSwitch (sess slot : Nat) (s : State) : Res := s.wellRow sess slot 3
/-- WELL_CLEAR. -/
def execWellClear (sess slot : Nat) (s : State) : Res := s.wellRow sess slot 4
/-- WELL_GEOMETRY_APPLY. -/
def execWellGeometryApply (sess slot : Nat) (s : State) : Res := s.wellRow sess slot 0

/-- WELL_SEAL_DIGEST_RECORDED. -/
def execWellSealDigestRecorded (slot : Nat) (s : State) : Res := .next (s.wellSealed slot).settle
/-- WELL_CLEAR_ZEROING_ENDS. -/
def execWellClearZeroingEnds (slot : Nat) (s : State) : Res := .next (s.wellCleared slot).settle

/-! ### An allotment's reset (spec/10 R317, spec/15 R452) -/

/-- ALLOTMENT_RESET. -/
def execAllotmentReset (sess n : Nat) (s : State) : Res :=
  let r := s.applyReset sess n
  s.rowOf sess (0x3100 + n) 0x1E (.next (r.1.emit (.wrote sess (0x3100 + n) 0x1E r.2)).settle)

/-! ### The Crier's streams and the Green (spec/10 R299, R303, spec/11 R333, R337, spec/17 R496) -/

/-- SUBMIT: the request record at the head of an allotment's Green stream is admitted, refused, or waits. -/
def execSubmit (a : Nat) (s : State) : Res := .next (s.submit a).settle

/-- CRIER_TAKE_RECORD: the next record of a stream, and the lookahead over the Green streams. -/
def execCrierTakeRecord (a stream : Nat) (s : State) : Res := .next (s.crierTake a stream).settle

/-- DOORBELL_WRITE: the 8-byte word d written to a stream's doorbell, and the lookahead over the Green streams. -/
def execDoorbellWrite (qp stream : Nat) (d : W64) (s : State) : Res := .next (s.bell qp stream d.toNat).settle

/-- RETIRE_POLL: the Crier reads the tail word and processes the new entries. -/
def execRetirePoll (s : State) : Res :=
  if s.greenAllot = 0 ∨ (s.pageOf s.greenAllot retireRing).isNone then .next s else .next (s.drainRetires 8192).settle

/-- WITHDRAWAL_GRACE_EXPIRY: slots that still hold a withdrawn entry after the grace are retired by the Crier, and the entry leaves the Green's
space at once (spec/11 R337). -/
def execWithdrawalGraceExpiry (h : Nat) (s : State) : Res :=
  match s.larder.find h with
  | none => .next s
  | some e =>
    match e.withdrawnAt with
    | none => .next s
    | some t =>
      if s.activating.isSome ∨ e.state ≠ 5 ∨ s.timer < t + s.reg 0x3300 0x04 * 1000 then .next s
      else
        let g := s.greenAllot
        let s1 := (s.allotCores g).foldl (fun u c => u.faultRange g c (larderVa h) e.bytes) s
        let s2 := s1.modEntry h (fun x => { x with greenMapped := false })
        let slots := s2.greenSlots.filter (fun p => p.2.handle == some h && !p.2.dead)
        .next (slots.foldl (fun u p => u.killSlot p.1 p.2 .adaptationWithdrawn) s2).settle

/-- RDMA_WRITE_INBOUND: one message, checked as a destination and written whole, or refused; in the doorbell window it rings a stream or
reports consumed completions. -/
def execRdmaWriteInbound (qp : Nat) (rkey : W32) (va : W64) (data : List Byte) (s0 : State) : Res :=
  match s0.liveQp qp with
  | none => .next (s0.noQp qp)
  | some q =>
    let s := s0.portArrive q.port
    let v := va.toNat
    let n := data.length
    let off := v - bellBase
    if rkey.toNat ≠ q.rkey then .next (s.nakQp qp false)
    else if n = 0 then .next (s.sendQp qp (.ack qp) 0)
    else if inBells v n then
      if v % 8 = 0 ∧ n = 8 ∧ bellBase ≤ v ∧ off < 0x100 then
        if off < 0x80 then .next (s0.bell qp (off / 8) (ofLe data)).settle
        else execCompletionConsumedWrite qp ((off - 0x80) / 8) (BitVec.ofNat 64 (ofLe data)) s0
      else .next (s.nakQp qp false)
    else if barred v n || s.transferCheck q.allot [] [⟨v, n⟩] false != .ok then .next (s.nakQp qp false)
    else .next (((s.writeVa q.allot v data).bumpReg (0x3100 + q.allot) 0x22 n).sendQp qp (.ack qp) 0)

end Sys2Proof.Machine
end

