-- ==== Sys2Proof/Machine/Issue.lean ====
section
/-! DEFINITION. The issue of engine instructions into the queues of the four engines (spec/07 R195, R205, R225, R226,
spec/08 R238). What an operation does is defined by the events of its engine. -/

namespace Sys2Proof.Machine

/-- The queue entry of an engine instruction issued now: the registers and the nest register are captured (spec/08 R238,
spec/07 R205). -/
def Ctx.entry (x : Ctx) (w : W128) : QOp :=
  { w := w, regs := x.sregs, nest := x.nest (fld w.toNat 11 9), issue := x.issued }

/-- The Ganger after an issue: past the four words. -/
def State.issued (s : State) (a c : Nat) (x : Ctx) : State := s.moveOn a c { x with issued := x.issued + 1 } (x.pc + 16)

/-- An instruction put into the Lath queue; a full queue stalls the Ganger (spec/07 R195). -/
def State.issueLath (s : State) (core : Nat) (i : Instr) (w : W128) : Res :=
  s.ganger core i (fun a x =>
    if 64 ≤ x.lathQ.length then s else s.issued a core { x with lathQ := x.lathQ ++ [x.entry w] })

/-- An instruction put into the Skimmer queue. -/
def State.issueSkim (s : State) (core : Nat) (i : Instr) (w : W128) : Res :=
  s.ganger core i (fun a x =>
    if 64 ≤ x.skimQ.length then s else s.issued a core { x with skimQ := x.skimQ ++ [x.entry w] })

/-- An instruction put into the Moot queue. -/
def State.issueMoot (s : State) (core : Nat) (i : Instr) (w : W128) : Res :=
  s.ganger core i (fun a x =>
    if 64 ≤ x.mootQ.length then s else s.issued a core { x with mootQ := x.mootQ ++ [x.entry w] })

/-- The most recently opened epoch that is open (spec/07 R225). -/
def Ctx.topEpoch (x : Ctx) : Option Epoch := x.epochs.find? (fun p => p.state == .opened)

/-- An instruction put into the Trowel queue. While an epoch is open it belongs to the most recently opened one and takes
its ranges now; ranges beyond the 64, those that go to earlier claimants among them, stall the Ganger (spec/07 R226, spec/19 R535). -/
def State.issueTrowel (s : State) (core : Nat) (i : Instr) (w : W128) : Res :=
  s.ganger core i (fun a x =>
    if 64 ≤ x.trowelQ.length then s
    else
      match x.topEpoch with
      | none => s.issued a core { x with trowelQ := x.trowelQ ++ [x.entry w] }
      | some p =>
        let q := { x.entry w with epoch := some p.serial }
        let rs := q.tIterDst
        if rs.length ≠ 0 ∧ 64 < x.provUsed + s.rangeClaims a core x + rs.length then s
        else
          s.issued a core
            { x.modEpoch p.serial (fun e => { e with ranges := e.ranges ++ rs.map (fun r => { issue := q.issue, iter := r.1, rng := r.2 }) }) with
              trowelQ := x.trowelQ ++ [q] })

/-! ### Lath instructions -/

/-- L.LOAD (spec/04 R91). -/
def execLLoad (core : Nat) (w : W128) (s : State) : Res := s.issueLath core (.lLoad core w) w

/-- L.LOAD.T (spec/05 R150). -/
def execLLoadT (core : Nat) (w : W128) (s : State) : Res := s.issueLath core (.lLoadT core w) w

/-- L.PASS (spec/04 R97). -/
def execLPass (core : Nat) (w : W128) (s : State) : Res := s.issueLath core (.lPass core w) w

/-- L.PASSO (spec/05 R143). -/
def execLPasso (core : Nat) (w : W128) (s : State) : Res := s.issueLath core (.lPasso core w) w

/-- L.SPLIT (spec/05 R122). -/
def execLSplit (core : Nat) (w : W128) (s : State) : Res := s.issueLath core (.lSplit core w) w

/-! ### Skimmer instructions -/

/-- S.CVT (spec/06 R169). -/
def execSCvt (core : Nat) (w : W128) (s : State) : Res := s.issueSkim core (.sCvt core w) w

/-- S.FMA (spec/06 R172). -/
def execSFma (core : Nat) (w : W128) (s : State) : Res := s.issueSkim core (.sFma core w) w

/-- S.EXP (spec/06 R175). -/
def execSExp (core : Nat) (w : W128) (s : State) : Res := s.issueSkim core (.sExp core w) w

/-- S.SMAX (spec/06 R181). -/
def execSSmax (core : Nat) (w : W128) (s : State) : Res := s.issueSkim core (.sSmax core w) w

/-- S.TOPK (spec/06 R178). -/
def execSTopk (core : Nat) (w : W128) (s : State) : Res := s.issueSkim core (.sTopk core w) w

/-- S.RED (spec/06 R176). -/
def execSRed (core : Nat) (w : W128) (s : State) : Res := s.issueSkim core (.sRed core w) w

/-! ### Trowel instructions -/

/-- T.COPY (spec/09 R272). -/
def execTCopy (core : Nat) (w : W128) (s : State) : Res := s.issueTrowel core (.tCopy core w) w

/-- T.GATHER (spec/08 R248). -/
def execTGather (core : Nat) (w : W128) (s : State) : Res := s.issueTrowel core (.tGather core w) w

/-- T.SCATTER (spec/08 R248). -/
def execTScatter (core : Nat) (w : W128) (s : State) : Res := s.issueTrowel core (.tScatter core w) w

/-! ### Moot instructions -/

/-- M.CONTRIB (spec/14 R410). -/
def execMContrib (core : Nat) (w : W128) (s : State) : Res := s.issueMoot core (.mContrib core w) w

/-- M.PUBLISH (spec/14 R416). -/
def execMPublish (core : Nat) (w : W128) (s : State) : Res := s.issueMoot core (.mPublish core w) w

end Sys2Proof.Machine
end

