-- ==== Sys2Proof/Machine/Dispatch.lean ====
section
/-! DEFINITION. The dispatch: one arm for each command, each a direct call of its meaning. -/

namespace Sys2Proof.Machine

/-- The effect of a command on the device. -/
def exec (i : Instr) (s : State) : Host.Outcome State Fault Refusal :=
  match i with
  | .gAlu core rd ra rb fn => Sys2Proof.Machine.execGAlu core rd ra rb fn s
  | .gAddi core rd ra imm => Sys2Proof.Machine.execGAddi core rd ra imm s
  | .gAndi core rd ra imm => Sys2Proof.Machine.execGAndi core rd ra imm s
  | .gOri core rd ra imm => Sys2Proof.Machine.execGOri core rd ra imm s
  | .gXori core rd ra imm => Sys2Proof.Machine.execGXori core rd ra imm s
  | .gShi core rd ra kind amount => Sys2Proof.Machine.execGShi core rd ra kind amount s
  | .gSlti core rd ra imm => Sys2Proof.Machine.execGSlti core rd ra imm s
  | .gMovk core rd lane imm => Sys2Proof.Machine.execGMovk core rd lane imm s
  | .gLdB core rd ra off => Sys2Proof.Machine.execGLdB core rd ra off s
  | .gLdH core rd ra off => Sys2Proof.Machine.execGLdH core rd ra off s
  | .gLdW core rd ra off => Sys2Proof.Machine.execGLdW core rd ra off s
  | .gLdD core rd ra off => Sys2Proof.Machine.execGLdD core rd ra off s
  | .gStB core rs ra off => Sys2Proof.Machine.execGStB core rs ra off s
  | .gStH core rs ra off => Sys2Proof.Machine.execGStH core rs ra off s
  | .gStW core rs ra off => Sys2Proof.Machine.execGStW core rs ra off s
  | .gStD core rs ra off => Sys2Proof.Machine.execGStD core rs ra off s
  | .gNld core nest ra off => Sys2Proof.Machine.execGNld core nest ra off s
  | .gBCc core cc ra rb off => Sys2Proof.Machine.execGBCc core cc ra rb off s
  | .gJ core off => Sys2Proof.Machine.execGJ core off s
  | .gLoop core rc endOff => Sys2Proof.Machine.execGLoop core rc endOff s
  | .gBrk core => Sys2Proof.Machine.execGBrk core s
  | .gWait core mark v => Sys2Proof.Machine.execGWait core mark v s
  | .gMset core mark ra => Sys2Proof.Machine.execGMset core mark ra s
  | .gMrd core rd mark => Sys2Proof.Machine.execGMrd core rd mark s
  | .gEsc core rd engine => Sys2Proof.Machine.execGEsc core rd engine s
  | .gPring core ra => Sys2Proof.Machine.execGPring core ra s
  | .gProvOpen core epoch => Sys2Proof.Machine.execGProvOpen core epoch s
  | .gProvConfirm core epoch => Sys2Proof.Machine.execGProvConfirm core epoch s
  | .gProvCancel core epoch => Sys2Proof.Machine.execGProvCancel core epoch s
  | .gTallyB core ra => Sys2Proof.Machine.execGTallyB core ra s
  | .gTallyH core ra => Sys2Proof.Machine.execGTallyH core ra s
  | .gTallyW core ra => Sys2Proof.Machine.execGTallyW core ra s
  | .gTallyS core ra => Sys2Proof.Machine.execGTallyS core ra s
  | .gTallyR core rd => Sys2Proof.Machine.execGTallyR core rd s
  | .gTime core rd => Sys2Proof.Machine.execGTime core rd s
  | .gPost core ra => Sys2Proof.Machine.execGPost core ra s
  | .gSwap core ra => Sys2Proof.Machine.execGSwap core ra s
  | .gHalt core => Sys2Proof.Machine.execGHalt core s
  | .gAddr core rb ri shift => Sys2Proof.Machine.execGAddr core rb ri shift s
  | .gAddr2 core rb ri shift => Sys2Proof.Machine.execGAddr2 core rb ri shift s
  | .gangerIllegalWord core => Sys2Proof.Machine.execGangerIllegalWord core s
  | .bankFetchPastImage core => Sys2Proof.Machine.execBankFetchPastImage core s
  | .coreHaltComplete core => Sys2Proof.Machine.execCoreHaltComplete core s
  | .lLoad core w => Sys2Proof.Machine.execLLoad core w s
  | .lLoadT core w => Sys2Proof.Machine.execLLoadT core w s
  | .lPass core w => Sys2Proof.Machine.execLPass core w s
  | .lPasso core w => Sys2Proof.Machine.execLPasso core w s
  | .lSplit core w => Sys2Proof.Machine.execLSplit core w s
  | .sCvt core w => Sys2Proof.Machine.execSCvt core w s
  | .sFma core w => Sys2Proof.Machine.execSFma core w s
  | .sExp core w => Sys2Proof.Machine.execSExp core w s
  | .sSmax core w => Sys2Proof.Machine.execSSmax core w s
  | .sTopk core w => Sys2Proof.Machine.execSTopk core w s
  | .sRed core w => Sys2Proof.Machine.execSRed core w s
  | .tCopy core w => Sys2Proof.Machine.execTCopy core w s
  | .tGather core w => Sys2Proof.Machine.execTGather core w s
  | .tScatter core w => Sys2Proof.Machine.execTScatter core w s
  | .mContrib core w => Sys2Proof.Machine.execMContrib core w s
  | .mPublish core w => Sys2Proof.Machine.execMPublish core w s
  | .lathQueueHead core => Sys2Proof.Machine.execLathQueueHead core s
  | .loadStart core => Sys2Proof.Machine.execLoadStart core s
  | .loadDone core => Sys2Proof.Machine.execLoadDone core s
  | .passStart core chainWait => Sys2Proof.Machine.execPassStart core chainWait s
  | .passCommit core => Sys2Proof.Machine.execPassCommit core s
  | .splitApply core => Sys2Proof.Machine.execSplitApply core s
  | .passoStart core => Sys2Proof.Machine.execPassoStart core s
  | .osChunkReady core => Sys2Proof.Machine.execOsChunkReady core s
  | .skimmerQueueHead core => Sys2Proof.Machine.execSkimmerQueueHead core s
  | .skimmerOpComplete core => Sys2Proof.Machine.execSkimmerOpComplete core s
  | .transferCheck core => Sys2Proof.Machine.execTransferCheck core s
  | .gatherRowMove a core => Sys2Proof.Machine.execGatherRowMove a core s
  | .trowelOpComplete a core => Sys2Proof.Machine.execTrowelOpComplete a core s
  | .provRangesRelease a core epoch => Sys2Proof.Machine.execProvRangesRelease a core epoch s
  | .mootQueueHead core => Sys2Proof.Machine.execMootQueueHead core s
  | .contribReadDone a core => Sys2Proof.Machine.execContribReadDone a core s
  | .nodeDeadlineExpiry g b level => Sys2Proof.Machine.execNodeDeadlineExpiry g b level s
  | .partialCloseArrival l hdr ctx tally => Sys2Proof.Machine.execPartialCloseArrival l hdr ctx tally s
  | .bucketLanding g b => Sys2Proof.Machine.execBucketLanding g b s
  | .deferredLanding g b => Sys2Proof.Machine.execDeferredLanding g b s
  | .publishStart a core => Sys2Proof.Machine.execPublishStart a core s
  | .shardArrival l hdr ctx tally => Sys2Proof.Machine.execShardArrival l hdr ctx tally s
  | .failFlitArrival l hdr ctx => Sys2Proof.Machine.execFailFlitArrival l hdr ctx s
  | .groupLost g house => Sys2Proof.Machine.execGroupLost g house s
  | .mootGroupApply sess g => Sys2Proof.Machine.execMootGroupApply sess g s
  | .bankLoad a stream core => Sys2Proof.Machine.execBankLoad a stream core s
  | .bankLoadComplete a core bank => Sys2Proof.Machine.execBankLoadComplete a core bank s
  | .start a stream core => Sys2Proof.Machine.execStart a stream core s
  | .stream a stream core => Sys2Proof.Machine.execStream a stream core s
  | .halt a stream core => Sys2Proof.Machine.execHalt a stream core s
  | .crierTakeRecord a stream => Sys2Proof.Machine.execCrierTakeRecord a stream s
  | .doorbellWrite qp stream d => Sys2Proof.Machine.execDoorbellWrite qp stream d s
  | .completionConsumedWrite qp stream n => Sys2Proof.Machine.execCompletionConsumedWrite qp stream n s
  | .carterJob a stream => Sys2Proof.Machine.execCarterJob a stream s
  | .carterBlockDone job remote => Sys2Proof.Machine.execCarterBlockDone job remote s
  | .submit a => Sys2Proof.Machine.execSubmit a s
  | .retirePoll => Sys2Proof.Machine.execRetirePoll s
  | .tagMapStoreApply a core => Sys2Proof.Machine.execTagMapStoreApply a core s
  | .greenApply sess => Sys2Proof.Machine.execGreenApply sess s
  | .allotmentApply sess n => Sys2Proof.Machine.execAllotmentApply sess n s
  | .allotmentReset sess n => Sys2Proof.Machine.execAllotmentReset sess n s
  | .turnEnd core => Sys2Proof.Machine.execTurnEnd core s
  | .switchOut core => Sys2Proof.Machine.execSwitchOut core s
  | .switchRestore core => Sys2Proof.Machine.execSwitchRestore core s
  | .budgetReached n => Sys2Proof.Machine.execBudgetReached n s
  | .budgetWindow => Sys2Proof.Machine.execBudgetWindow s
  | .watchdogExpiry n => Sys2Proof.Machine.execWatchdogExpiry n s
  | .fault a core engine cause va => Sys2Proof.Machine.execFault a core engine cause va s
  | .coreMeterTick n core => Sys2Proof.Machine.execCoreMeterTick n core s
  | .hbmMeterTick n => Sys2Proof.Machine.execHbmMeterTick n s
  | .pageAttributeRequest sess n va req => Sys2Proof.Machine.execPageAttributeRequest sess n va req s
  | .rightRemovalApply n => Sys2Proof.Machine.execRightRemovalApply n s
  | .pageSpill a core page => Sys2Proof.Machine.execPageSpill a core page s
  | .pageReturn a core page => Sys2Proof.Machine.execPageReturn a core page s
  | .larderPrefetch sess => Sys2Proof.Machine.execLarderPrefetch sess s
  | .larderPin sess => Sys2Proof.Machine.execLarderPin sess s
  | .larderUnpin sess => Sys2Proof.Machine.execLarderUnpin sess s
  | .larderEvict sess => Sys2Proof.Machine.execLarderEvict sess s
  | .larderAccept sess => Sys2Proof.Machine.execLarderAccept sess s
  | .larderWithdraw sess => Sys2Proof.Machine.execLarderWithdraw sess s
  | .larderInstall sess => Sys2Proof.Machine.execLarderInstall sess s
  | .larderQuery sess => Sys2Proof.Machine.execLarderQuery sess s
  | .fillComplete h record image manifest => Sys2Proof.Machine.execFillComplete h record image manifest s
  | .withdrawalGraceExpiry h => Sys2Proof.Machine.execWithdrawalGraceExpiry h s
  | .carryRecheckDone h => Sys2Proof.Machine.execCarryRecheckDone h s
  | .entryQuotaWrite sess n v => Sys2Proof.Machine.execEntryQuotaWrite sess n v s
  | .pageQuotaWrite sess n v => Sys2Proof.Machine.execPageQuotaWrite sess n v s
  | .wellFill sess slot => Sys2Proof.Machine.execWellFill sess slot s
  | .wellSeal sess slot => Sys2Proof.Machine.execWellSeal sess slot s
  | .wellSwitch sess slot => Sys2Proof.Machine.execWellSwitch sess slot s
  | .wellClear sess slot => Sys2Proof.Machine.execWellClear sess slot s
  | .wellGeometryApply sess slot => Sys2Proof.Machine.execWellGeometryApply sess slot s
  | .counterSnapshot sess n => Sys2Proof.Machine.execCounterSnapshot sess n s
  | .linkSignalDetect l => Sys2Proof.Machine.execLinkSignalDetect l s
  | .linkFecLock l => Sys2Proof.Machine.execLinkFecLock l s
  | .trainingTimeout l => Sys2Proof.Machine.execTrainingTimeout l s
  | .downRetrainTimer l => Sys2Proof.Machine.execDownRetrainTimer l s
  | .linkDown l cause => Sys2Proof.Machine.execLinkDown l cause s
  | .helloTimer l => Sys2Proof.Machine.execHelloTimer l s
  | .helloReceive l hdr body => Sys2Proof.Machine.execHelloReceive l hdr body s
  | .topologyReceive l hdr entry => Sys2Proof.Machine.execTopologyReceive l hdr entry s
  | .openFlit l hdr xtag gen total markAt => Sys2Proof.Machine.execOpenFlit l hdr xtag gen total markAt s
  | .dataFlit l hdr xtag gen offset data => Sys2Proof.Machine.execDataFlit l hdr xtag gen offset data s
  | .doneFlit l hdr xtag gen status => Sys2Proof.Machine.execDoneFlit l hdr xtag gen status s
  | .mootFlitOpen l hdr ctx body => Sys2Proof.Machine.execMootFlitOpen l hdr ctx body s
  | .mootFlitData l hdr ctx offset data => Sys2Proof.Machine.execMootFlitData l hdr ctx offset data s
  | .idleFlit l hdr => Sys2Proof.Machine.execIdleFlit l hdr s
  | .flitBad l uncorrectable => Sys2Proof.Machine.execFlitBad l uncorrectable s
  | .flitReserved l hdr => Sys2Proof.Machine.execFlitReserved l hdr s
  | .replayTimeout l => Sys2Proof.Machine.execReplayTimeout l s
  | .escapeTimeout index => Sys2Proof.Machine.execEscapeTimeout index s
  | .fabricApply sess => Sys2Proof.Machine.execFabricApply sess s
  | .routesApply sess => Sys2Proof.Machine.execRoutesApply sess s
  | .linkRetrain sess l => Sys2Proof.Machine.execLinkRetrain sess l s
  | .linkEnableWrite sess l v => Sys2Proof.Machine.execLinkEnableWrite sess l v s
  | .stripArm sess => Sys2Proof.Machine.execStripArm sess s
  | .stripToken sess token => Sys2Proof.Machine.execStripToken sess token s
  | .stripNonceExpiry => Sys2Proof.Machine.execStripNonceExpiry s
  | .makerDebugToken token => Sys2Proof.Machine.execMakerDebugToken token s
  | .operatorKeyWrite sess slot digest => Sys2Proof.Machine.execOperatorKeyWrite sess slot digest s
  | .keyExchange path req => Sys2Proof.Machine.execKeyExchange path req s
  | .endSession sess => Sys2Proof.Machine.execEndSession sess s
  | .heartbeatMissed sess => Sys2Proof.Machine.execHeartbeatMissed sess s
  | .challenge path nonce => Sys2Proof.Machine.execChallenge path nonce s
  | .getMeasurements sess nonce => Sys2Proof.Machine.execGetMeasurements sess nonce s
  | .reportSigned => Sys2Proof.Machine.execReportSigned s
  | .lychClaim sess n => Sys2Proof.Machine.execLychClaim sess n s
  | .lychScope sess n => Sys2Proof.Machine.execLychScope sess n s
  | .lychKey sess g => Sys2Proof.Machine.execLychKey sess g s
  | .lychLog sess weight first count => Sys2Proof.Machine.execLychLog sess weight first count s
  | .lychRelease sess => Sys2Proof.Machine.execLychRelease sess s
  | .oldAnExpiry n => Sys2Proof.Machine.execOldAnExpiry n s
  | .fwStage sess => Sys2Proof.Machine.execFwStage sess s
  | .fwActivate sess => Sys2Proof.Machine.execFwActivate sess s
  | .fwCommit sess => Sys2Proof.Machine.execFwCommit sess s
  | .fwDiscard sess => Sys2Proof.Machine.execFwDiscard sess s
  | .liveActivationDone => Sys2Proof.Machine.execLiveActivationDone s
  | .lmpDatagram path sess bytes => Sys2Proof.Machine.execLmpDatagram path sess bytes s
  | .lmpAccessMessage sess bytes => Sys2Proof.Machine.execLmpAccessMessage sess bytes s
  | .registerWrite sess index sub value => Sys2Proof.Machine.execRegisterWrite sess index sub value s
  | .rdmaCmConnect n p isProtected => Sys2Proof.Machine.execRdmaCmConnect n p isProtected s
  | .qpDisconnect qp => Sys2Proof.Machine.execQpDisconnect qp s
  | .rdmaWriteInbound qp rkey va data => Sys2Proof.Machine.execRdmaWriteInbound qp rkey va data s
  | .rdmaReadInbound qp rkey va len => Sys2Proof.Machine.execRdmaReadInbound qp rkey va len s
  | .atomicRequest qp => Sys2Proof.Machine.execAtomicRequest qp s
  | .unacceptedFrame p reason => Sys2Proof.Machine.execUnacceptedFrame p reason s
  | .nonRoceFrame p kind => Sys2Proof.Machine.execNonRoceFrame p kind s
  | .ecnMarkedPacket qp => Sys2Proof.Machine.execEcnMarkedPacket qp s
  | .cnpReceived qp => Sys2Proof.Machine.execCnpReceived qp s
  | .rateRecoveryTimer qp => Sys2Proof.Machine.execRateRecoveryTimer qp s
  | .pfcPauseReceived p priority pause => Sys2Proof.Machine.execPfcPauseReceived p priority pause s
  | .hostPortDark p => Sys2Proof.Machine.execHostPortDark p s
  | .hostPortApply sess p => Sys2Proof.Machine.execHostPortApply sess p s
  | .powerOnReset => Sys2Proof.Machine.execPowerOnReset s
  | .pinReset => Sys2Proof.Machine.execPinReset s
  | .commandedReset sess => Sys2Proof.Machine.execCommandedReset sess s
  | .clockLoss => Sys2Proof.Machine.execClockLoss s
  | .vergerFaultReset => Sys2Proof.Machine.execVergerFaultReset s
  | .powerLoss cause => Sys2Proof.Machine.execPowerLoss cause s
  | .thermalTrip ward milliC => Sys2Proof.Machine.execThermalTrip ward milliC s
  | .throttleEval vrHot watts => Sys2Proof.Machine.execThrottleEval vrHot watts s
  | .thermalSample milliC => Sys2Proof.Machine.execThermalSample milliC s
  | .powerApply sess => Sys2Proof.Machine.execPowerApply sess s
  | .setpointApply sess ward => Sys2Proof.Machine.execSetpointApply sess ward s
  | .thermalApply sess => Sys2Proof.Machine.execThermalApply sess s
  | .mgmtPortApply sess => Sys2Proof.Machine.execMgmtPortApply sess s
  | .stepRateMeasure kiloSteps => Sys2Proof.Machine.execStepRateMeasure kiloSteps s
  | .referenceClocksReturn => Sys2Proof.Machine.execReferenceClocksReturn s
  | .hostPortLinkUp p => Sys2Proof.Machine.execHostPortLinkUp p s
  | .allotmentResetDone n => Sys2Proof.Machine.execAllotmentResetDone n s
  | .wellSealDigestRecorded slot => Sys2Proof.Machine.execWellSealDigestRecorded slot s
  | .wellClearZeroingEnds slot => Sys2Proof.Machine.execWellClearZeroingEnds slot s
  | .bootPhaseComplete verified => Sys2Proof.Machine.execBootPhaseComplete verified s
  | .testStationTransition move => Sys2Proof.Machine.execTestStationTransition move s
  | .transferTagReuse xtag => Sys2Proof.Machine.execTransferTagReuse xtag s

end Sys2Proof.Machine
end

