-- ==== Sys2Proof/Decode.lean ====
section
/-! DEFINITION. The commands that the opcode table's words spell. The table gives no row any bits: a command is named, not encoded. The
encodings that the spec does give, of Ganger and engine instructions, are read by gangerDecode and engineDecode where a core fetches them. -/

namespace Sys2Proof

/-- The command that a word spells by the table's bits: none. -/
def decodeTableWord (_nbits _w : Nat) : Option Instr := none

end Sys2Proof
end

