-- ==== Sys2Proof/WellFormed.lean ====
section
/-! DEFINITION. Well-formed commands: every operand lies in the range that the spec gives what it names. -/

namespace Sys2Proof

/-- A core, 0 to 127 (spec/01 R12). -/
def okCore (n : Nat) : Bool := decide (n < 128)
/-- An allotment, 0 to 255 (spec/10 R284). -/
def okAllot (n : Nat) : Bool := decide (n < 256)
/-- A stream of an allotment, 0 to 15 (spec/17 R494). -/
def okStream (n : Nat) : Bool := decide (n < 16)
/-- A Moot group slot, 0 to 11 (spec/14 R401). -/
def okGroup (n : Nat) : Bool := decide (n < 12)
/-- A bucket slot number, modulo 256 (spec/14 R411). -/
def okByte (n : Nat) : Bool := decide (n < 256)
/-- A level of a MOOT flit: 1 to 9 of the tree, 0xF for a reduced bucket, 0 for a shard (spec/14 R424). -/
def okLevel (n : Nat) : Bool := decide (n < 10) || n == 15
/-- A fabric link, 0 to 63 (spec/01 R11). -/
def okLink (n : Nat) : Bool := decide (n < 64)
/-- A host port, 0 to 3 (spec/17). -/
def okPort (n : Nat) : Bool := decide (n < 4)
/-- A queue pair of the allotments, 0 to 4,095 (spec/17 R491). -/
def okQp (n : Nat) : Bool := decide (n < 4096)
/-- A Larder handle, 0 to 16,383 (spec/11 R324). -/
def okHandle (n : Nat) : Bool := decide (n < 16384)
/-- A house number, 0 to 511 (spec/13). -/
def okHouse (n : Nat) : Bool := decide (n < 512)
/-- A ward, 0 to 3 (spec/01). -/
def okWard (n : Nat) : Bool := decide (n < 4)
/-- A program bank, 0 or 1 (spec/07). -/
def okBank (n : Nat) : Bool := decide (n < 2)
/-- A page of a core's Loft slice, of 64 KiB (spec/09). -/
def okLoftPage (n : Nat) : Bool := decide (n < 2048)
/-- A Well slot, 0 or 1 (spec/16). -/
def okSlot (n : Nat) : Bool := decide (n < 2)
/-- A slot of the operator key list, 1 to 4 (spec/15). -/
def okKeySlot (n : Nat) : Bool := decide (1 ≤ n) && decide (n ≤ 4)
/-- A 256-bit digest or nonce (spec/15). -/
def okDigest (n : Nat) : Bool := decide (n < 2 ^ 256)
/-- A transfer tag (spec/13 R376). -/
def okTag (n : Nat) : Bool := decide (n < 1024)
/-- A flit's body of data, at most 236 bytes (spec/13 R376). -/
def okBody (d : List Byte) : Bool := decide (d.length ≤ 236)
/-- One value for each ward. -/
def okWards {α : Type} (l : List α) : Bool := decide (l.length = 4)
/-- An engine instruction's word with the engine's opcode in bits [31:26] (spec/08 R231, table Engine instruction header). -/
def okUnit (w : W128) (opcode : Nat) : Bool := w.toNat / 2 ^ 26 % 64 == opcode
/-- A priority of priority flow control (spec/17). -/
def okPriority (n : Nat) : Bool := decide (n < 8)

/-- The fields of a flit's header in their widths (spec/13 R376). -/
def FlitHdr.wf (h : FlitHdr) : Bool :=
  decide (h.seq < 4096) && decide (h.ack < 4096) && decide (h.cvc < 16) && decide (h.ccnt < 16) && decide (h.dest < 512) && decide (h.src < 512) &&
    decide (h.vc < 16) && decide (h.household < 2 ^ 16)
/-- The context of a MOOT flit (spec/14 R424). -/
def MootCtx.wf (c : MootCtx) : Bool := okLevel c.level && okByte c.bslot
/-- A HELLO body (spec/13 R382). -/
def Hello.wf (b : Hello) : Bool := okDigest b.digest && decide (b.house < 2 ^ 16) && okLink b.link
/-- A maker token's body fields (spec/15). -/
def MakerToken.wf (t : MakerToken) : Bool := okDigest t.identity && decide (t.nonce < 2 ^ 128) && decide (t.target < 256)
/-- A requester's key digest (spec/15 R441). -/
def Requester.wf (r : Requester) : Bool := okDigest r.keyDigest
/-- The path of a message (spec/16). -/
def LmpPath.wf : LmpPath → Bool
  | .management => true
  | .inBand p => okPort p
/-- A test station's transition (spec/15 R431). -/
def StationMove.wf : StationMove → Bool
  | .bareToPrimed d => okDigest d
  | .primedToFinished t => t.wf
  | .strippedToPrimed d => okDigest d

/-- Whether a command is well formed. -/
def Instr.wf : Instr → Bool
  | .gAlu core _ _ _ _ => okCore core
  | .gAddi core _ _ _ => okCore core
  | .gAndi core _ _ _ => okCore core
  | .gOri core _ _ _ => okCore core
  | .gXori core _ _ _ => okCore core
  | .gShi core _ _ _ _ => okCore core
  | .gSlti core _ _ _ => okCore core
  | .gMovk core _ _ _ => okCore core
  | .gLdB core _ _ _ => okCore core
  | .gLdH core _ _ _ => okCore core
  | .gLdW core _ _ _ => okCore core
  | .gLdD core _ _ _ => okCore core
  | .gStB core _ _ _ => okCore core
  | .gStH core _ _ _ => okCore core
  | .gStW core _ _ _ => okCore core
  | .gStD core _ _ _ => okCore core
  | .gNld core _ _ _ => okCore core
  | .gBCc core _ _ _ _ => okCore core
  | .gJ core _ => okCore core
  | .gLoop core _ _ => okCore core
  | .gBrk core => okCore core
  | .gWait core _ _ => okCore core
  | .gMset core _ _ => okCore core
  | .gMrd core _ _ => okCore core
  | .gEsc core _ e => okCore core && e != .saveArea
  | .gPring core _ => okCore core
  | .gProvOpen core _ => okCore core
  | .gProvConfirm core _ => okCore core
  | .gProvCancel core _ => okCore core
  | .gTallyB core _ => okCore core
  | .gTallyH core _ => okCore core
  | .gTallyW core _ => okCore core
  | .gTallyS core _ => okCore core
  | .gTallyR core _ => okCore core
  | .gTime core _ => okCore core
  | .gPost core _ => okCore core
  | .gSwap core _ => okCore core
  | .gHalt core => okCore core
  | .gAddr core _ _ _ => okCore core
  | .gAddr2 core _ _ _ => okCore core
  | .gangerIllegalWord core => okCore core
  | .bankFetchPastImage core => okCore core
  | .coreHaltComplete core => okCore core
  | .lLoad core w => okCore core && okUnit w 0x3C
  | .lLoadT core w => okCore core && okUnit w 0x3C
  | .lPass core w => okCore core && okUnit w 0x3C
  | .lPasso core w => okCore core && okUnit w 0x3C
  | .lSplit core w => okCore core && okUnit w 0x3C
  | .sCvt core w => okCore core && okUnit w 0x3D
  | .sFma core w => okCore core && okUnit w 0x3D
  | .sExp core w => okCore core && okUnit w 0x3D
  | .sSmax core w => okCore core && okUnit w 0x3D
  | .sTopk core w => okCore core && okUnit w 0x3D
  | .sRed core w => okCore core && okUnit w 0x3D
  | .tCopy core w => okCore core && okUnit w 0x3E
  | .tGather core w => okCore core && okUnit w 0x3E
  | .tScatter core w => okCore core && okUnit w 0x3E
  | .mContrib core w => okCore core && okUnit w 0x3F
  | .mPublish core w => okCore core && okUnit w 0x3F
  | .lathQueueHead core => okCore core
  | .loadStart core => okCore core
  | .loadDone core => okCore core
  | .passStart core _ => okCore core
  | .passCommit core => okCore core
  | .splitApply core => okCore core
  | .passoStart core => okCore core
  | .osChunkReady core => okCore core
  | .skimmerQueueHead core => okCore core
  | .skimmerOpComplete core => okCore core
  | .transferCheck core => okCore core
  | .gatherRowMove a core => okAllot a && okCore core
  | .trowelOpComplete a core => okAllot a && okCore core
  | .provRangesRelease a core _ => okAllot a && okCore core
  | .mootQueueHead core => okCore core
  | .contribReadDone a core => okAllot a && okCore core
  | .nodeDeadlineExpiry g b level => okGroup g && okByte b && okLevel level
  | .partialCloseArrival l hdr ctx _ => okLink l && hdr.wf && ctx.wf
  | .bucketLanding g b => okGroup g && okByte b
  | .deferredLanding g b => okGroup g && okByte b
  | .publishStart a core => okAllot a && okCore core
  | .shardArrival l hdr ctx _ => okLink l && hdr.wf && ctx.wf
  | .failFlitArrival l hdr ctx => okLink l && hdr.wf && ctx.wf
  | .groupLost g house => okGroup g && okHouse house
  | .mootGroupApply _ g => okGroup g
  | .bankLoad a ring core => okAllot a && okStream ring && okCore core
  | .bankLoadComplete a core bank => okAllot a && okCore core && okBank bank
  | .start a ring core => okAllot a && okStream ring && okCore core
  | .stream a ring core => okAllot a && okStream ring && okCore core
  | .halt a ring core => okAllot a && okStream ring && okCore core
  | .crierTakeRecord a ring => okAllot a && okStream ring
  | .doorbellWrite qp ring _ => okQp qp && okStream ring
  | .completionConsumedWrite qp ring _ => okQp qp && okStream ring
  | .carterJob a ring => okAllot a && okStream ring
  | .carterBlockDone _ _ => true
  | .submit a => okAllot a
  | .retirePoll => true
  | .tagMapStoreApply a core => okAllot a && okCore core
  | .greenApply _ => true
  | .allotmentApply _ n => okAllot n
  | .allotmentReset _ n => okAllot n
  | .turnEnd core => okCore core
  | .switchOut core => okCore core
  | .switchRestore core => okCore core
  | .budgetReached n => okAllot n
  | .budgetWindow => true
  | .watchdogExpiry n => okAllot n
  | .fault a core _ _ _ => okAllot a && okCore core
  | .coreMeterTick n core => okAllot n && okCore core
  | .hbmMeterTick n => okAllot n
  | .pageAttributeRequest _ n _ _ => okAllot n
  | .rightRemovalApply _ => true
  | .pageSpill a core page => okAllot a && okCore core && okLoftPage page
  | .pageReturn a core page => okAllot a && okCore core && okLoftPage page
  | .larderPrefetch _ => true
  | .larderPin _ => true
  | .larderUnpin _ => true
  | .larderEvict _ => true
  | .larderAccept _ => true
  | .larderWithdraw _ => true
  | .larderInstall _ => true
  | .larderQuery _ => true
  | .fillComplete h _ _ _ => okHandle h
  | .withdrawalGraceExpiry h => okHandle h
  | .carryRecheckDone h => okHandle h
  | .entryQuotaWrite _ n _ => okAllot n
  | .pageQuotaWrite _ n _ => okAllot n
  | .wellFill _ slot => okSlot slot
  | .wellSeal _ slot => okSlot slot
  | .wellSwitch _ slot => okSlot slot
  | .wellClear _ slot => okSlot slot
  | .wellGeometryApply _ slot => okSlot slot
  | .counterSnapshot _ n => okAllot n
  | .linkSignalDetect l => okLink l
  | .linkFecLock l => okLink l
  | .trainingTimeout l => okLink l
  | .downRetrainTimer l => okLink l
  | .linkDown l _ => okLink l
  | .helloTimer l => okLink l
  | .helloReceive l hdr body => okLink l && hdr.wf && body.wf
  | .topologyReceive l hdr entry => okLink l && hdr.wf && okDigest entry.digest
  | .openFlit l hdr xtag _ _ _ => okLink l && hdr.wf && okTag xtag
  | .dataFlit l hdr xtag _ _ data => okLink l && hdr.wf && okTag xtag && okBody data
  | .doneFlit l hdr xtag _ _ => okLink l && hdr.wf && okTag xtag
  | .mootFlitOpen l hdr ctx _ => okLink l && hdr.wf && ctx.wf
  | .mootFlitData l hdr ctx _ data => okLink l && hdr.wf && ctx.wf && okBody data
  | .idleFlit l hdr => okLink l && hdr.wf
  | .flitBad l _ => okLink l
  | .flitReserved l hdr => okLink l && hdr.wf
  | .replayTimeout l => okLink l
  | .escapeTimeout _ => true
  | .fabricApply _ => true
  | .routesApply _ => true
  | .linkRetrain _ l => okLink l
  | .linkEnableWrite _ l _ => okLink l
  | .stripArm _ => true
  | .stripToken _ token => token.wf
  | .stripNonceExpiry => true
  | .makerDebugToken token => token.wf
  | .operatorKeyWrite _ slot digest => okKeySlot slot && okDigest digest
  | .keyExchange path req => path.wf && req.wf
  | .endSession _ => true
  | .heartbeatMissed _ => true
  | .challenge path nonce => path.wf && okDigest nonce
  | .getMeasurements _ nonce => okDigest nonce
  | .reportSigned => true
  | .lychClaim _ n => okAllot n
  | .lychScope _ n => okAllot n
  | .lychKey _ _ => true
  | .lychLog _ _ _ _ => true
  | .lychRelease _ => true
  | .oldAnExpiry n => okAllot n
  | .fwStage _ => true
  | .fwActivate _ => true
  | .fwCommit _ => true
  | .fwDiscard _ => true
  | .liveActivationDone => true
  | .lmpDatagram path _ _ => path.wf
  | .lmpAccessMessage _ _ => true
  | .registerWrite _ _ _ _ => true
  | .rdmaCmConnect n p _ => okAllot n && okPort p
  | .qpDisconnect qp => okQp qp
  | .rdmaWriteInbound qp _ _ _ => okQp qp
  | .rdmaReadInbound qp _ _ _ => okQp qp
  | .atomicRequest qp => okQp qp
  | .unacceptedFrame p _ => okPort p
  | .nonRoceFrame p _ => okPort p
  | .ecnMarkedPacket qp => okQp qp
  | .cnpReceived qp => okQp qp
  | .rateRecoveryTimer qp => okQp qp
  | .pfcPauseReceived p priority _ => okPort p && okPriority priority
  | .hostPortDark p => okPort p
  | .hostPortApply _ p => okPort p
  | .powerOnReset => true
  | .pinReset => true
  | .commandedReset _ => true
  | .clockLoss => true
  | .vergerFaultReset => true
  | .powerLoss _ => true
  | .thermalTrip ward _ => okWard ward
  | .throttleEval vrHot _ => vrHot.all okWard
  | .thermalSample milliC => okWards milliC
  | .powerApply _ => true
  | .setpointApply _ ward => okWard ward
  | .thermalApply _ => true
  | .mgmtPortApply _ => true
  | .stepRateMeasure kiloSteps => okWards kiloSteps
  | .referenceClocksReturn => true
  | .hostPortLinkUp p => okPort p
  | .allotmentResetDone n => okAllot n
  | .wellSealDigestRecorded slot => okSlot slot
  | .wellClearZeroingEnds slot => okSlot slot
  | .bootPhaseComplete _ => true
  | .testStationTransition move => move.wf
  | .transferTagReuse xtag => okTag xtag

end Sys2Proof
end

