-- ==== Sys2Proof/Safety.lean ====
section
/-! DEFINITION. The words that statements about the device use: how a Ganger instruction leaves the state, where code
is due, what memory a step may change, and what a register or a page allows. -/

namespace Sys2Proof

/-- The core on which a command that the Ganger fetches executes; none for every other command. -/
def Instr.fetchCore : Instr → Option Nat
  | .gAlu core _ _ _ _ => some core
  | .gAddi core _ _ _ => some core
  | .gAndi core _ _ _ => some core
  | .gOri core _ _ _ => some core
  | .gXori core _ _ _ => some core
  | .gShi core _ _ _ _ => some core
  | .gSlti core _ _ _ => some core
  | .gMovk core _ _ _ => some core
  | .gLdB core _ _ _ => some core
  | .gLdH core _ _ _ => some core
  | .gLdW core _ _ _ => some core
  | .gLdD core _ _ _ => some core
  | .gStB core _ _ _ => some core
  | .gStH core _ _ _ => some core
  | .gStW core _ _ _ => some core
  | .gStD core _ _ _ => some core
  | .gNld core _ _ _ => some core
  | .gBCc core _ _ _ _ => some core
  | .gJ core _ => some core
  | .gLoop core _ _ => some core
  | .gBrk core => some core
  | .gWait core _ _ => some core
  | .gMset core _ _ => some core
  | .gMrd core _ _ => some core
  | .gEsc core _ _ => some core
  | .gPring core _ => some core
  | .gProvOpen core _ => some core
  | .gProvConfirm core _ => some core
  | .gProvCancel core _ => some core
  | .gTallyB core _ => some core
  | .gTallyH core _ => some core
  | .gTallyW core _ => some core
  | .gTallyS core _ => some core
  | .gTallyR core _ => some core
  | .gTime core _ => some core
  | .gPost core _ => some core
  | .gSwap core _ => some core
  | .gHalt core => some core
  | .gAddr core _ _ _ => some core
  | .gAddr2 core _ _ _ => some core
  | .gangerIllegalWord core => some core
  | .bankFetchPastImage core => some core
  | .lLoad core _ => some core
  | .lLoadT core _ => some core
  | .lPass core _ => some core
  | .lPasso core _ => some core
  | .lSplit core _ => some core
  | .sCvt core _ => some core
  | .sFma core _ => some core
  | .sExp core _ => some core
  | .sSmax core _ => some core
  | .sTopk core _ => some core
  | .sRed core _ => some core
  | .tCopy core _ => some core
  | .tGather core _ => some core
  | .tScatter core _ => some core
  | .mContrib core _ => some core
  | .mPublish core _ => some core
  | _ => none

end Sys2Proof

namespace Sys2Proof.Machine

/-! ### The Ganger -/

/-- A context after an instruction at its fetch position: the program counter moved on to pc, loops taken, the operation
index advanced (spec/07 R194, R198, R216). -/
def Ctx.after (y : Ctx) (pc : Nat) : Ctx := (y.goTo pc).takeIndex .ganger

/-- t is s after the Ganger of allotment a on core c has executed an instruction that leaves the context y. From a bank
nothing but the context has changed; in streamed execution the blocks that end there have left the instruction queue,
and their commands' completions have been posted or wait (spec/07 R193). -/
structure GangerNext (s t : State) (a c : Nat) (y : Ctx) : Prop where
  ctx : ∃ iq, t.ctx? a c = some { y with iq := iq } ∧ iq <:+ y.iq
  others : ∀ k, k ≠ ctxKey a c → t.ctxs.find k = s.ctxs.find k
  frame : t = { s with ctxs := t.ctxs, allots := t.allots, out := t.out, regs := t.regs, log := t.log, dropAt := t.dropAt }
  bank : y.src ≠ .queue → t = s.setCtx a c y

/-- Whether a hardware loop that ends at an offset lies in the code that is executed (spec/07 R193, R229). -/
def Ctx.loopFits (x : Ctx) (stop : Nat) : Bool :=
  match x.src with
  | .bank _ => true
  | .queue => match blockSpan x.iq x.pc with
    | none => false
    | some (_, hi) => decide (stop ≤ hi)

/-- Where a taken branch of a number of words goes; a target below offset 0 lies past every image (log entry 16). -/
def Ctx.target (x : Ctx) (words : Int) : Nat :=
  let t := (x.pc : Int) + 4 * words
  if t < 0 then 0x40000 else t.toNat

/-- A core whose Ganger halts on its own with a status: fetch stops, and nothing else has changed (spec/07 R541). -/
def Ctx.stopped (x : Ctx) (st : Status) : Ctx := { x.takeIndex .ganger with run := .stopping st }

/-! ### Memory -/

/-- Every byte outside a range reads in t as it reads in s. -/
def SameOutside (s t : State) (pa n : Nat) : Prop := ∀ p, p < pa ∨ pa + n ≤ p → Mem.read t.mem p = Mem.read s.mem p

/-- The bytes of a list stand in memory from an address on. -/
def HoldsBytes (t : State) (pa : Nat) (bs : List Byte) : Prop := ∀ i v, bs[i]? = some v → Mem.read t.mem (pa + i) = v

end Sys2Proof.Machine
end

