-- ==== Sys2Proof/Certificates/Slice0/Obligations.lean ====
section
/-! DEFINITION. The statements about the device that the provers prove. -/

open Sys2Proof Sys2Proof.Machine

/-! ### The queue of commands, reset and memory -/

/-- With a command at the front of the queue, a step is the command's effect on the state with the queue's rest. -/
def Obligations.StepTakesFront : Prop :=
  ∀ (s : State) (i : Instr) (rest : List Instr), step { s with pending := i :: rest } = exec i { s with pending := rest }

/-- On an empty queue a step is one tick of the device timer: the timer counts while the device runs, and nothing happens while
it does not (spec/01 R25; the model's choice, log entry 5); nothing else changes but the counts of waiting steps (spec/16 R468, .03 and .07;
how many is a free value, log entry 77). A transition of the life cycle under way ends in a reset (log entry 8). -/
def Obligations.EmptyQueueTicks : Prop :=
  ∀ s : State, s.pending = [] →
    (s.power ≠ .running → step s = .next s) ∧
    (s.power = .running → s.transition = false → ∃ t : State, step s = .next t ∧
      t = { s with timer := s.timer + 1, regs := t.regs, perfHidden := t.perfHidden } ∧
      (∀ k, (∀ a, k ≠ objKey (0x6000 + a) 3 ∧ k ≠ objKey (0x6000 + a) 7) → t.regs.find k = s.regs.find k) ∧
      ((∀ e ∈ s.cores, e.2.resident = none) → t.regs = s.regs)) ∧
    (s.power = .running → s.transition = true →
      ∃ t, step s = .next t ∧ t.transition = false ∧ t.reg 0x1300 0x03 = 0x05 ∧ t.mem = [] ∧ t.ctxs = [] ∧ t.sessions = [])

/-- Every step answers a next state: no command stops the machine with a fault or a refusal. This rests on the model's choices that a
command which is not called for leaves the state as it is (log entry 3), and that an illegal use of the Ganger hangs (log entry 14). -/
def Obligations.EveryStepAnswers : Prop := ∀ s : State, ∃ t, step s = .next t

/-- Every step keeps the canonical form of memory. -/
def Obligations.StepKeepsMemoryForm : Prop :=
  ∀ s t : State, Mem.wf s.mem = true → step s = .next t → Mem.wf t.mem = true

/-- After reset memory has its canonical form and every byte reads 0 (spec/18 R522), no command waits, no allotment has a
context, no session is open, no link, queue pair or job exists, and every object of the Parish Register has its default. -/
def Obligations.ResetState : Prop :=
  Mem.wf State.reset.mem = true ∧ (∀ p, Mem.read State.reset.mem p = 0) ∧ State.reset.poison = [] ∧ State.reset.pending = [] ∧
    State.reset.ctxs = [] ∧ State.reset.sessions = [] ∧ State.reset.qps = [] ∧ State.reset.jobs = [] ∧ State.reset.larder = [] ∧
    (∀ c, State.reset.core c = {}) ∧ (∀ idx sub, State.reset.reg idx sub = objDefault idx sub)

/-- A byte written is read back, and every other byte reads as before; memory keeps its canonical form, in which equal contents
are equal data. -/
def Obligations.MemoryReadWrite : Prop :=
  ∀ (m : List Host.Cell) (a : Nat) (v : Byte), Mem.wf m = true →
    Mem.wf (Mem.write m a v) = true ∧ Mem.read (Mem.write m a v) a = v ∧
      (∀ p, p ≠ a → Mem.read (Mem.write m a v) p = Mem.read m p) ∧
      (∀ n : List Host.Cell, Mem.wf n = true → (∀ p, Mem.read m p = Mem.read n p) → m = n)

/-- Of the statuses that apply to one operation the one reported is one of them, or OK with none; its class is the first of
Refused, Stopped, Adjusted, Done that any of them has, and its code the lowest of that class (spec/00 R9). -/
def Obligations.StatusChoice : Prop :=
  ∀ l : List Status,
    (stPickAll l = .ok ∨ stPickAll l ∈ l) ∧
      (∀ st ∈ l, stRank (stPickAll l) < stRank st ∨
        (stRank (stPickAll l) = stRank st ∧ stCode (stPickAll l) ≤ stCode st)) ∧
      (∀ st, stOfCode (stCode st) = some st)

/-! ### The Ganger (spec/07, spec/08) -/

/-- Decoding the word of a Ganger instruction gives the instruction, for every operand (spec/08 R234, R236). -/
def Obligations.GangerWordRoundTrip : Prop :=
  ∀ (i : Instr) (core w : Nat), gangerEncode i = some w → i.wf = true → i.fetchCore = some core →
    gangerDecode core w = i ∧ beginsEngine w = false ∧ w < 2 ^ 32

/-- Words written out from the encodings of spec/08 decode to the instructions that they stand for; a reserved opcode and a
nonzero reserved field are illegal words. -/
def Obligations.GangerWordSamples : Prop :=
  gangerDecode 0 0x04220C01 = .gangerIllegalWord 0 ∧ gangerDecode 0 0x04641801 = .gAlu 0 3 4 3 .sub ∧
    gangerDecode 0 0x0864FFFF = .gAddi 0 3 4 0xFFFF ∧ gangerDecode 0 0x4C220010 = .gLdD 0 1 2 0x10 ∧
    gangerDecode 0 0x80229FFF = .gBCc 0 .ltu 1 2 0x1FFF ∧ gangerDecode 0 0x90580005 = .gangerIllegalWord 0 ∧
    gangerDecode 0 0x90584000 = .gWait 0 5 (.reg 1) ∧ gangerDecode 0 0xB8000000 = .gHalt 0 ∧
    gangerDecode 0 0xBC430800 = .gAddr2 0 2 3 0 ∧ gangerDecode 0 0 = .gangerIllegalWord 0 ∧ beginsEngine 0xF0000000 = true

/-- s0 reads as zero and discards writes; a write of any other register is read back and leaves the others (spec/07, section The
Ganger). G.MOVK puts its 16 bits into the lane and leaves the other 48 (spec/08 R234). -/
def Obligations.ScalarRegisters : Prop :=
  (
  ∀ (x : Ctx) (r : Reg) (v : W64),
    x.s 0 = 0 ∧ x.setS 0 v = x ∧ (r ≠ 0 → (x.setS r v).s r = v) ∧ (∀ q, q ≠ r → (x.setS r v).s q = x.s q)) ∧
  (
  ∀ (v : W64) (lane : BitVec 2) (imm : W16) (i : Nat), i < 64 →
    (movkResult v lane.toNat imm).getLsbD i =
      if 16 * lane.toNat ≤ i ∧ i < 16 * lane.toNat + 16 then imm.getLsbD (i - 16 * lane.toNat) else v.getLsbD i)

/-- The arithmetic instructions complete when they are due: the destination takes the result, the program moves on by one word,
and nothing else changes (spec/08 R234).
Completion: gAlu, gAddi, gAndi, gOri, gXori, gShi, gSlti, gMovk. -/
def Obligations.GangerArithmetic : Prop :=
  ∀ (s : State) (core a : Nat) (x : Ctx) (rd ra rb : Reg) (imm : W16),
    (∀ fn, s.due core = some (a, x, .gAlu core rd ra rb fn) → ∃ t, exec (.gAlu core rd ra rb fn) s = .next t ∧
      GangerNext s t a core ((x.setS rd (aluResult fn (x.s ra) (x.s rb))).after (x.pc + 4))) ∧
    (s.due core = some (a, x, .gAddi core rd ra imm) → ∃ t, exec (.gAddi core rd ra imm) s = .next t ∧
      GangerNext s t a core ((x.setS rd (x.s ra + imm.signExtend 64)).after (x.pc + 4))) ∧
    (s.due core = some (a, x, .gAndi core rd ra imm) → ∃ t, exec (.gAndi core rd ra imm) s = .next t ∧
      GangerNext s t a core ((x.setS rd (x.s ra &&& imm.zeroExtend 64)).after (x.pc + 4))) ∧
    (s.due core = some (a, x, .gOri core rd ra imm) → ∃ t, exec (.gOri core rd ra imm) s = .next t ∧
      GangerNext s t a core ((x.setS rd (x.s ra ||| imm.zeroExtend 64)).after (x.pc + 4))) ∧
    (s.due core = some (a, x, .gXori core rd ra imm) → ∃ t, exec (.gXori core rd ra imm) s = .next t ∧
      GangerNext s t a core ((x.setS rd (x.s ra ^^^ imm.zeroExtend 64)).after (x.pc + 4))) ∧
    (∀ kind (n : BitVec 6), s.due core = some (a, x, .gShi core rd ra kind n) → ∃ t, exec (.gShi core rd ra kind n) s = .next t ∧
      GangerNext s t a core ((x.setS rd (shiftResult kind (x.s ra) n.toNat)).after (x.pc + 4))) ∧
    (s.due core = some (a, x, .gSlti core rd ra imm) → ∃ t, exec (.gSlti core rd ra imm) s = .next t ∧
      GangerNext s t a core ((x.setS rd (if (x.s ra).toInt < imm.toInt then 1 else 0)).after (x.pc + 4))) ∧
    (∀ lane : BitVec 2, s.due core = some (a, x, .gMovk core rd lane imm) → ∃ t, exec (.gMovk core rd lane imm) s = .next t ∧
      GangerNext s t a core ((x.setS rd (movkResult (x.s rd) lane.toNat imm)).after (x.pc + 4)))

/-- The loads complete on a readable page of the core's own slice that holds no poisoned word there: the register takes the
bytes, least significant first and extended with zeros, and nothing else changes but the core's translation cache (spec/07 R199, spec/08
R234, spec/09 R262). G.NLD loads a nest register from a well-formed image of 64 bytes, and changes nothing else (spec/07 R205, spec/08
R249).
Completion: gLdB, gLdH, gLdW, gLdD, gNld. -/
def Obligations.GangerLoads : Prop :=
  (
  ∀ (s : State) (core a : Nat) (x : Ctx) (rd ra : Reg) (off : W16),
    let result := fun (t : State) (n : Nat) =>
      GangerNext (s.translateVa a core (gAddress x ra off n) n) t a core
        ((x.setS rd (BitVec.ofNat 64 (ofLe (s.readVa a (gAddress x ra off n) n)))).after (x.pc + 4))
    let able := fun (n : Nat) =>
      s.gAccess a core (gAddress x ra off n) false = .ok ∧ s.poisonedVa a (gAddress x ra off n) n = false
    (s.due core = some (a, x, .gLdB core rd ra off) → able 1 → ∃ t, exec (.gLdB core rd ra off) s = .next t ∧ result t 1) ∧
    (s.due core = some (a, x, .gLdH core rd ra off) → able 2 → ∃ t, exec (.gLdH core rd ra off) s = .next t ∧ result t 2) ∧
    (s.due core = some (a, x, .gLdW core rd ra off) → able 4 → ∃ t, exec (.gLdW core rd ra off) s = .next t ∧ result t 4) ∧
    (s.due core = some (a, x, .gLdD core rd ra off) → able 8 → ∃ t, exec (.gLdD core rd ra off) s = .next t ∧ result t 8)) ∧
  (
  ∀ (s : State) (core a : Nat) (x : Ctx) (nest : BitVec 3) (ra : Reg) (off : W16),
    let va := gAddress x ra off 64
    s.due core = some (a, x, .gNld core nest ra off) → s.gAccess a core va false = .ok → s.poisonedVa a va 64 = false →
    nestBad (s.readVa a va 64) = false →
    ∃ t, exec (.gNld core nest ra off) s = .next t ∧
      GangerNext (s.translateVa a core va 64) t a core (({ x with nests := x.nests.set nest.toNat (nestOf (s.readVa a va 64)) } : Ctx).after (x.pc + 4)))

/-- The stores complete on a writable page of the core's own slice when no started operation of checked mode reads the bytes: the
bytes at the physical address of the effective address take the register's low bytes (those of a poisoned word that the store does not
cover are lost), every other byte of memory and every register stays, and a store of a tag-map word that holds VALID puts its entry in
force as well; the Green's waits in its context until its rows are free (spec/07 R199, R200, spec/09 R255, spec/10 R301). Where a load
or a store does not complete (spec/07 R199, R224, spec/10 R301, R311): an access outside the allotment's pages of the core's slice
halts the core with ACCESS_DENIED and changes nothing else; a store to a frozen page, one that checked mode refuses and a malformed
tag-map store are dropped and counted with FROZEN_TARGET, HAZARD and SHAPE_MISMATCH, and the program goes on; on a spilled page the
instruction waits. A store to a page without W halts (the model's choice, log entry 15). The core's translation cache follows the access (spec/09
R262).
Completion: gStB, gStH, gStW, gStD. -/
def Obligations.GangerStores : Prop :=
  ∀ (s : State) (core a : Nat) (x : Ctx) (r ra : Reg) (off : W16),
    (∀ f ∈ [(1, Instr.gLdB core r ra off), (2, .gLdH core r ra off), (4, .gLdW core r ra off), (8, .gLdD core r ra off)],
      s.due core = some (a, x, f.2) →
      let va := gAddress x ra off f.1
      (s.gAccess a core va false = .outside →
        exec f.2 s = .next ((s.translateVa a core va f.1).setCtx a core (x.stopped .accessDenied))) ∧
      (s.gAccess a core va false = .wait → exec f.2 s = .next s)) ∧
    (∀ f ∈ [(1, Instr.gStB core r ra off), (2, .gStH core r ra off), (4, .gStW core r ra off), (8, .gStD core r ra off)],
      s.due core = some (a, x, f.2) →
      let n := f.1
      let va := gAddress x ra off n
      let u := s.translateVa a core va n
      let bs := leBytes n (x.s r).toNat
      let meets := x.checked && rngsMeet [vaRng va n] ((engines.flatMap x.started).flatMap Footprint.reads)
      let dropped := fun (st : Status) => ∃ t, exec f.2 s = .next t ∧
        GangerNext u t a core ((x.note .ganger st (x.nextIndex .ganger)).after (x.pc + 4))
      let stored := fun (y : Ctx) => ∃ (t : State) (pa : Nat), exec f.2 s = .next t ∧ s.paOf a va = some pa ∧ SameOutside s t pa n ∧
        (s.poisonedRange pa n = false → HoldsBytes t pa bs ∧ t.poison = s.poison) ∧
        GangerNext { u with mem := t.mem, poison := t.poison } t a core (y.after (x.pc + 4))
      (s.gAccess a core va true = .outside → exec f.2 s = .next (u.setCtx a core (x.stopped .accessDenied))) ∧
      (s.gAccess a core va true = .wait → exec f.2 s = .next s) ∧
      (s.gAccess a core va true = .frozen → dropped .frozenTarget) ∧
      (s.gAccess a core va true = .ok → meets = true → ∃ (t v : State), exec f.2 s = .next t ∧ t = v.noteHazard a core ∧
        GangerNext u v a core ((x.note .ganger .hazard (x.nextIndex .ganger)).after (x.pc + 4))) ∧
      (s.gAccess a core va true = .ok → meets = false → s.tagMapHit a core va = none → stored x) ∧
      (∀ i, s.gAccess a core va true = .ok → meets = false → s.tagMapHit a core va = some i →
        let w := s.tagMapWord a core i va bs
        (s.tagMapRefused a core x i w = true → dropped .shapeMismatch) ∧
        (s.tagMapRefused a core x i w = false → s.isGreen a = false → stored (x.setTagMap i w)) ∧
        (s.tagMapRefused a core x i w = false → s.isGreen a = true →
          exec f.2 s = .next (u.setCtx a core { x with tagStore := some (i * 2 ^ 256 + w) }))))

/-- Branches, jumps and loops move the program counter and the loop stack, and nothing else (spec/07 R194, R198, R229, spec/08
R235; a target below offset 0 is the model's choice, log entry 16). A hardware loop takes its back edge until its count is spent,
and then goes on after its body (spec/07 R198).
Completion: gBCc, gJ, gLoop, gBrk. -/
def Obligations.GangerControl : Prop :=
  (
  ∀ (s : State) (core a : Nat) (x : Ctx),
    (∀ cc ra rb off, s.due core = some (a, x, .gBCc core cc ra rb off) →
      (ccHolds cc (x.s ra) (x.s rb) = false → ∃ t, exec (.gBCc core cc ra rb off) s = .next t ∧
        GangerNext s t a core (x.after (x.pc + 4))) ∧
      (ccHolds cc (x.s ra) (x.s rb) = true → x.branchIllegal ((x.pc : Int) + 4 * off.toInt) = false →
        ∃ t, exec (.gBCc core cc ra rb off) s = .next t ∧
          GangerNext s t a core { x.takeIndex .ganger with pc := x.target off.toInt })) ∧
    (∀ off, s.due core = some (a, x, .gJ core off) → x.branchIllegal ((x.pc : Int) + 4 * off.toInt) = false →
      ∃ t, exec (.gJ core off) s = .next t ∧ GangerNext s t a core { x.takeIndex .ganger with pc := x.target off.toInt }) ∧
    (∀ rc endOff, s.due core = some (a, x, .gLoop core rc endOff) → 2 ≤ endOff.toNat → x.loops.length < 4 →
      x.loopFits (x.pc + 4 * endOff.toNat) = true → ∃ t, exec (.gLoop core rc endOff) s = .next t ∧
        GangerNext s t a core
          (if (x.s rc).toNat % 2 ^ 32 = 0 then x.after (x.pc + 4 * endOff.toNat)
          else ({ x with loops := { body := x.pc + 4, stop := x.pc + 4 * endOff.toNat, left := (x.s rc).toNat % 2 ^ 32 } :: x.loops } :
            Ctx).after (x.pc + 4))) ∧
    (∀ l ls, s.due core = some (a, x, .gBrk core) → x.loops = l :: ls → ∃ t, exec (.gBrk core) s = .next t ∧
      GangerNext s t a core (({ x with loops := ls } : Ctx).after l.stop))) ∧
  (
  ∀ (x : Ctx) (l : HwLoop) (ls : List HwLoop), x.loops = l :: ls →
    (1 < l.left → x.goTo l.stop = { x with pc := l.body, loops := { l with left := l.left - 1 } :: ls }) ∧
    (l.left ≤ 1 → ls = [] → x.goTo l.stop = { x with pc := l.stop, loops := [] }) ∧
    (∀ pc, pc ≠ l.stop → x.goTo pc = { x with pc := pc }))

/-- G.WAIT blocks the Ganger, which stays as it is, until (counter - v) mod 2^32 is below 2^31, and then goes on; G.MSET writes a
counter, and increments that arrive afterward add to the written value; G.MRD reads a counter without waiting (spec/07 R212).
Completion: gWait, gMset, gMrd. -/
def Obligations.GangerMarks : Prop :=
  ∀ (s : State) (core a : Nat) (x : Ctx) (m : BitVec 6),
    (∀ v, s.due core = some (a, x, .gWait core m v) →
      ((x.mark m.toNat - waitValue x v).toNat < 2 ^ 31 → ∃ t, exec (.gWait core m v) s = .next t ∧
        GangerNext s t a core (x.after (x.pc + 4))) ∧
      (2 ^ 31 ≤ (x.mark m.toNat - waitValue x v).toNat → exec (.gWait core m v) s = .next s)) ∧
    (∀ ra, s.due core = some (a, x, .gMset core m ra) → ∃ t, exec (.gMset core m ra) s = .next t ∧
      GangerNext s t a core ((x.setMark m.toNat ((x.s ra).truncate 32)).after (x.pc + 4))) ∧
    (∀ v n, ((x.setMark m.toNat v).bumpMark (some m.toNat) n).mark m.toNat = v + BitVec.ofNat 32 n) ∧
    (∀ rd, s.due core = some (a, x, .gMrd core rd m) → ∃ t, exec (.gMrd core rd m) s = .next t ∧
      GangerNext s t a core ((x.setS rd ((x.mark m.toNat).zeroExtend 64)).after (x.pc + 4)))

/-- G.ESC reads one engine status register into a scalar register and clears it; a cleared register contributes OK to the choice
of R217 (spec/07 R218).
Completion: gEsc. -/
def Obligations.GangerStatusRead : Prop :=
  ∀ (s : State) (core a : Nat) (x : Ctx) (rd : Reg) (e : Engine), s.due core = some (a, x, .gEsc core rd e) →
    let y : Ctx := { x with estat := x.estat.set (engineNo e) {} }
    (∃ t, exec (.gEsc core rd e) s = .next t ∧ GangerNext s t a core ((y.setS rd (x.est e).word).after (x.pc + 4))) ∧
      y.est e = {} ∧ (y.est e).first = .ok ∧ (∀ f, engineNo f ≠ engineNo e → y.est f = x.est f)

/-- G.PRING moves the pass ring to a range of 2,048 bytes aligned to its size in the core's own writable Loft pages; naming any
other range halts the core with ACCESS_DENIED, and the ring stays where it was (spec/07 R219, R220).
Completion: gPring. -/
def Obligations.GangerPassRing : Prop :=
  ∀ (s : State) (core a : Nat) (x : Ctx) (ra : Reg), s.due core = some (a, x, .gPring core ra) →
    let va := (x.s ra).toNat
    let win := windowVa (s.coreIndex a core)
    let good := va % 2048 == 0 && decide (win ≤ va) && decide (va < win + windowSize) &&
      s.allPages a va 2048 (fun _ d => d.w && !d.frozen && !d.draw)
    (good = true → ∃ t, exec (.gPring core ra) s = .next t ∧
      GangerNext s t a core (({ x with passRing := va - win } : Ctx).after (x.pc + 4))) ∧
    (good = false → exec (.gPring core ra) s = .next (s.setCtx a core (x.stopped .accessDenied)))

/-- The forms of G.PROV complete: OPEN starts a new instance of an epoch that is not open; CONFIRM closes the open one and adds
its completed ring copies to the rings; CANCEL closes it, drops its operations that have not started and keeps their marks for
the end of its zeroing (spec/07 R225 to R228; that it keeps them, and that the ranges zeroed are those still writable then, is the model's
reading, log entry 18). An epoch that is closed releases its ranges once its operations have completed: a
confirmed one leaves with nothing written (spec/07 R227); a cancelled one has its ranges zeroed as far as they are writable and its marks
incremented (R228, log entry 18).
Completion: gProvOpen, gProvConfirm, gProvCancel, provRangesRelease. -/
def Obligations.GangerEpochs : Prop :=
  (
  ∀ (s : State) (core a : Nat) (x : Ctx) (e : BitVec 2),
    (s.due core = some (a, x, .gProvOpen core e) → x.openEpoch e.toNat = none → ∃ t, exec (.gProvOpen core e) s = .next t ∧
      GangerNext s t a core
        (({ x with epochs := { e := e.toNat, serial := x.epochSerial } :: x.epochs, epochSerial := x.epochSerial + 1 } : Ctx).after
          (x.pc + 4))) ∧
    (∀ p, s.due core = some (a, x, .gProvConfirm core e) → x.openEpoch e.toNat = some p →
      ∃ t, exec (.gProvConfirm core e) s = .next t ∧
        GangerNext s t a core
          (((x.modEpoch p.serial (fun q => { q with state := .confirmed, ringBytes := [] })).addRingBytes p.ringBytes).after (x.pc + 4))) ∧
    (∀ p, s.due core = some (a, x, .gProvCancel core e) → x.openEpoch e.toNat = some p →
      ∃ (t : State) (y : Ctx), exec (.gProvCancel core e) s = .next t ∧ GangerNext s t a core (y.after (x.pc + 4)) ∧
        y.trowelQ = x.trowelQ.filter (fun q => q.epoch != some p.serial) ∧
        y.epochs = x.epochs.map (fun g => if g.serial = p.serial then
          { g with state := .cancelled, ringBytes := []
                   marks := (x.trowelQ.filter (fun q => q.epoch == some p.serial)).flatMap (s.pendingMarks a core) } else g) ∧
        y = { x with trowelQ := y.trowelQ, epochs := y.epochs })) ∧
  (
  ∀ (s : State) (a core : Nat) (e : BitVec 2) (x : Ctx) (p : Epoch), s.ctx? a core = some x →
    x.epochs.reverse.find? (fun g => g.e == e.toNat && g.state != .opened && !x.epochBusy g.serial) = some p →
    let y : Ctx := { x with epochs := x.epochs.filter (fun g => g.serial != p.serial) }
    (p.state = .confirmed → exec (.provRangesRelease a core e) s = .next (s.setCtx a core y)) ∧
    (p.state = .cancelled →
      exec (.provRangesRelease a core e) s =
        .next (p.marks.foldl (fun t (m : Nat) => t.modCtx a (m / 64) (fun z => z.bumpMark (some (m % 64))))
          ((s.setCtx a core y).zeroRngs a core (s.writableRngs a core (p.ranges.map ProvRng.rng))))))

/-- The G.TALLY forms absorb 1, 2 or 4 bytes of a register, start the register anew with a prefix, or read the value (spec/09
R278, R283); a START with a nonzero top byte is no prefix, and halts the core with SHAPE_MISMATCH. The Tally is CRC-32C: it
absorbs bits least significant first into a reflected register of the polynomial 0x1EDC_6F41 that starts at 0xFFFF_FFFF, and its
value is the register after a final XOR with 0xFFFF_FFFF (spec/09 R278).
Completion: gTallyB, gTallyH, gTallyW, gTallyS, gTallyR. -/
def Obligations.GangerTally : Prop :=
  (
  ∀ (s : State) (core a : Nat) (x : Ctx) (r : Reg),
    (s.due core = some (a, x, .gTallyB core r) → ∃ t, exec (.gTallyB core r) s = .next t ∧
      GangerNext s t a core (({ x with tally := crcBytes x.tally (leBytes 1 (x.s r).toNat) } : Ctx).after (x.pc + 4))) ∧
    (s.due core = some (a, x, .gTallyH core r) → ∃ t, exec (.gTallyH core r) s = .next t ∧
      GangerNext s t a core (({ x with tally := crcBytes x.tally (leBytes 2 (x.s r).toNat) } : Ctx).after (x.pc + 4))) ∧
    (s.due core = some (a, x, .gTallyW core r) → ∃ t, exec (.gTallyW core r) s = .next t ∧
      GangerNext s t a core (({ x with tally := crcBytes x.tally (leBytes 4 (x.s r).toNat) } : Ctx).after (x.pc + 4))) ∧
    (s.due core = some (a, x, .gTallyS core r) → (x.s r).toNat < 2 ^ 56 → ∃ t, exec (.gTallyS core r) s = .next t ∧
      GangerNext s t a core
        (({ x with tally := crcBytes 0xFFFFFFFF (leBytes 8 (a % 256 + (x.s r).toNat * 256)) } : Ctx).after (x.pc + 4))) ∧
    (s.due core = some (a, x, .gTallyS core r) → 2 ^ 56 ≤ (x.s r).toNat → exec (.gTallyS core r) s =
      .next (s.setCtx a core ((x.note .ganger .shapeMismatch (x.nextIndex .ganger)).stopped .shapeMismatch))) ∧
    (s.due core = some (a, x, .gTallyR core r) → ∃ t, exec (.gTallyR core r) s = .next t ∧
      GangerNext s t a core ((x.setS r ((crcValue x.tally).zeroExtend 64)).after (x.pc + 4)))) ∧
  (
  (∀ (crc : Nat) (l m : List Byte), crcBytes crc (l ++ m) = crcBytes (crcBytes crc l) m) ∧
    crcValue (crcBytes 0xFFFFFFFF [0x31, 0x32, 0x33, 0x34, 0x35, 0x36, 0x37, 0x38, 0x39]) = 0xE3069283 ∧
    crcValue (crcBytes 0xFFFFFFFF []) = 0 ∧
    (∀ (a f : Nat) (bs : List Byte), tally a f bs = crcValue (crcBytes 0xFFFFFFFF (leBytes 8 (a % 256 + f * 256) ++ bs))))

/-- G.TIME reads the device timer; G.POST posts a completion with the register as its cookie to the stream that the program runs
from while fewer than 256 wait there; G.SWAP goes on in the other bank, with no loops, at any offset below the image length (one that is
no multiple of 4 is log entry 106's choice); G.HALT stops fetch with OK (spec/07 R191, R194, R197, spec/17 R499).
Completion: gTime, gPost, gSwap, gHalt. -/
def Obligations.GangerTimerPostSwapHalt : Prop :=
  ∀ (s : State) (core a : Nat) (x : Ctx) (r : Reg),
    (s.due core = some (a, x, .gTime core r) → ∃ t, exec (.gTime core r) s = .next t ∧
      GangerNext s t a core ((x.setS r (BitVec.ofNat 64 s.timer)).after (x.pc + 4))) ∧
    (∀ id k, s.due core = some (a, x, .gPost core r) → x.current = some id → (s.allot a).cmds.find id = some k →
      (s.stream a k.stream).waiting.length < 256 →
      exec (.gPost core r) s = .next ((s.moveOn a core x (x.pc + 4)).post a k.stream
        { cookie := (x.s r).toNat, kind := 0x2, core := s.coreIndex a core })) ∧
    (∀ b, s.due core = some (a, x, .gSwap core r) → x.src = .bank b → (Tbl.get {} x.banks (1 - b) : Bank).loading = false →
      (x.s r).toNat < (Tbl.get {} x.banks (1 - b) : Bank).len →
      exec (.gSwap core r) s =
        .next (s.setCtx a core { x.takeIndex .ganger with src := .bank (1 - b), pc := (x.s r).toNat, loops := [] })) ∧
    (s.due core = some (a, x, .gHalt core) → exec (.gHalt core) s = .next (s.setCtx a core (x.stopped .ok)))

/-- G.ADDR and G.ADDR2 push their entries at the end of the address FIFO when it has room for them and every index names a
readable page or a zero entry; without room they wait (spec/07 R207 to R209, spec/08 R251). The core's translation cache follows the
addresses (spec/09 R262).
Completion: gAddr, gAddr2. -/
def Obligations.GangerAddressFifo : Prop :=
  ∀ (s : State) (core a : Nat) (x : Ctx) (rb ri : Reg) (sh : BitVec 4),
    let seen := fun (e : FifoEntry) (t : State) => match e with
      | none => t
      | some va => t.translateVa a core va 1
    let entry := fun (i : Nat) => s.fifoEntry a (x.s rb).toNat i sh.toNat
    let lo := fld (x.s ri).toNat 31 0
    let hi := fld (x.s ri).toNat 63 32
    (∀ e, s.due core = some (a, x, .gAddr core rb ri sh) → entry lo = some e →
      (x.fifo.length < 64 → ∃ t, exec (.gAddr core rb ri sh) s = .next t ∧
        GangerNext (seen e s) t a core (({ x with fifo := x.fifo ++ [e] } : Ctx).after (x.pc + 4))) ∧
      (64 ≤ x.fifo.length → exec (.gAddr core rb ri sh) s = .next s)) ∧
    (∀ e f, s.due core = some (a, x, .gAddr2 core rb ri sh) → entry lo = some e → entry hi = some f →
      (x.fifo.length < 63 → ∃ t, exec (.gAddr2 core rb ri sh) s = .next t ∧
        GangerNext (seen f (seen e s)) t a core (({ x with fifo := x.fifo ++ [e, f] } : Ctx).after (x.pc + 4))) ∧
      (63 ≤ x.fifo.length → exec (.gAddr2 core rb ri sh) s = .next s))

/-- An illegal word halts the core with SHAPE_MISMATCH, which the Ganger's register records; a fetch past the image halts it with
ACCESS_DENIED (spec/07 R192, spec/08 R232, R237). A Ganger instruction that is not the one due on its core names no event of the
state, and changes nothing (the model's choice, log entry 3). Once every operation of a stopping program has completed, the core
is halted: while the set of allotments on it stays as it is and no block is kept in the instruction queue, its program is halted
with an empty FIFO and no loops (spec/07 R197, R541). Before that nothing happens.
Completion: gangerIllegalWord, bankFetchPastImage, coreHaltComplete. -/
def Obligations.GangerStops : Prop :=
  (
  ∀ (s : State) (core a : Nat) (x : Ctx),
    (s.due core = some (a, x, .gangerIllegalWord core) →
      exec (.gangerIllegalWord core) s =
        .next (s.setCtx a core ((x.note .ganger .shapeMismatch (x.nextIndex .ganger)).stopped .shapeMismatch))) ∧
    (s.due core = some (a, x, .bankFetchPastImage core) →
      exec (.bankFetchPastImage core) s = .next (s.setCtx a core { x with run := .stopping .accessDenied }))) ∧
  (
  ∀ (s : State) (i : Instr) (core : Nat), i.fetchCore = some core → (∀ a x, s.due core ≠ some (a, x, i)) →
    exec i s = .next s) ∧
  (
  ∀ (s : State) (core a : Nat) (x : Ctx) (st : Status), s.resident core = some (a, x) → x.run = .stopping st →
    (x.quiet = false → exec (.coreHaltComplete core) s = .next s) ∧
    (x.quiet = true → (x.abrupt = true ∨ x.src ≠ .queue ∨ x.iq.length ≤ 1) → s.listedOn core = s.coreAllots core →
      (∀ p ∈ x.epochs, ∀ m ∈ p.marks, m / 64 ∈ s.allotCores a) →
      ∃ t, exec (.coreHaltComplete core) s = .next t ∧ (t.ctx a core).run = .halted ∧ (t.ctx a core).fifo = [] ∧
        (t.ctx a core).loops = [] ∧ (t.ctx a core).sregs = x.sregs ∧ (t.ctx a core).tub = x.tub))

/-- Engine instructions enter the queue of their engine in program order while it has room, with the registers and the nest
register as they stand; the program moves on by four words, and nothing else changes. A full queue stalls the Ganger (spec/07
R195, R205, spec/08 R238). While an epoch is open, a Trowel instruction belongs to it and takes its destination ranges; one that takes some
stalls while those taken, those that earlier operations still claim, and its own exceed 64 (spec/07 R225, R226, spec/19 R535).
Completion: lLoad, lLoadT, lPass, lPasso, lSplit, sCvt, sFma, sExp, sSmax, sTopk, sRed, tCopy, tGather, tScatter, mContrib,
mPublish. -/
def Obligations.EngineIssue : Prop :=
  ∀ (s : State) (core a : Nat) (x : Ctx) (w : W128),
    (∀ i ∈ [Instr.lLoad core w, .lLoadT core w, .lPass core w, .lPasso core w, .lSplit core w], s.due core = some (a, x, i) →
      (x.lathQ.length < 64 → ∃ t, exec i s = .next t ∧
        GangerNext s t a core (({ x with lathQ := x.lathQ ++ [x.entry w], issued := x.issued + 1 } : Ctx).after (x.pc + 16))) ∧
      (64 ≤ x.lathQ.length → exec i s = .next s)) ∧
    (∀ i ∈ [Instr.sCvt core w, .sFma core w, .sExp core w, .sSmax core w, .sTopk core w, .sRed core w], s.due core = some (a, x, i) →
      (x.skimQ.length < 64 → ∃ t, exec i s = .next t ∧
        GangerNext s t a core (({ x with skimQ := x.skimQ ++ [x.entry w], issued := x.issued + 1 } : Ctx).after (x.pc + 16))) ∧
      (64 ≤ x.skimQ.length → exec i s = .next s)) ∧
    (∀ i ∈ [Instr.mContrib core w, .mPublish core w], s.due core = some (a, x, i) →
      (x.mootQ.length < 64 → ∃ t, exec i s = .next t ∧
        GangerNext s t a core (({ x with mootQ := x.mootQ ++ [x.entry w], issued := x.issued + 1 } : Ctx).after (x.pc + 16))) ∧
      (64 ≤ x.mootQ.length → exec i s = .next s)) ∧
    (∀ i ∈ [Instr.tCopy core w, .tGather core w, .tScatter core w], s.due core = some (a, x, i) →
      (64 ≤ x.trowelQ.length → exec i s = .next s) ∧
      (x.trowelQ.length < 64 → x.topEpoch = none → ∃ t, exec i s = .next t ∧
        GangerNext s t a core (({ x with trowelQ := x.trowelQ ++ [x.entry w], issued := x.issued + 1 } : Ctx).after (x.pc + 16))) ∧
      (∀ p, x.trowelQ.length < 64 → x.topEpoch = some p →
        let q : QOp := { x.entry w with epoch := some p.serial }
        (q.tIterDst ≠ [] → 64 < x.provUsed + s.rangeClaims a core x + q.tIterDst.length → exec i s = .next s) ∧
        ((q.tIterDst = [] ∨ x.provUsed + s.rangeClaims a core x + q.tIterDst.length ≤ 64) → ∃ t, exec i s = .next t ∧
          GangerNext s t a core
            (({ x with
                trowelQ := x.trowelQ ++ [q], issued := x.issued + 1
                epochs := x.epochs.map (fun e => if e.serial = p.serial then
                  { e with ranges := e.ranges ++ q.tIterDst.map (fun r => ({ issue := q.issue, iter := r.1, rng := r.2 } : ProvRng)) }
                  else e) } : Ctx).after (x.pc + 16)))))

/-! ### The Lath (spec/04, spec/05) -/

/-- The head of the Lath queue is checked once, by the model's own timing of the check (log entries 19 and 102): a head with a spilled
page, one beyond 192 started passes and loads, and one whose operands lie in a held range wait, and nothing changes; an accepted head
waits for its start with its split pass table read (spec/04 R100, spec/05 R126, spec/07 R201, R226). A refused pass leaves the queue for
its place in pass order; a refused load or split waits at the head for that place, and completes there (spec/07 R202, log entry 105).
What a refusal does: a load marks its shadow and increments its mark (spec/04 R96), a split or a reserved code increments its mark, and a
pass takes its index, and writes its record and increments its mark once nothing runs ahead of it (spec/04 R112, R113). A weight load
starts when no other runs, no ring copy has started, its Hawk bytes are free of held ranges and the scoreboard has room: the tile
stands in its shadow weights, and the load reads the Hawk until LOAD_DONE, which increments its mark and lets the passes behind it
complete (spec/04 R91 to R95); else it waits. The active weights and the Tub stay.
Completion: lathQueueHead, loadStart, loadDone. -/
def Obligations.LathLoads : Prop :=
  (
  ∀ (s : State) (core a : Nat) (x : Ctx) (q : QOp) (rest : List QOp), s.onCore core = some (a, x) → x.lathQ = q :: rest →
    let table := s.splitTable a core x q
    let t := s.translate a core { reads := x.headReads q }
    (x.lathHead = none →
      (s.lathSpilled a core x q = true ∨ 192 ≤ x.lathStarted ∨ x.mustWait q { reads := x.headRngs q table } = true →
        exec (.lathQueueHead core) s = .next s) ∧
      (s.lathSpilled a core x q = false → x.lathStarted < 192 → x.mustWait q { reads := x.headRngs q table } = false →
        (s.lathRefusal a core x q table = none →
          exec (.lathQueueHead core) s = .next (t.setCtx a core { x with lathHead := some { table := table } })) ∧
        (∀ st, s.lathRefusal a core x q table = some st →
          ((q.op = 3 ∨ q.op = 4 ∨ x.lathTurn = true) → exec (.lathQueueHead core) s = .next (t.refuseLath a core x q table st)) ∧
          (q.op ≠ 3 → q.op ≠ 4 → x.lathTurn = false → exec (.lathQueueHead core) s =
            .next (t.setCtx a core { x with lathHead := some { table := table, refused := some st } }))))) ∧
    (∀ h, x.lathHead = some h →
      (h.refused = none → exec (.lathQueueHead core) s = .next s) ∧
      (∀ st, h.refused = some st →
        (x.lathTurn = false → exec (.lathQueueHead core) s = .next s) ∧
        (x.lathTurn = true → exec (.lathQueueHead core) s = .next (s.refuseLath a core x q h.table st))))) ∧
  (
  ∀ (s : State) (core a : Nat) (x : Ctx) (q : QOp) (table : List Byte) (st : Status), st ≠ .hazard →
    ((q.op = 1 ∨ q.op = 2) →
      ∃ y : Ctx, s.refuseLath a core x q table st = (s.setCtx a core y).petWatchdog a ∧ y.lathQ = takeIter x.lathQ ∧ y.lathHead = none ∧
        y.active = x.active ∧ y.tub = x.tub ∧ y.passes = x.passes ∧ y.load = x.load ∧
        y.est .lath = (x.est .lath).note st (x.nextIndex .lath) ∧ (∀ m, q.mark = some m → y.mark m = x.mark m + 1) ∧
        (q.mark = none → y.marks = x.marks) ∧ (q.loadSub < x.q * x.q → y.shadow.find q.loadSub = some (.invalid st))) ∧
    ((q.op = 3 ∨ q.op = 4) →
      let p : PassRun := { x.newPass q (q.op == 4) table with status := some st }
      let y : Ctx := { x.takeLath.takePass with passes := x.passes ++ [p] }
      p.pidx = x.passIndex ∧ y.passIndex = (x.passIndex + 1) % 2 ^ 24 ∧ y.lathQ = takeIter x.lathQ ∧ y.marks = x.marks ∧ y.tub = x.tub ∧
        (∀ p0 ps, x.passes = p0 :: ps → p0.status = none → s.refuseLath a core x q table st = s.setCtx a core y) ∧
        (x.passes = [] → x.load = none →
          s.refuseLath a core x q table st = ((s.setCtx a core { y with passes := [] }).writeRecord a core p st q.mark).petWatchdog a)) ∧
    (q.op ≠ 1 → q.op ≠ 2 → q.op ≠ 3 → q.op ≠ 4 →
      ∃ y : Ctx, s.refuseLath a core x q table st = (s.setCtx a core y).petWatchdog a ∧ y.lathQ = takeIter x.lathQ ∧ y.lathHead = none ∧
        y.split = x.split ∧ y.active = x.active ∧ y.shadow = x.shadow ∧ y.tub = x.tub ∧
        y.est .lath = (x.est .lath).note st (x.nextIndex .lath) ∧ (∀ m, q.mark = some m → y.mark m = x.mark m + 1) ∧
        (q.mark = none → y.marks = x.marks))) ∧
  (
  ∀ (s : State) (core a : Nat) (x : Ctx),
    (∀ q table (t : Tile) off, s.lathReady core = some (a, x, q, table) → (q.op = 1 ∨ q.op = 2) →
      q.loadTile = some t → natOf q.loadOff = some off →
      let held := x.load != none || x.ringUse || decide (192 ≤ x.lathStarted) || x.mustWait q { reads := q.loadRng } ||
        !x.boardRoom (s.windowOf a core) { reads := q.loadRng }
      (held = true → exec (.loadStart core) s = .next s) ∧
      (held = false →
        ∃ (y : Ctx) (l : LoadRun), exec (.loadStart core) s = .next (s.setCtx a core y) ∧ y.load = some l ∧ l.q = q ∧ l.hoff = off ∧
          y.shadow.find q.loadSub = some (.tile (s.tileFrom core x t off)) ∧ (∀ k, k ≠ q.loadSub → y.shadow.find k = x.shadow.find k) ∧
          y.active = x.active ∧ y.tub = x.tub ∧ y.marks = x.marks ∧ y.lathQ = takeIter x.lathQ ∧ y.passes = x.passes)) ∧
    (∀ l, s.resident core = some (a, x) → x.load = some l →
      ∃ y : Ctx, exec (.loadDone core) s = .next (((s.setCtx a core y).petWatchdog a).drainPasses a core x.passes.length) ∧
        y.load = none ∧ y.passes = x.passes.map (fun (p : PassRun) => { p with behindLoad := false }) ∧ y.shadow = x.shadow ∧
        y.active = x.active ∧ y.tub = x.tub ∧ (∀ m, l.q.mark = some m → y.mark m = x.mark m + 1) ∧ (l.q.mark = none → y.marks = x.marks)))

/-- A pass that nothing holds back starts: it takes the next pass index, its results stand as its wet face, which PassRun.take forms of
the elements of every stream of its plan, and the Tub keeps its dry values; under SWAP the loaded shadow tiles become the active ones
(spec/04 R97, R102, R103, R105, R113, spec/05 R125). A pass that is held back waits, one that checked mode refuses ends with HAZARD
(spec/07 R224), and one of whose pages is gone takes the fault (spec/04 R117). The operands are read at the start (the model's choice,
log entry 20). An element of a stream is dot over its row and its column, from the value that stands there, or from 0 under CLEAR
(spec/03 R65). What dot gives: without products the initial value; of integers under the wrap policy the sum modulo 2^32, and of up to
eight, one segment, the sum that saturates at the ends of INT32 (R73); of floats the canonical NaN when a NaN goes in (R74), and in a
chain of one product its rounding added to the initial value (R65, R69).
Completion: passStart. -/
def Obligations.PassStarts : Prop :=
  (
  ∀ (s : State) (core a : Nat) (x : Ctx) (q : QOp) (table : List Byte) (p : PassPlan) (chainWait : Bool),
    s.lathReady core = some (a, x, q, table) → q.op = 3 → x.passShape q table = .ok p →
    let fp := p.footprint x q
    let held := (p.swap && x.load != none) || x.startedPasses.any (fun r => r.passo) ||
      (decide (p.dEff < x.lastDEff) && !x.startedPasses.isEmpty) || (p.hawkFed && x.ringUse) || decide (192 ≤ x.lathStarted) ||
      x.mustWait q fp || !x.boardRoom (s.windowOf a core) fp
    let gone := s.goneIn a (p.ents.flatMap (fun e => e.readRngs p.afmt p.ablk))
    let outs := p.used.flatMap (s.entOuts a core x p) ++ (p.ents.filter (fun e => e.m != 0 && e.k == 0)).flatMap (s.entOuts a core x p)
    (held = true → exec (.passStart core chainWait) s = .next s) ∧
    (held = false → x.hazard (s.windowOf a core) .lath fp = true →
      exec (.passStart core chainWait) s = .next (s.refusePass a core x q false table .hazard)) ∧
    (∀ va, held = false → x.hazard (s.windowOf a core) .lath fp = false → gone = some va →
      ∃ r : PassRun, exec (.passStart core chainWait) s = .next (s.faultAtStart a core x r va) ∧ r.pidx = x.passIndex ∧ r.q = q) ∧
    (held = false → x.hazard (s.windowOf a core) .lath fp = false → gone = none →
      ∃ (y : Ctx) (r : PassRun), exec (.passStart core chainWait) s = .next ((s.translate a core fp).setCtx a core y) ∧
        y.passes = x.passes ++ [r] ∧ r.wet = ((x.newPass q false table).take outs (maskCol x p.ents)).wet ∧
        r.mask = ((x.newPass q false table).take outs (maskCol x p.ents)).mask ∧ r.ev = Ev.sum (outs.map ElemOut.ev) ∧
        r.invalidCount = (outs.filter (fun o => o.cls == .invalid)).length ∧
        r.status = none ∧ r.pidx = x.passIndex ∧ r.q = q ∧ r.ring = x.passRing ∧ r.chainWait = chainWait ∧ r.clear = p.clear ∧ r.fp = fp ∧
        y.passIndex = (x.passIndex + 1) % 2 ^ 24 ∧ y.tub = x.tub ∧ y.marks = x.marks ∧ y.lathQ = takeIter x.lathQ ∧
        y.active = (x.swapWeights p.swap).active ∧ y.shadow = (x.swapWeights p.swap).shadow ∧
        (p.swap = false → y.active = x.active ∧ y.shadow = x.shadow) ∧ (p.swap = true → y.shadow = []) ∧
        y.skims = x.skims ∧ y.trowels = x.trowels ∧ y.pages = x.pages)) ∧
  (
  ∀ (s : State) (core a : Nat) (x : Ctx) (p : PassPlan) (e : PEnt),
    (∀ (run : PassRun) (outs : List ElemOut) (col : Nat → Nat) (k : Nat),
      ((run.take outs col).wet).find k = match outs.reverse.find? (fun o => o.key == k) with
        | some o => some o.elem
        | none => run.wet.find k) ∧
    (∀ (m n : Nat), m < e.m → n < e.tile.n →
      ∃ o ∈ s.entOuts a core x p e, o.key = tubKey e.lath (e.base + m / e.fold) (e.col0 + m % e.fold * (128 / e.fold) + n) ∧
        o.elem.v = (dot e.tile.fmt p.afmt p.wrap (if p.clear then 0 else (x.forwarded o.key).v)
          ((actVals p.afmt (s.actRow a core x p.afmt p.ablk e m).1).zip ((List.range e.k).map (fun k => e.tile.val k n)))).acc)) ∧
  (
  ∀ (w f : Fmt) (init : W32) (ps : List (Val × Val)),
    let exact := ((ps.map (fun p => Val.toInt p.1 * Val.toInt p.2)).foldl (· + ·) (0 : Int))
    (∀ wrap, (dot w f wrap init []).acc = init) ∧
    (intChain w f = true → (dot w f true init ps).acc = init + BitVec.ofInt 32 exact) ∧
    (intChain w f = true → ps.length ≤ 8 →
      (dot w f false init ps).acc.toInt = max (-2147483648) (min 2147483647 (init.toInt + exact))) ∧
    (∀ wrap, intChain w f = false → isNan32 init = true → ps ≠ [] → (dot w f wrap init ps).acc = nan32) ∧
    (∀ wrap, intChain w f = false → (∃ p ∈ ps, p.1 = .nan ∨ p.2 = .nan) → (dot w f wrap init ps).acc = nan32) ∧
    (∀ wrap d e, segLen w = 1 → intChain w f = false → isNan32 init = false →
      (dot w f wrap init [(.fin d, .fin e)]).acc = (addF32 init (segRound 1 (d.mul e)).1).1))

/-- The oldest started pass, once its results are final, no load ahead of it runs and no poisoned word has touched it, commits all of
them: the Tub takes the wet face, and nothing of it before; its counts are added, its record is written and its mark incremented (spec/04
R105, R106, R108, R112); a pass that is not final, or that a load ahead holds up (spec/07 R202, log entry 105), does not commit. The Tub
after a commit: an element of the wet face has its new value, every other one the old (spec/04 R106). A record goes to the pass's place in
the ring, and its mark is incremented with it; on a spilled page both wait; on one that cannot be written the record is counted instead
(R112, R113).
Completion: passCommit. -/
def Obligations.PassCommits : Prop :=
  (
  ∀ (s : State) (core a : Nat) (x : Ctx) (p0 : PassRun) (rest : List PassRun),
    s.resident core = some (a, x) → x.passes = p0 :: rest →
    (p0.final = none → exec (.passCommit core) s = .next s) ∧
    (∀ p, p0.final = some p → p.behindLoad = true → exec (.passCommit core) s = .next s) ∧
    (∀ p, p0.final = some p → p.behindLoad = false → p.status = none → p.poisoned = true →
      exec (.passCommit core) s = .next (s.takeFault a core .lath .poison p.poisonAt p.idx)) ∧
    (∀ p, p0.final = some p → p.behindLoad = false → p.status = none → p.poisoned = false →
      ∃ t, exec (.passCommit core) s = .next t ∧
        t = ((((((s.setCtx a core { x.commitWet p.wet with passes := rest }).count a p.ev).perf a 1 p.steps).perf a 2 1).writeRecord a core p .ok
          p.q.mark).petWatchdog a).drainPasses a core rest.length ∧ (t.ctx a core).tub = (x.commitWet p.wet).tub ∧
        (t.ctx a core).touched = (x.commitWet p.wet).touched ∧ (t.ctx a core).active = x.active ∧
        (t.ctx a core).shadow = x.shadow ∧ (t.ctx a core).lathQ = x.lathQ ∧ (t.ctx a core).tiles = x.tiles ∧
        (t.ctx a core).sregs = x.sregs ∧ t.cores = s.cores ∧ t.hbmPages = s.hbmPages)) ∧
  (
  ∀ (s : State) (a core : Nat) (p : PassRun) (st : Status) (mark : Option Nat),
    let x := s.ctx a core
    let y := x.note .lath st p.idx
    let off := p.ring + p.pidx % 64 * 32
    (passRecord a p st).length = 32 ∧
    (∀ m, (y.bumpMark (some m)).mark m = x.mark m + 1) ∧
    (∀ d, Tbl.find x.pages (off / 0x10000) = some d → d.spilled = false → d.frozen = false → d.w = true →
      s.writeRecord a core p st mark =
        ((s.setCtx a core y).writeVa a (windowVa (s.coreIndex a core) + off) (passRecord a p st)).setCtx a core (y.bumpMark mark)) ∧
    (∀ d, Tbl.find x.pages (off / 0x10000) = some d → d.spilled = true → s.writeRecord a core p st mark = (s.setCtx a core y).setCtx a core
      { y with heldRecords := y.heldRecords ++ [{ off := off, bytes := passRecord a p st, idx := p.idx, mark := mark }] }) ∧
    (∀ d, Tbl.find x.pages (off / 0x10000) = some d → d.spilled = false → d.frozen = true →
      s.writeRecord a core p st mark = (s.setCtx a core y).setCtx a core ((y.note .lath .frozenTarget p.idx).bumpMark mark)) ∧
    (Tbl.find x.pages (off / 0x10000) = none →
      s.writeRecord a core p st mark = (s.setCtx a core y).setCtx a core ((y.note .lath .accessDenied p.idx).bumpMark mark))) ∧
  (
  ∀ (x : Ctx) (wet : Tbl TubElem), wet.keys.Nodup →
    (∀ k e, wet.find k = some e → Tbl.get {} (x.commitWet wet).tub k = e) ∧
    (∀ k, wet.find k = none → Tbl.get {} (x.commitWet wet).tub k = Tbl.get {} x.tub k))

/-- An output-stationary pass starts when every earlier pass has committed and nothing holds it back: the active and shadow
weights are emptied (spec/05 R143 to R146). It then takes its chunks when every ring that it reads holds a whole one; while one
does not, nothing happens: each ring's drain moves on by a chunk, and its bytes join those taken (spec/08 R244, R245). In the Green, a
transposed pass whose next chunk holds bytes of a Larder page ends there with ACCESS_DENIED (spec/11 R339; that it is judged at the chunk
is the model's choice, log entry 91). L.SPLIT waits in the Lath queue until every earlier pass has committed and no
load runs; it then sets the split, marks the active and shadow weights as empty and increments its mark (spec/05 R123).
Completion: passoStart, osChunkReady, splitApply. -/
def Obligations.OutputStationary : Prop :=
  (
  ∀ (s : State) (core a : Nat) (x : Ctx),
    (∀ q table p, s.lathReady core = some (a, x, q, table) → q.op = 4 → q.passoShape = .ok p →
      x.startedPasses = [] → x.load = none → x.mustWait q { p.footprint with reads := p.footprint.reads ++ p.ringReads x } = false →
      x.boardRoom (s.windowOf a core) p.footprint = true → x.hazard (s.windowOf a core) .lath p.footprint = false →
      s.goneIn a p.footprint.reads = none →
      ∃ (y : Ctx) (r : PassRun), exec (.passoStart core) s = .next ((s.translate a core p.footprint).setCtx a core y) ∧ y.passes = x.passes ++ [r] ∧
        r.passo = true ∧ r.status = none ∧ r.pidx = x.passIndex ∧ y.active = [] ∧ y.shadow = [] ∧ y.tub = x.tub ∧
        y.marks = x.marks ∧ y.rings = x.rings) ∧
    (∀ p rest o, s.resident core = some (a, x) → x.passes = p :: rest → p.os = some o →
      let size := chunkBytes p.q.osShape.2.1 p.q.osShape.2.2.1 p.q.osShape.2.2.2.2.2.1
      let barred := o.chunksLeft != 0 && p.q.osShape.2.2.2.2.2.2.1 && s.isGreen a && s.ringsOwned core x p.q.osRings (fun _ => 0) size
      (barred = true → exec (.osChunkReady core) s = .next
        ((s.setCtx a core { x with passes := { p with status := some .accessDenied, os := none, wet := [], fp := {} } :: rest }).drainPasses
          a core x.passes.length)) ∧
      (barred = false → (o.chunksLeft = 0 ∨ ∃ r ∈ p.q.osRings, (x.ring r).fill - (x.ring r).drain < size) →
        exec (.osChunkReady core) s = .next s) ∧
      (barred = false → o.chunksLeft ≠ 0 → (∀ r ∈ p.q.osRings, size ≤ (x.ring r).fill - (x.ring r).drain) →
        ∃ (y : Ctx) (p' : PassRun) (o' : OsWork), exec (.osChunkReady core) s = .next (s.setCtx a core y) ∧ y.passes = p' :: rest ∧
          p'.os = some o' ∧ o'.chunksLeft = o.chunksLeft - 1 ∧
          (∀ r ∈ p.q.osRings, (y.ring r).drain = (x.ring r).drain + size ∧ (y.ring r).fill = (x.ring r).fill ∧
            o'.taken.find r = some (Tbl.get [] o.taken r ++ s.runBytes core x (x.ringRuns r (x.ring r).drain size))) ∧
          (∀ r, r ∉ p.q.osRings → y.rings.find r = x.rings.find r ∧ o'.taken.find r = o.taken.find r) ∧ y.tub = x.tub ∧ y.marks = x.marks ∧ y.active = x.active ∧
          p'.wet = p.wet ∧ p'.pidx = p.pidx))) ∧
  (
  ∀ (s : State) (core a : Nat) (x : Ctx) (q : QOp) (table : List Byte), s.lathReady core = some (a, x, q, table) → q.op = 5 →
    ((x.startedPasses ≠ [] ∨ x.load ≠ none) → exec (.splitApply core) s = .next s) ∧
    (x.startedPasses = [] → x.load = none →
      ∃ y : Ctx, exec (.splitApply core) s = .next ((s.setCtx a core y).petWatchdog a) ∧ y.split = q.f 127 126 ∧ y.active = [] ∧
        y.shadow = [] ∧ (∀ m, q.mark = some m → y.mark m = x.mark m + 1) ∧ (q.mark = none → y.marks = x.marks) ∧ y.tub = x.tub ∧
        y.passes = x.passes ∧ y.passIndex = x.passIndex ∧ y.lathQ = takeIter x.lathQ))

/-! ### The Skimmer and the Trowel (spec/06, spec/09) -/

/-- The head of the Skimmer queue (spec/06 R156, R162): it waits for a free place among 64, for spilled pages, and in the Green for the
operations before it; an accepted one that nothing holds starts, and writes nothing before it completes; a refused one, by its checks or
by checked mode, writes nothing, and completes in its place with its status in the Skimmer's register, the next index taken and its mark
incremented (spec/07 R202, R210, R216). The oldest started operation, when no source of it is poisoned, completes with the writes of its
result, in order; its counts are added, its mark is incremented, and its status is OK, or TAG_REFUSED when a row was refused (spec/06
R156, R183). What the functions give: one rounding to the nearest multiple, ties to the even one, or towards zero (spec/02 R46); an
integer that is placed saturates, or wraps (R57); the sums and products of S.FMA are exact before that rounding, and a NaN operand gives a
NaN (spec/06 R172, R173); ISUM under the wrap policy is the sum modulo 2^32 (R176, R177); S.TOPK takes the elements that rank first, in rank
order (R178); a softmax row without an admissible score leaves its sum and yields zeros (R181).
Completion: skimmerQueueHead, skimmerOpComplete. -/
def Obligations.SkimmerOperations : Prop :=
  (
  ∀ (s : State) (core a : Nat) (x : Ctx) (q : QOp) (rest : List QOp), s.onCore core = some (a, x) → x.skimQ = q :: rest →
    let spilled := (s.skPlan a q).any (fun p => (loftRuns (p.footprint.reads ++ p.footprint.writes)).any (fun r => s.spilledIn a r.1 (r.2 - r.1)))
    let waits := decide (64 ≤ x.skims.length) || spilled || (s.isGreen a && x.skims.any (fun r => r.status == none))
    let refused := fun (u : State) (st : Status) =>
      (∀ r0 rs, x.skims = r0 :: rs → r0.status = none →
        exec (.skimmerQueueHead core) s = .next (u.setCtx a core (x.takeSkim q (some st) {}))) ∧
      (x.skims = [] → ∃ (t : State), exec (.skimmerQueueHead core) s = .next t ∧ t.mem = u.mem ∧ t.poison = u.poison ∧ t.cores = u.cores ∧
        t.regs = u.regs ∧ (t.ctx a core).tub = x.tub ∧ (t.ctx a core).tiles = x.tiles ∧ (t.ctx a core).skims = [] ∧
        (t.ctx a core).skimQ = takeIter x.skimQ ∧ (t.ctx a core).est .skimmer = (x.est .skimmer).note st (x.nextIndex .skimmer) ∧
        (t.ctx a core).nextIndex .skimmer = (x.nextIndex .skimmer + 1) % 2 ^ 24 ∧
        (∀ m, q.mark = some m → (t.ctx a core).mark m = x.mark m + 1) ∧ (q.mark = none → (t.ctx a core).marks = x.marks))
    (waits = true → exec (.skimmerQueueHead core) s = .next s) ∧
    (∀ st, waits = false → s.skCheck a core x q = .error st → refused s st) ∧
    (∀ p, waits = false → s.skCheck a core x q = .ok p →
      let held := x.mustWait q p.footprint || !x.boardRoom (s.windowOf a core) p.footprint
      (held = true → exec (.skimmerQueueHead core) s = .next s) ∧
      (held = false → x.hazard (s.windowOf a core) .skimmer p.footprint = true → refused (s.noteHazard a core) .hazard) ∧
      (held = false → x.hazard (s.windowOf a core) .skimmer p.footprint = false →
        exec (.skimmerQueueHead core) s = .next ((s.translate a core p.footprint).setCtx a core (x.takeSkim q none p.footprint)) ∧
          (x.takeSkim q none p.footprint).tiles = x.tiles ∧ (x.takeSkim q none p.footprint).tub = x.tub ∧
          (x.takeSkim q none p.footprint).marks = x.marks ∧ (x.takeSkim q none p.footprint).skimQ = takeIter x.skimQ))) ∧
  (
  ∀ (s : State) (core a : Nat) (x : Ctx) (r : SkimRun) (rest : List SkimRun) (p : SkPlan),
    s.resident core = some (a, x) → x.skims = r :: rest → r.status = none → s.skPoison a r.fp = none → s.skPlan a r.q = some p →
    let o := s.skRun a core x r.q p
    let s1 := s.skSteps a core o.steps
    ∃ t, exec (.skimmerOpComplete core) s = .next t ∧ t.mem = s1.mem ∧ t.poison = s1.poison ∧
      t = ((((s1.perf a 4 (32 * p.w)).modCtx a core (fun y => { y with skims := rest })).engineDone a core .skimmer r.idx
        (if o.ev.tagRefusals = 0 then .ok else .tagRefused) r.q.mark)).drainSkims a core rest.length) ∧
  (
  (∀ (r24 num den : Nat) (q : Int), 0 < den →
    let u := num * pow2Den q
    let v := den * pow2Num q
    let n := roundUnits .rne r24 num den q
    let z := roundUnits .rtz r24 num den q
    (2 * (n * v) ≤ 2 * u + v ∧ 2 * u ≤ 2 * (n * v) + v ∧ ((2 * (n * v) = 2 * u + v ∨ 2 * u = 2 * (n * v) + v) → n % 2 = 0)) ∧
      z * v ≤ u ∧ u < (z + 1) * v) ∧
  (∀ (f : Fmt) (m : RMode) (r24 num den : Nat) (neg : Bool), f.isInt = true →
    let n : Int := roundUnits m r24 num den 0
    let i := if neg then -n else n
    let top : Int := 2 ^ (f.bits - 1)
    (convert f m false r24 (.rat neg num den)).1 = wrapNat f.bits (max (-top) (min (top - 1) i)) ∧
      (convert f m true r24 (.rat neg num den)).1 = wrapNat f.bits i ∧ ∀ w, (convert f m w r24 .nan).1 = 0) ∧
  (∀ (f : Fmt) (m : RMode) (w : Bool) (r24 : Nat), f.isInt = false → (convert f m w r24 .nan).1 = f.canonNan) ∧
  (∀ (d e g : Dy) (c : Val),
    (d.mul e).units (d.exp + e.exp) = d.units d.exp * e.units e.exp ∧
    (d.add e).units (min d.exp e.exp) = d.units (min d.exp e.exp) + e.units (min d.exp e.exp) ∧
    fmaFn 0 (.fin d) (.fin e) (.fin g) = ((Val.fin ((d.mul e).add g)).exact, {}) ∧ fmaFn 1 (.fin d) (.fin e) c = ((Val.fin (d.add e)).exact, {}) ∧
    fmaFn 3 (.fin d) (.fin e) c = ((Val.fin (d.mul e)).exact, {})) ∧
  (∀ (k : Nat) (u v w : Val), k < 4 → (u = .nan ∨ v = .nan ∨ (k = 0 ∧ w = .nan)) → (fmaFn k u v w).1 = .nan) ∧
  (∀ is : List Int, is.length ≤ 256 →
    wrapNat 32 ((redTree .isum true none (is.map (fun i => Val.fin (Dy.ofInt i)))).1.toInt) = wrapNat 32 (is.foldl (· + ·) 0)) ∧
  (∀ (k : Nat) (row : List Val),
    (topK k row).length = min k row.length ∧ (∀ e ∈ topK k row, row[e.2]? = some e.1) ∧
    (topK k row).Pairwise (fun u v => ranksBefore v.1 u.1 = false) ∧
    (∀ e ∈ topK k row, ∀ i v, row[i]? = some v → (v, i) ∉ topK k row → ranksBefore v e.1 = false)) ∧
  (∀ (n : Nat) (scale l : Val), 0 < n → n ≤ 256 →
    let r := smaxRow (List.replicate n none) scale (.inf true) l false
    r.m = .inf true ∧ r.l = l ∧ r.c = Val.one ∧ r.p = List.replicate n Val.zero.exact))

/-- The head of the Trowel queue (spec/09 R264, R268): one with a spilled page, one beyond 448 started operations (spec/07 R201), and an
accepted one that something holds wait, and nothing changes. An accepted one that nothing holds starts: it moves no byte at its start,
takes the next index, and as a copy into a ring makes the passes that read rings keep the ring use (spec/19 R528). A copy into the fabric
window opens its transfer, or ends with MEMBER_LOST at a house that no path leads to (spec/13 R392, R397, log entry 93). A refused one, by
the table Transfer checks or by checked mode, moves no byte: it leaves the queue for its place in order, and completes with its status
in the Trowel's register, the next index taken and its mark incremented (spec/07 R202, R210, R216).
Completion: transferCheck. -/
def Obligations.TrowelStarts : Prop :=
  ∀ (s : State) (core a : Nat) (x : Ctx) (q : QOp) (rest : List QOp), s.onCore core = some (a, x) → x.trowelQ = q :: rest →
    let refused := fun (u : State) (st : Status) =>
      (∀ t0 ts, x.trowels = t0 :: ts → t0.refused = none → exec (.transferCheck core) s =
        .next (u.setCtx a core (x.takeTrowel { idx := x.nextIndex .trowel, q := q, refused := some st }))) ∧
      (x.trowels = [] → ∃ (t : State), exec (.transferCheck core) s = .next t ∧ t.mem = u.mem ∧ t.poison = u.poison ∧ t.cores = u.cores ∧
        t.regs = u.regs ∧ t.xfers = u.xfers ∧ t.out = u.out ∧ (t.ctx a core).tub = x.tub ∧ (t.ctx a core).tiles = x.tiles ∧
        (t.ctx a core).rings = x.rings ∧ (t.ctx a core).trowels = [] ∧ (t.ctx a core).trowelQ = takeIter x.trowelQ ∧
        (t.ctx a core).est .trowel = (x.est .trowel).note st (x.nextIndex .trowel) ∧
        (t.ctx a core).nextIndex .trowel = (x.nextIndex .trowel + 1) % 2 ^ 24 ∧
        (q.mark = none → (t.ctx a core).marks = x.marks) ∧
        (∀ m, q.epoch = none → (q.tRmk = false ∨ q.tFabric = true) → q.mark = some m → (t.ctx a core).mark m = x.mark m + 1) ∧
        (∀ m d, q.epoch = none → q.tRmk = true → q.tFabric = false → q.mark = some m → s.coreAt a q.tRcore = some d → d ≠ core →
          (t.ctx a d).mark m = (u.ctx a d).mark m + 1))
    (s.trowelSpilled a q = true ∨ 448 ≤ (s.trowelsOn core).length → exec (.transferCheck core) s = .next s) ∧
    (s.trowelSpilled a q = false → (s.trowelsOn core).length < 448 →
      (∀ st, s.trowelCheck a core x q = st → st ≠ .ok → refused s st) ∧
      (s.trowelCheck a core x q = .ok →
        (s.trowelWaits a core x q q.trowelFp = true → exec (.transferCheck core) s = .next s) ∧
        (s.trowelWaits a core x q q.trowelFp = false → x.hazard (s.windowOf a core) .trowel q.trowelFp = true →
          refused (s.noteHazard a core) .hazard) ∧
        (s.trowelWaits a core x q q.trowelFp = false → x.hazard (s.windowOf a core) .trowel q.trowelFp = false →
          (q.tFabric = false → ∃ t, exec (.transferCheck core) s = .next ((s.translate a core q.trowelFp).setCtx a core (x.takeTrowel t)) ∧
            t.q = q ∧ t.refused = none ∧ t.rowsDone = 0 ∧ t.moved = 0 ∧ t.fp = q.trowelFp ∧ t.idx = x.nextIndex .trowel ∧
            (x.takeTrowel t).trowels = x.trowels ++ [t] ∧ (x.takeTrowel t).trowelQ = takeIter x.trowelQ ∧
            (x.takeTrowel t).passes = (if q.tDkind = 2 then x.passes.map PassRun.feed else x.passes) ∧
            (x.takeTrowel t).nextIndex .trowel = (x.nextIndex .trowel + 1) % 2 ^ 24) ∧
          (∀ h tag, q.tFabric = true → q.tMode = 0 → s.isGreen a = false → 0 < q.tLen →
            (s.readP a ((natOf q.tSrc).getD 0) q.tLen).any Prod.snd = false → s.fabricHouse q = some h → s.freeTag = some tag →
            (s.reachable h = true → ∃ (t : State) (r : TrowelRun), exec (.transferCheck core) s = .next t ∧
              (t.ctx a core).trowels = x.trowels ++ [r] ∧ r.q = q ∧ r.xtag = some tag ∧ r.fabricDone = none ∧
              (∃ y, t.xfers.find tag = some y ∧ y.house = h ∧ y.phase = .opened) ∧ t.mem = s.mem) ∧
            (s.reachable h = false → ∃ (t : State) (r : TrowelRun), exec (.transferCheck core) s = .next t ∧
              (t.ctx a core).trowels = x.trowels ++ [r] ∧ r.fabricDone = some .memberLost ∧ t.xfers = s.xfers ∧ t.out = s.out)))))

/-- A gather or scatter consumes the next FIFO entry for each row: a zero entry of a scatter moves nothing; a row of a plain
gather in virtual space whose checks pass is written where the row goes (spec/07 R207, R208, spec/09 R274). Without an entry
nothing happens. A plain copy in virtual space, between ranges that do not overlap, completes with its bytes where they go and
increments its mark (spec/09 R272).
Completion: gatherRowMove, trowelOpComplete. -/
def Obligations.TrowelMoves : Prop :=
  (
  ∀ (s : State) (a core : Nat) (x : Ctx) (t : TrowelRun) (rest : List TrowelRun), s.oldestTrowel a core = some (x, t, rest) →
    (x.fifo = [] → exec (.gatherRowMove a core) s = .next s) ∧
    (∀ es, x.fifo = none :: es → t.refused = none → t.q.op = 3 → t.rowsDone < t.q.tLen →
      exec (.gatherRowMove a core) s =
        .next (s.setCtx a core { x with fifo := es, trowels := { t with rowsDone := t.rowsDone + 1 } :: rest })) ∧
    (∀ src es dst, x.fifo = some src :: es → t.refused = none → t.q.op = 2 → t.rowsDone < t.q.tLen → t.q.tDkind = 0 → t.q.tMode = 0 →
      t.q.epoch = none → t.q.f 127 123 = 0 → s.isGreen a = false →
      dst = (natOf t.q.tDst).getD (2 ^ 48) + t.rowsDone * t.q.tStride →
        s.rowCheck a core x t { src := some src, dst := dst } = .ok → s.rowWaits a core x t { src := some src, dst := dst } = false →
        ∃ u, exec (.gatherRowMove a core) s = .next u ∧ u.mem = (s.writeP a dst (s.readP a src t.q.tRowLen)).mem ∧
          (u.ctx a core).fifo = es ∧ (u.ctx a core).tub = x.tub ∧ (u.ctx a core).marks = x.marks ∧ (u.core core).hawk = (s.core core).hawk ∧
          ∃ t', (u.ctx a core).trowels = t' :: rest ∧ t'.rowsDone = t.rowsDone + 1 ∧ t'.moved = t.moved + t.q.tRowLen ∧
            t'.failed = t.failed)) ∧
  (
  ∀ (s : State) (a core : Nat) (x : Ctx) (t : TrowelRun), s.oldestTrowel a core = some (x, t, []) → t.refused = none →
    t.q.op = 1 → t.q.tDkind = 0 → t.q.tFabric = false → t.q.tMode = 0 → t.q.tExpand = false → t.q.overlaps = false →
    t.q.epoch = none → s.isGreen a = false → t.q.tRmk = false →
    ∃ u, exec (.trowelOpComplete a core) s = .next u ∧
      u.mem = (s.writeP a ((natOf t.q.tDst).getD 0) (s.readP a ((natOf t.q.tSrc).getD 0) t.q.tLen)).mem ∧
      (u.ctx a core).trowels = [] ∧ u.cores = s.cores ∧ (u.ctx a core).tub = x.tub ∧ (u.ctx a core).tiles = x.tiles ∧
      (∀ m, t.q.mark = some m → (u.ctx a core).mark m = x.mark m + 1) ∧ (t.q.mark = none → (u.ctx a core).marks = x.marks))

/-- A transfer is refused unless every page that it touches passes: of a range that crosses page boundaries every page is mapped,
every source page readable, and every destination page writable and not frozen (spec/09 R264, R265). -/
def Obligations.EveryPageChecked : Prop :=
  ∀ (s : State) (a : Nat) (src dst : List VRange) (toHawk : Bool), s.transferCheck a src dst toHawk = .ok →
    (∀ r ∈ src, ∀ v ∈ pagesOf r.va r.len, ∃ d, s.pageOf a v = some d ∧ d.r = true ∧ (toHawk = false → d.draw = false)) ∧
    (∀ r ∈ dst, ∀ v ∈ pagesOf r.va r.len, ∃ d, s.pageOf a v = some d ∧ d.w = true ∧ d.frozen = false ∧
      (d.draw = true → s.incomingWell a v = true))

/-! ### The Moot (spec/14) -/

/-- The head of the Moot queue: it waits for a free place among 64 and for spilled pages (spec/07 R201, spec/09 R271); one that its
checks or checked mode refuse moves no byte, and completes in its place with its status in the Moot's register, the next index taken and
its mark incremented (spec/07 R202, R210, R216); an accepted one waits while its bucket is open already, or the open buckets leave no room
(spec/14 R412), or something holds its range. One that nothing holds starts: M.CONTRIB opens its bucket, and reads its source or,
abstaining, completes at once with an absent contribution; a non-owner's M.PUBLISH waits for its shard; the owner's starts once its bucket
has landed, reads its shard and sends it to the ranks below it. An M.PUBLISH that completes marks its bucket as published, and at the
owner frees the landing slot; the bucket then closes when nothing else is owed (spec/14 R410 to R412, R414, R416, R417).
Completion: mootQueueHead, publishStart. -/
def Obligations.MootOperations : Prop :=
  ∀ (s : State) (core a : Nat) (x : Ctx) (q : QOp) (rest : List QOp), s.onCore core = some (a, x) → x.mootQ = q :: rest →
    let g := q.mGroup
    let b := q.mBucketNo
    let v := s.translate a core (s.mootFp q)
    let waits := decide (64 ≤ s.mootStarted core) ||
      (!q.lost && !(q.isContrib && q.mAbstains) && s.spilledIn a ((natOf q.mAddr).getD 0) q.mLen)
    let full := decide (268435456 < ((s.openBuckets g).map (fun e => 2 * e.2.len)).foldl (· + ·) 0 + 2 * q.mLen)
    let held := (q.isContrib && ((s.bucketAt g b).isSome || full)) || x.mustWait q (s.mootFp q) ||
      !x.boardRoom (s.windowOf a core) (s.mootFp q)
    let hazard := x.hazard (s.windowOf a core) .moot (s.mootFp q)
    let refused := fun (u : State) (st : Status) =>
      (∀ r0 rs, x.moots = r0 :: rs → (∀ z, r0.phase ≠ .refused z ∧ r0.phase ≠ .done z) →
        exec (.mootQueueHead core) s = .next (u.setCtx a core (x.takeMoot q (.refused st) {}))) ∧
      (x.moots = [] → ∃ (t : State), exec (.mootQueueHead core) s = .next t ∧ t.mem = u.mem ∧ t.poison = u.poison ∧ t.regs = u.regs ∧
        t.groups = u.groups ∧ t.buckets = u.buckets ∧ t.out = u.out ∧ (t.ctx a core).tub = x.tub ∧ (t.ctx a core).moots = [] ∧
        (t.ctx a core).mootQ = takeIter x.mootQ ∧ (t.ctx a core).est .moot = (x.est .moot).note st (x.nextIndex .moot) ∧
        (t.ctx a core).nextIndex .moot = (x.nextIndex .moot + 1) % 2 ^ 24 ∧
        (∀ m, q.mark = some m → (t.ctx a core).mark m = x.mark m + 1) ∧ (q.mark = none → (t.ctx a core).marks = x.marks))
    (waits = true → exec (.mootQueueHead core) s = .next s) ∧
    (∀ st, waits = false → s.mootCheck a core q = st → st ≠ .ok → refused s st) ∧
    (waits = false → s.mootCheck a core q = .ok → (held = true ∨ (q.isPublish = true ∧ s.mOwns q = true)) → exec (.mootQueueHead core) s = .next s) ∧
    (waits = false → s.mootCheck a core q = .ok → held = false → hazard = true → (q.isContrib = true ∨ (q.isPublish = true ∧ s.mOwns q = false)) →
      refused (s.noteHazard a core) .hazard) ∧
    (waits = false → s.mootCheck a core q = .ok → held = false → hazard = false →
      (q.isContrib = true →
        (q.mAbstains = false → exec (.mootQueueHead core) s =
          .next (((v.openBucket a core q).setCtx a core (x.takeMoot q (.reading g b) (s.mootFp q))).takeEarly g q.mStep b)) ∧
        (q.mAbstains = true → exec (.mootQueueHead core) s =
          .next (((((v.openBucket a core q).setCtx a core (x.takeMoot q (.done .ok) {})).settleMoots a core).takeEarly g q.mStep b).contribute
            g b {})) ∧
        (v.openBucket a core q).bucketAt g b =
          some { step := q.mStep, bucket := b, len := q.mLen, allot := a, core := core
                 forwarded := !s.mOwns q && (shardTargets (s.mRanks g) (s.mRank g) (b % s.mRanks g)).isEmpty } ∧
        (v.openBucket a core q).mState g = 2 ∧ (v.openBucket a core q).ctxs = s.ctxs ∧ (v.openBucket a core q).mem = s.mem) ∧
      (q.isPublish = true → s.mOwns q = false →
        exec (.mootQueueHead core) s = .next ((v.setCtx a core (x.takeMoot q (.waitShard g b) (s.mootFp q))).wakePublish a)) ∧
      (q.isPublish = true → s.mOwns q = true → ∀ k, s.bucketAt g b = some k → k.step = q.mStep → k.bucket = b →
        (k.landed = false → exec (.publishStart a core) s = .next s) ∧
        (k.landed = true → (s.readP a ((natOf q.mAddr).getD 0) q.mLen).any Prod.snd = false →
          let bs := s.readVa a ((natOf q.mAddr).getD 0) q.mLen
          let p := k.reduced.getD {}
          let m : MStream :=
            { step := k.step, bucket := k.bucket, roll := p.roll, samples := p.samples, faulty := p.faulty, length := bs.length, bytes := bs }
          let s1 := v.setCtx a core (x.takeMoot q (.done (rollStatus (s.mRanks g) p.roll)) {})
          exec (.publishStart a core) s =
            .next (((s1.modBucket g b (fun y => { y with forwarded := true })).forwardShard g b m true).settleMoots a core)))) ∧
    (∀ (t : State) k, t.bucketAt g b = some k → k.step = q.mStep → k.bucket = b →
      (t.mOwns q = true → t.publishDone q = ((t.setBucket g b { k with published := true }).unland g b).tryClose g b) ∧
      (t.mOwns q = false → t.publishDone q = (t.setBucket g b { k with published := true }).tryClose g b))

/-- The reduction: a read contribution is this rank's alone; a node adds its children element by element, joins their roll calls
and adds their samples and faulty counts, and an absent child leaves the other; a deadline finishes its node; a reduced bucket at
its owner lands when its slot is free, and is kept until then (spec/14 R404, R407, R410, R413, R414, R420).
Completion: contribReadDone, nodeDeadlineExpiry, bucketLanding, deferredLanding. -/
def Obligations.MootReduction : Prop :=
  (∀ (s : State) (a core : Nat) (x : Ctx) (i : Nat) (r : MootRun) (g b : Nat), s.wardHeld (core / 32) = false → s.ctx? a core = some x →
    firstReading x.moots 0 = some (i, r, g, b) → (s.readP a ((natOf r.q.mAddr).getD 0) r.q.mLen).any Prod.snd = false →
    exec (.contribReadDone a core) s =
      .next (((s.setPhase a core i (.done .ok)).settleMoots a core).contribute g b
        { roll := 2 ^ s.mRank g, samples := r.q.mSamples
          data := wordsOf (r.q.mLen / 4) (s.readVa a ((natOf r.q.mAddr).getD 0) r.q.mLen) })) ∧
  (∀ p q : MPart, p.roll ≠ 0 → q.roll ≠ 0 →
    (combine p q).1.data = List.zipWith (fun u v => (addF32 u v).1) p.data q.data ∧ (combine p q).1.roll = Nat.lor p.roll q.roll ∧
      (combine p q).1.samples = (p.samples + q.samples) % 2 ^ 64 ∧ (combine p q).1.faulty = p.faulty + q.faulty) ∧
  (∀ p q : MPart, q.roll = 0 → (combine p q).1.data = p.data ∧ (combine p q).1.roll = p.roll) ∧
  (∀ p q : MPart, p.roll = 0 → q.roll ≠ 0 → (combine p q).1.data = q.data ∧ (combine p q).1.roll = q.roll) ∧
  (∀ (s : State) (g b level : Nat) (k : Bucket) (e : Nat), s.bucketAt g b = some k → k.deadline = some e →
    (level = k.level + 1 → s.expiryOf g e ≤ s.timer → exec (.nodeDeadlineExpiry g b level) s = .next (s.nodeExpire g b)) ∧
    ((level ≠ k.level + 1 ∨ s.timer < s.expiryOf g e) → exec (.nodeDeadlineExpiry g b level) s = .next s)) ∧
  (∀ (s : State) (g b : Nat) (k : Bucket) (p : MPart), s.bucketAt g b = some k → k.reduced = some p → k.landed = false →
    (k.deferred = false → s.landingSlots.find (s.landSlot g k.bucket) = none → exec (.bucketLanding g b) s = .next (s.land g b k p)) ∧
    (k.deferred = false → (s.landingSlots.find (s.landSlot g k.bucket)).isSome = true →
      exec (.bucketLanding g b) s = .next (s.setBucket g b { k with deferred := true })) ∧
    (k.deferred = true → s.landingSlots.find (s.landSlot g k.bucket) = none → exec (.deferredLanding g b) s = .next (s.land g b k p)) ∧
    (s.land g b k p).bucketAt g b = some { k with landed := true, deferred := false } ∧
    (∀ c, s.coreAt (s.mOwner g) (s.mReg g 0x05) = some c →
      ((s.land g b k p).ctx (s.mOwner g) c).mark (s.mReg g 0x06) = (s.ctx (s.mOwner g) c).mark (s.mReg g 0x06) + 1))

/-- Flits of the Moot under the household of the owner of a defined group slot (spec/14 R406, R419, R424, spec/10 R304): an OPEN starts
its stream, DATA in place adds its bytes, a CLOSE ends the stream with the check of its Tally, and a FAIL tells of a shard that
failed. A household that no local allotment holds is dropped and logged; a slot without a defined owner, or of another household's
(log entry 97), discards and counts. A group whose member's house has left is lost: its buckets, streams and landing slots are gone
(R426). Completion: mootFlitOpen, mootFlitData, partialCloseArrival, shardArrival, failFlitArrival, groupLost. -/
def Obligations.MootArrivals : Prop :=
  let newStream := fun (b : MootOpen) =>
    ({ step := b.step, bucket := b.bucket, roll := b.rollCall, samples := b.samples, faulty := b.faulty, length := b.length } : MStream)
  (∀ (s t : State) (l : Nat) (hdr : FlitHdr) (ctx : MootCtx), s.linkTake l hdr 6 = some t → hdr.dest = s.house →
    let g := hdr.vc - 4
    let u := t.owe l hdr.vc
    (g < 12 → u.mOwner g ≠ 0 → u.householdAllot hdr.household = some (u.mOwner g) → u.mState g ≠ 0 → u.mState g ≠ 3 →
      (∀ body : MootOpen, (∀ k, u.bucketAt g ctx.bslot = some k → k.step = body.step ∧ k.bucket = body.bucket) →
        (u.bucketAt g ctx.bslot = none → body.bucket % 256 = ctx.bslot % 256) →
        exec (.mootFlitOpen l hdr ctx body) s =
          .next (u.modGroup g (fun z => { z with streams := z.streams.set (streamKey ctx) (newStream body) })).drainFlits) ∧
      (∀ (m : MStream) (off : Nat) (bs : List Byte), (u.group g).streams.find (streamKey ctx) = some m → 4 * off = m.bytes.length →
        exec (.mootFlitData l hdr ctx off bs) s =
          .next (u.modGroup g (fun z => { z with streams := z.streams.set (streamKey ctx) { m with bytes := m.bytes ++ bs } })).drainFlits) ∧
      (∀ (m : MStream) (v : W32), (u.group g).streams.find (streamKey ctx) = some m →
        let good := m.bytes.length == m.length && tally (u.mOwner g) (mootF ctx.pub m.step m.bucket) m.bytes == v
        let ended := u.modGroup g (fun z => { z with streams := z.streams.erase (streamKey ctx) })
        (ctx.pub = false → exec (.partialCloseArrival l hdr ctx v) s = .next (ended.mootMessage g m.bucket ctx.level m good).drainFlits) ∧
        (ctx.pub = true → exec (.shardArrival l hdr ctx v) s = .next (ended.mootMessage g m.bucket 16 m good).drainFlits)) ∧
      (∀ k, u.bucketAt g ctx.bslot = some k →
        exec (.failFlitArrival l hdr ctx) s =
          .next (u.shardArrives g ctx.bslot k
            { step := k.step, bucket := k.bucket, roll := 0, samples := 0, faulty := 0, length := 0 } false false).drainFlits)) ∧
    (∀ (w : State), g < 12 →
      ((u.householdAllot hdr.household = none ∧ w = u.logDrop hdr.src 0) ∨
        ((u.householdAllot hdr.household).isSome = true ∧ (u.mOwner g = 0 ∨ u.mState g = 0 ∨ u.householdAllot hdr.household ≠ some (u.mOwner g)) ∧
          w = u.bumpReg (0x4000 + g) 0x0C 1)) → ∀ body off bs v,
      exec (.mootFlitOpen l hdr ctx body) s = .next w.drainFlits ∧ exec (.mootFlitData l hdr ctx off bs) s = .next w.drainFlits ∧
        exec (.failFlitArrival l hdr ctx) s = .next w.drainFlits ∧
        (ctx.pub = false → exec (.partialCloseArrival l hdr ctx v) s = .next w.drainFlits) ∧
        (ctx.pub = true → exec (.shardArrival l hdr ctx v) s = .next w.drainFlits))) ∧
  (∀ (s : State) (g house r : Nat), s.mState g = 1 ∨ s.mState g = 2 → r < s.mRanks g → r ≠ s.mRank g → s.memberHouse g r = house →
    s.reachable house = false →
    exec (.groupLost g house) s = .next (s.loseGroup g) ∧ (s.loseGroup g).mState g = 3 ∧ (s.loseGroup g).openBuckets g = [] ∧
      ((s.loseGroup g).group g).streams = [] ∧ ((s.loseGroup g).group g).early = [] ∧
      ((∀ c ∈ s.allotCores (s.mOwner g), (s.ctx (s.mOwner g) c).moots = []) →
        ∀ k, k / 256 ≠ g → (s.loseGroup g).buckets.find k = s.buckets.find k))

/-! ### The fabric (spec/13) -/

/-- A flit that a link takes is the next in SEQ order on a channel that the link carries: the number to take next moves on modulo
4096, its ACK leaves the replay buffer, its credits come back, the codewords corrected with it are counted, and nothing else changes
(spec/13 R377, R378, R399). Any other is discarded; a flit, taken or not, that names a number which has been replaced, as its ACK or its
SEQ, has the buffer sent again (R377; the window of 2,048 numbers is the model's choice, log entry 31). One for another house is put with
what waits to go on there, with the mark of an alternate link taken before (R387, log entry 33). Transfers between devices at their
destination (spec/13 R392 to R395; their order and what is kept of them: log entries 34 and 99): an OPEN brings the total and the mark; the
bytes of a DATA flit that the receive window's pages allow are written, and its offset is counted; with no receive window both are logged
and the bytes count with ACCESS_DENIED (R394); a flit of a transfer that has closed is discarded; a DONE closes the tag at its source,
whose T.COPY can then complete, and one whose household no local allotment holds is dropped and logged (spec/10 R304); a tag is free
again 1 ms later under the other generation. IDLE flits bring only credits; bad flits are discarded.
Completion: idleFlit, openFlit, dataFlit, doneFlit, transferTagReuse, flitBad, flitReserved. -/
def Obligations.FabricTransfers : Prop :=
  (
  (∀ (s t : State) (l : Nat) (hdr : FlitHdr) (kind : Nat), s.linkTake l hdr kind = some t →
    ∃ u : State, t = (if (s.link l).replaced hdr then u.resend l else u) ∧
      s.carries l (if kind = 0 then 0 else hdr.vc) = true ∧ hdr.seq = (s.link l).rx ∧ (u.link l).rx = (hdr.seq + 1) % 4096 ∧
      (∀ e, e ∈ (u.link l).replay ↔ e ∈ (s.link l).replay ∧
        ((hdr.ack + 4096 - e.seq) % 4096 = 0 ∨ 2048 < (hdr.ack + 4096 - e.seq) % 4096)) ∧
      (∀ v, v ≠ hdr.cvc → (u.link l).creditOf v = (s.link l).creditOf v) ∧
      (u.link l).creditOf hdr.cvc = (s.link l).creditOf hdr.cvc + hdr.ccnt ∧ (u.link l).tx = (s.link l).tx ∧
      u = { s with links := u.links, regs := u.regs } ∧ (∀ k, k ≠ l → u.link k = s.link k) ∧
      (∀ k, k ≠ objKey (0x2110 + l) 0x06 → u.regs.find k = s.regs.find k)) ∧
  (∀ (s : State) (l : Nat) (hdr : FlitHdr) (xtag total off : Nat) (gen : Bool) (mk : Option (Nat × Nat)) (bs : List Byte) (st : Status)
    (ctx : MootCtx) (body : MootOpen) (v : W32) (h : Hello) (e : TopoEntry),
    (s.linkTake l hdr 0 = none → exec (.idleFlit l hdr) s = .next (s.linkStray l hdr 0)) ∧
    (s.linkTake l hdr 1 = none → exec (.helloReceive l hdr h) s = .next (s.linkStray l hdr 1)) ∧
    (s.linkTake l hdr 2 = none → exec (.topologyReceive l hdr e) s = .next (s.linkStray l hdr 2)) ∧
    (s.linkTake l hdr 3 = none → exec (.openFlit l hdr xtag gen total mk) s = .next (s.linkStray l hdr 3)) ∧
    (s.linkTake l hdr 4 = none → exec (.dataFlit l hdr xtag gen off bs) s = .next (s.linkStray l hdr 4)) ∧
    (s.linkTake l hdr 5 = none → exec (.doneFlit l hdr xtag gen st) s = .next (s.linkStray l hdr 5)) ∧
    (s.linkTake l hdr 6 = none → exec (.mootFlitOpen l hdr ctx body) s = .next (s.linkStray l hdr 6) ∧
      exec (.shardArrival l hdr ctx v) s = .next (s.linkStray l hdr 6)) ∧
    (∀ kind, ((s.link l).replaced hdr = true → s.carries l (if kind = 0 then 0 else hdr.vc) = true → s.linkStray l hdr kind = s.resend l) ∧
      ((s.link l).replaced hdr = false → s.linkStray l hdr kind = s)) ∧
    (∀ k : Link, (k.replaced hdr = true ↔ ((hdr.ack ≠ k.tx ∧ ∀ x ∈ k.replay, x.seq ≠ hdr.ack) ∨
      (0 < (k.rx + 4096 - hdr.seq) % 4096 ∧ (k.rx + 4096 - hdr.seq) % 4096 ≤ 2048)))) ∧
    (∀ t, s.linkTake l hdr 4 = some t → hdr.dest ≠ s.house →
      exec (.dataFlit l hdr xtag gen off bs) s =
        .next ({ t with flitWait := t.flitWait ++
          [({ since := s.timer, mayUp := hdr.vc == 2 || hdr.vc == 3 || s.upStep l, held := some (l, hdr.vc)
              flit := { kind := 4, vc := hdr.vc, dest := hdr.dest, src := hdr.src, household := hdr.household
                        ctx := xtag * 2 ^ 36 + b2n gen * 2 ^ 35 + off, body := .bytes bs, alt := hdr.alt } } : WaitFlit)] }).drainFlits))) ∧
  (
  ∀ (s t : State) (l : Nat) (hdr : FlitHdr) (xtag : Nat) (gen : Bool),
    let u := t.owe l hdr.vc
    let key := inKey hdr.src xtag
    (s.linkTake l hdr 0 = some t → exec (.idleFlit l hdr) s = .next t.drainFlits) ∧
    (u.inboundOf hdr.src xtag gen hdr.household = none → hdr.dest = s.house →
      (∀ total mk, s.linkTake l hdr 3 = some t → exec (.openFlit l hdr xtag gen total mk) s = .next u.drainFlits) ∧
      (∀ off bs, s.linkTake l hdr 4 = some t → exec (.dataFlit l hdr xtag gen off bs) s = .next u.drainFlits)) ∧
    (∀ x total mk, s.linkTake l hdr 3 = some t → hdr.dest = s.house → u.inboundOf hdr.src xtag gen hdr.household = some x →
      (u.receiveWindow hdr.household).isSome = true →
      exec (.openFlit l hdr xtag gen total mk) s =
        .next (({ u with inbound := u.inbound.set key { x with total := some total, mark := mk } } : State).settleInbound hdr.src xtag).drainFlits) ∧
    (∀ x off bs w, s.linkTake l hdr 4 = some t → hdr.dest = s.house → u.inboundOf hdr.src xtag gen hdr.household = some x →
      u.receiveWindow hdr.household = some w →
      let seen := if x.seen.any (fun e => e.1 == off) then x.seen else x.seen ++ [(off, bs.length)]
      let keep := fun (z : State) (st : Status) =>
        (({ z with inbound := z.inbound.set key { x with seen := seen, status := stPick x.status st } } : State).settleInbound hdr.src xtag).drainFlits
      (u.transferCheck w.1 [] [⟨w.2 + off, bs.length⟩] false = .ok →
        exec (.dataFlit l hdr xtag gen off bs) s = .next (keep (u.writeVa w.1 (w.2 + off) bs) .ok)) ∧
      (∀ st, st ≠ .ok → u.transferCheck w.1 [] [⟨w.2 + off, bs.length⟩] false = st →
        exec (.dataFlit l hdr xtag gen off bs) s = .next (keep u st))) ∧
    (∀ x, hdr.dest = s.house → u.inboundOf hdr.src xtag gen hdr.household = some x → u.receiveWindow hdr.household = none →
      let z := u.logDrop hdr.src 0
      (∀ total mk, s.linkTake l hdr 3 = some t → exec (.openFlit l hdr xtag gen total mk) s =
        .next (({ z with inbound := z.inbound.set key { x with total := some total, mark := mk } } : State).settleInbound hdr.src xtag).drainFlits) ∧
      (∀ off bs, s.linkTake l hdr 4 = some t →
        let seen := if x.seen.any (fun e => e.1 == off) then x.seen else x.seen ++ [(off, bs.length)]
        exec (.dataFlit l hdr xtag gen off bs) s = .next (({ z with
          inbound := z.inbound.set key { x with seen := seen, status := stPick x.status .accessDenied } } : State).settleInbound hdr.src xtag).drainFlits)) ∧
    (∀ st y, s.linkTake l hdr 5 = some t → hdr.dest = s.house → u.xfers.find xtag = some y →
      (y.phase = .opened → y.gen = gen → y.house = hdr.src → u.reg (0x3100 + y.allot) 0x0F = hdr.household →
        exec (.doneFlit l hdr xtag gen st) s = .next (u.endXfer xtag y st).drainFlits ∧
          (u.endXfer xtag y st).xfers.find xtag = some { y with phase := .closed u.timer }) ∧
      ((y.phase ≠ .opened ∨ y.gen ≠ gen ∨ y.house ≠ hdr.src ∨ u.reg (0x3100 + y.allot) 0x0F ≠ hdr.household) →
        ((u.householdAllot hdr.household).isSome = true → exec (.doneFlit l hdr xtag gen st) s = .next u.drainFlits) ∧
        (u.householdAllot hdr.household = none → exec (.doneFlit l hdr xtag gen st) s = .next (u.logDrop hdr.src 0).drainFlits))) ∧
    (∀ y at', s.xfers.find xtag = some y → y.phase = .closed at' →
      (at' + 1000000 ≤ s.timer → exec (.transferTagReuse xtag) s =
        .next { s with xfers := s.xfers.set xtag { y with phase := .free, gen := !y.gen } }) ∧
      (s.timer < at' + 1000000 → exec (.transferTagReuse xtag) s = .next s)) ∧
    (∀ un, exec (.flitBad l un) s = .next (if un then s.bumpReg (0x2110 + l) 0x07 1 else s)) ∧
    (s.linkTake l hdr 7 = some t → exec (.flitReserved l hdr) s = .next (u.logDropped hdr.src).drainFlits))

/-- The states of a link (spec/13 R381, R382, R396): signal starts the training of an enabled dark link, FEC lock brings it to
HELLO with full credits, a hello that nothing stands against brings it UP; training that lasts 50 ms, lost lock, silence of three
hellos and a flit resent eight times take it DOWN, from which it comes back after 1 s when it has signal. Topology entries, resent and
escaping flits (spec/13 R377, R383, R386, R388): an entry of this device's own, or no newer than the one held, changes nothing, but for a
number that it assigns to this device; a newer one replaces the one held and goes on to the other links that are UP, and one of a device
not known before that repeats a house of this fabric has its link HELD; with ACK unchanged for 16 flit times every flit from ACK onward
goes out again, in order, each counting how often; a flit that has waited 2 µs on VC2 or VC3 with no link to take moves to VC1. The
model's choices: 82 ns for 16 flit times and signal forgotten with the lock (log entry 31), the epoch that a number of its own raises (log
entry 32), what a clash holds and until when (log entry 98). Completion: linkSignalDetect, linkFecLock, trainingTimeout, downRetrainTimer,
linkDown, helloTimer, helloReceive, topologyReceive, replayTimeout, escapeTimeout, linkRetrain, linkEnableWrite. -/
def Obligations.LinkStates : Prop :=
  (
  ∀ (s : State) (l : Nat),
    (l < 64 → exec (.linkSignalDetect l) s = .next ((s.modLink l (fun k => { k with signal := true })).wakeLink l) ∧
      (s.linksReleased = true → s.linkState l = 0 → s.linkEnabled l = true →
        (s.modLink l (fun k => { k with signal := true })).wakeLink l = (s.modLink l (fun k => { k with signal := true })).linkTo l 1) ∧
      ((s.linksReleased = false ∨ s.linkState l ≠ 0 ∨ s.linkEnabled l = false) →
        (s.modLink l (fun k => { k with signal := true })).wakeLink l = s.modLink l (fun k => { k with signal := true }))) ∧
    (s.linkState l = 1 → ∃ t, exec (.linkFecLock l) s = .next t ∧ t.linkState l = 2 ∧
      (∀ v, v < 16 → (t.link l).creditOf v = vcBuffer v) ∧ (t.link l).replay = [] ∧ (t.link l).tx = 0 ∧ (t.link l).rx = 0 ∧
      (∀ k, k ≠ l → t.linkState k = s.linkState k ∧ t.link k = s.link k) ∧ t.mem = s.mem ∧ t.ctxs = s.ctxs) ∧
    (s.linkState l = 1 → (s.link l).since + 50000000 ≤ s.timer → exec (.trainingTimeout l) s = .next (s.downLink l)) ∧
    (s.linkState l = 5 → (s.link l).since + 1000000000 ≤ s.timer →
      exec (.downRetrainTimer l) s = .next (s.linkTo l (if s.canTrain l then 1 else 0))) ∧
    (2 ≤ s.linkState l → s.linkState l ≤ 4 →
      exec (.linkDown l .fecLost) s = .next (s.downLink l false) ∧
      ((s.link l).heard + 30000 ≤ s.timer → exec (.linkDown l .helloMissed) s = .next (s.downLink l)) ∧
      ((∃ x ∈ (s.link l).replay, 8 ≤ x.resends) → exec (.linkDown l .resendFailed) s = .next (s.downLink l))) ∧
    (s.carries l 0 = true → (s.link l).helloAt + 10000 ≤ s.timer →
      exec (.helloTimer l) s =
        .next ((s.modLink l (fun k => { k with helloAt := s.timer })).sendOn l
          { kind := 1, vc := 0, dest := 0x1FF, src := s.house % 512, household := 0xFFFF
            body := .hello { digest := s.digest, house := s.house, mode := s.houseMode, link := l, epoch := s.reg 0x2100 0x07 } })) ∧
    (∀ hdr h t, s.linkTake l hdr 1 = some t →
      let u := t.owe l hdr.vc
      let v := (((u.modLink l (fun k => { k with nbr := some h, heard := u.timer })).setReg (0x2110 + l) 0x03 h.house).setReg (0x2110 + l) 0x04
        h.link).setReg (0x2110 + l) 0x05 h.digest
      (v.holdReason l h = 0 → v.linkState l = 2 → exec (.helloReceive l hdr h) s = .next ((v.linkTo l 3).refabric true).drainFlits) ∧
      (v.holdReason l h ≠ 0 → v.linkState l = 2 →
        exec (.helloReceive l hdr h) s = .next (v.judgeLink l).drainFlits ∧ (v.judgeLink l).linkState l = 4 ∧
          (v.judgeLink l).reg (0x2110 + l) 0x09 = v.holdReason l h ∧ (v.judgeLink l).mem = v.mem) ∧
      (v.linkState l = 4 → exec (.helloReceive l hdr h) s = .next (v.judgeLink l).drainFlits ∧
        (v.holdReason l h ≠ 0 → (v.judgeLink l).linkState l = 4 ∧ (v.judgeLink l).reg (0x2110 + l) 0x09 = v.holdReason l h) ∧
        (v.holdReason l h = 0 → (v.judgeLink l).linkState l = 2 ∧ (v.judgeLink l).reg (0x2110 + l) 0x09 = 0))) ∧
    (s.linkTo l 3).linkState l = 3 ∧ (s.linkTo l 3).mem = s.mem) ∧
  (
  ∀ (s : State) (l : Nat),
    (∀ hdr (e : TopoEntry) t, s.linkTake l hdr 2 = some t →
      let u0 := t.owe l hdr.vc
      let u := if (u0.link l).noNumber then u0.modLink l (fun k => { k with noNumber := false }) else u0
      let joins := decide (u.topoEntryOf e.digest = none) && decide (u.houseMode = 0) && decide (e.digest ≠ u.nbrDigest l) &&
        u.houseTaken e.digest e.house
      let w := (u.putEntry l e).takeNumber e
      (e.digest = u.digest → (u.takeNumber e).house = u.house → exec (.topologyReceive l hdr e) s = .next u.drainFlits) ∧
      (e.digest = u.digest → (u.takeNumber e).house ≠ u.house →
        exec (.topologyReceive l hdr e) s = .next ((u.takeNumber e).refabric true).drainFlits) ∧
      (∀ old, e.digest ≠ u.digest → u.topoEntryOf e.digest = some old → e.epoch ≤ old.epoch →
        exec (.topologyReceive l hdr e) s = .next u.drainFlits) ∧
      (e.digest ≠ u.digest → (∀ old, u.topoEntryOf e.digest = some old → old.epoch < e.epoch) →
        (joins = false → exec (.topologyReceive l hdr e) s =
          .next ((w.flood e (w.upLinks.filter (· != l))).refabric (w.house != u.house)).drainFlits) ∧
        (joins = true → exec (.topologyReceive l hdr e) s =
          .next (((u.modLink l (fun k => { k with clash := some { digest := e.digest, house := e.house } })).judgeLink l).refabric true).drainFlits))) ∧
    ((s.link l).replay ≠ [] → s.carries l 0 = true →
      (s.timer < (s.link l).ackAt + 82 → exec (.replayTimeout l) s = .next s) ∧
      ((s.link l).ackAt + 82 ≤ s.timer → ∃ t, exec (.replayTimeout l) s = .next t ∧
        (t.link l).replay = (s.link l).replay.map (fun x => { x with resends := x.resends + 1 }) ∧ (t.link l).ackAt = s.timer ∧ t.mem = s.mem ∧
        t.out = ((s.link l).replay.map (fun x =>
          Out.flit l x.seq (s.link l).rx x.cvc x.ccnt (x.flit.lcrc x.seq (s.link l).rx x.cvc x.ccnt) x.flit)).reverse ++ s.out)) ∧
    (∀ index w, s.flitWait[index]? = some w → (w.flit.vc = 2 ∨ w.flit.vc = 3) → w.since + 2000 ≤ s.timer → s.flitLink w = none →
      exec (.escapeTimeout index) s =
        .next ({ s with flitWait := s.flitWait.set index { w with mayUp := true, flit := { w.flit with vc := 1 } } } : State).drainFlits) ∧
    (∀ sess, s.answers = true → s.sessionIdle sess = true → s.mayApply sess (0x2110 + l) 0x0A = true → l < 64 →
      exec (.linkRetrain sess l) s = .next ((if s.linkState l ≤ 4 then s.downLink l else s).emit (.wrote sess (0x2110 + l) 0x0A .ok))) ∧
    (∀ sess (v : Byte), s.answers = true → s.sessionIdle sess = true → l < 64 →
      let r := s.writeObject sess (0x2110 + l) 0x01 v.toNat
      (r.2.1 = .ok → r.2.2 ≠ 0 → exec (.linkEnableWrite sess l v) s = .next ((r.1.wakeLink l).emit (.wrote sess (0x2110 + l) 0x01 .ok))) ∧
      (r.2.1 = .ok → r.2.2 = 0 → 1 ≤ s.linkState l → s.linkState l ≤ 4 →
        exec (.linkEnableWrite sess l v) s = .next ((r.1.downLink l).emit (.wrote sess (0x2110 + l) 0x01 .ok)))))

/-! ### The Crier and the Carter (spec/07, spec/09, spec/17) -/

/-- The Crier takes one record in a turn, of the next stream in rotation that has one ready; a stream that is not due keeps its record
(spec/07 R187; the rotation's order and that a row of a stream not due leaves its record: log entry 96), and so does one whose number is no
longer below the allotment's streams (spec/17 R495). A refused record completes at once with the choice of its statuses, an accepted command waits at the head of its stream
for its cores, and the command that names no core of an allotment without cores completes, with OK (log entry 41); consumption, and the measurement
of a STREAM's block, are when the record is taken (log entry 39); a stream whose next record's SEQ does not match has none ready (spec/07
R186, spec/08 R252, spec/17 R497, R499). Completion: crierTakeRecord. -/
def Obligations.CrierTakesRecords : Prop :=
  (∀ (s : State) (a n : Nat), (s.streamDue ≠ some (crierKey a n) → exec (.crierTakeRecord a n) s = .next s.settle) ∧
    (∀ k, s.streamDue = some k → k ∈ s.readyStreams) ∧ (s.streamDue = none → s.readyStreams = [])) ∧
  (∀ (s : State) (a n : Nat) (d : StreamDesc), (s.stream a n).desc = some d →
    fld (s.recordAt a d (s.stream a n).consumed) 63 48 ≠ (s.stream a n).consumed % 2 ^ 16 ∨ s.reg (0x3100 + a) 0x09 ≤ n →
    s.recordReady a n = false) ∧
  (∀ (s : State) (a n : Nat) (d : StreamDesc), (s.stream a n).desc = some d → (s.stream a n).head = none → d.carter = false →
    (s.stream a n).left ≠ 0 → (s.stream a n).waiting.length < 256 → n < s.reg (0x3100 + a) 0x09 → s.streamDue = some (crierKey a n) →
    let w := s.recordAt a d (s.stream a n).consumed
    let s1 := s.modStream a n Stream.consume
    let id := (s.allot a).nextCmd
    let turned := fun (t : State) => ({ t with crierTurn := crierKey a n + 1 } : State).settle
    fld w 63 48 = (s.stream a n).consumed % 2 ^ 16 → s.greenStream a n = false →
      (∀ k l, s.parseCommand a w = (k, l) → l ≠ [] →
        exec (.crierTakeRecord a n) s =
          .next (turned ((s1.post a n
            { cookie := fld w 127 64, rseq := fld w 63 48, status := stPickAll l, kind := 0x1, core := fld w 26 20, all := bitAt w 27 }).petWatchdog
              a))) ∧
      (∀ k, s.parseCommand a w = (k, []) → s.namedCores a w = [] → s.listedCores a = 0 →
        exec (.crierTakeRecord a n) s =
          .next (turned ((s1.post a n
            { cookie := fld w 127 64, rseq := fld w 63 48, status := .ok, kind := 0x1, core := fld w 26 20, all := bitAt w 27 }).petWatchdog a))) ∧
      (∀ k, s.parseCommand a w = (k, []) → s.namedCores a w ≠ [] →
        let cmd : Cmd := { stream := n, cookie := fld w 127 64, rseq := fld w 63 48, core := fld w 26 20, all := bitAt w 27, kind := k
                           todo := s.namedCores a w }
        let s2 := s1.modAllot a (fun y => { y with cmds := y.cmds.set id cmd, nextCmd := id + 1 })
        ((∀ bs, k ≠ .stream bs) → exec (.crierTakeRecord a n) s =
          .next (turned (s2.modStream a n (fun y => { y with head := some (.command id) })))) ∧
        (∀ bs, k = .stream bs → exec (.crierTakeRecord a n) s =
          .next (turned ((s2.logProgram a (logEntry (sha256Nat bs) bs.length 0 (if bitAt w 27 then 0xFFFF else fld w 26 20) 0 0x02)).modStream a n
            (fun y => { y with head := some (.command id) }))))))

/-- The commands at the head of a stream on a core that its allotment holds (spec/07 R187 to R197): BANK_LOAD is refused with
BANK_BUSY for the bank that runs, with ACCESS_DENIED for a bad length or source, and else fills its bank; the filled bank is written, measured and ready; START on a halted core
starts a ready bank, and is refused with ACCESS_DENIED at or past the image; STREAM on a halted core starts streamed execution, and
on a streaming one whose queue of 4,096 bytes has room joins it. BANK_LOAD and START wait at the head of their stream for a bank that is
LOADING, START for the core's halt, and STREAM for room, for the halt of a program in a bank and for one on its way to its halt (R187, R188,
R193). HALT stops the program at once, and completes on a halted core. Completion: bankLoad, bankLoadComplete, start, stream, halt. -/
def Obligations.CrierCommands : Prop :=
  ∀ (s : State) (a n core id : Nat) (k : Cmd) (x : Ctx),
    (s.cmdFor a n core = some (id, k, x) →
      (∀ src len bank, k.kind = .bankLoad src len bank →
        (x.runsBank bank = true → exec (.bankLoad a n core) s = .next (s.acceptDone a n id core k .bankBusy)) ∧
        (x.runsBank bank = false → (badImage len = true ∨ s.readableHbm a src len = false) →
          exec (.bankLoad a n core) s = .next (s.acceptDone a n id core k .accessDenied)) ∧
        (x.runsBank bank = false → badImage len = false → s.readableHbm a src len = true → (Tbl.get {} x.banks bank : Bank).loading = false →
          exec (.bankLoad a n core) s =
            .next (((s.translateVa a core src len).setCtx a core
              { x with banks := Tbl.modify {} x.banks bank (fun b => { b with loading := true }) }).accept a n id core k)) ∧
        (x.runsBank bank = false → badImage len = false → s.readableHbm a src len = true → (Tbl.get {} x.banks bank : Bank).loading = true →
          exec (.bankLoad a n core) s = .next s)) ∧
      (∀ bank offset arg1 arg2, k.kind = .start bank offset arg1 arg2 → (x.run ≠ .halted ∨ (Tbl.get {} x.banks bank : Bank).loading = true) →
        exec (.start a n core) s = .next s) ∧
      (∀ bank offset arg1 arg2, k.kind = .start bank offset arg1 arg2 → x.run = .halted → (Tbl.get {} x.banks bank : Bank).loading = false →
        ((Tbl.get {} x.banks bank : Bank).len ≤ offset → exec (.start a n core) s = .next (s.acceptDone a n id core k .accessDenied)) ∧
        (offset < (Tbl.get {} x.banks bank : Bank).len →
          let y : Ctx := { s.startCtx a core x arg1 arg2 with src := .bank bank, pc := offset, cmd := some id }
          exec (.start a n core) s = .next (((s.setCtx a core y).accept a n id core k).armWatchdog a) ∧
            y.s 1 = arg1 ∧ y.s 2 = arg2 ∧ y.s 3 = BitVec.ofNat 64 (s.coreIndex a core) ∧
            y.s 4 = BitVec.ofNat 64 (s.allotCores a).length ∧ (∀ r : Reg, 4 < r.toNat → y.s r = 0) ∧ (∀ m, y.mark m = 0) ∧
            y.fifo = [] ∧ y.loops = [] ∧ y.run = .running ∧ y.tub = x.tub ∧ y.tiles = x.tiles ∧ y.active = x.active)) ∧
      (∀ bs, k.kind = .stream bs → x.run = .halted →
        exec (.stream a n core) s =
          .next (((s.setCtx a core
            { s.startCtx a core x 0 0 with
              src := .queue, pc := 0, cmd := none, iq := [{ cmd := id, base := 0, bytes := bs }], iqEnd := bs.length }).accept a n id core
                k).armWatchdog a)) ∧
      (∀ bs, k.kind = .stream bs → x.run ≠ .halted →
        let room := decide ((x.iq.map (fun b => b.bytes.length)).foldl (· + ·) 0 + bs.length ≤ 4096)
        (x.src = .queue → room = true → (∀ st, x.run ≠ .stopping st) →
          exec (.stream a n core) s =
            .next (((s.setCtx a core
              { x with iq := x.iq ++ [{ cmd := id, base := x.iqEnd, bytes := bs }], iqEnd := x.iqEnd + bs.length }).accept a n id core
                k).armWatchdog a)) ∧
        ((x.src ≠ .queue ∨ room = false ∨ ∃ st, x.run = .stopping st) → exec (.stream a n core) s = .next s)) ∧
      (k.kind = .halt →
        (x.run = .halted → exec (.halt a n core) s = .next (s.acceptDone a n id core k .ok)) ∧
        (x.run ≠ .halted →
          exec (.halt a n core) s =
            .next ((s.setCtx a core { x.stopNow .ok with haltCmds := x.haltCmds ++ [id] }).accept a n id core k)))) ∧
    (∀ bank src len, s.ctx? a core = some x → s.bankFill a core bank = some (id, src, len) →
      (Tbl.get {} x.banks bank : Bank).loading = true → s.wardHeld (core / 32) = false →
      s.spilledIn a (s.windowOf a core + bank * 0x40000) len = false →
      let s1 := s.writeP a (s.windowOf a core + bank * 0x40000) (s.readP a src len)
      let s2 := s1.logProgram a (logEntry (sha256Nat (s.readVa a src len)) len 0 (s.loadWhere a id core) bank 0x01)
      exec (.bankLoadComplete a core bank) s =
        .next ((s2.modCtx a core (fun y => { y with banks := y.banks.set bank { len := len, loading := false } })).cmdDone a id core .ok))

/-- A Carter stream's record becomes a job, or completes at once with the status that refuses it (spec/09 R275, R277). A job's
block in flight is fetched, checked and written only when its check value is that of the manifest, or is stored with its check value
in the manifest; the job ends at its last block, and before with the status of the first one refused (spec/09 R276, R280, R282); a fetch
that brings fewer bytes does not match, whatever its manifest word holds (spec/00 R9); a job that is to stop ends with its status (spec/10
R314). The model's choices: what a row moves and what the remote memory delivers (log entry 60), MEMBER_LOST on a queue pair that has failed
(log entry 61), that a job rests while no message crosses (log entry 114), and that a live activation holds fills but not rechecks (log
entry 104). A Carter has up to four blocks in flight, taken from its jobs in turn (spec/19
R532), a fill's and a recheck's among them, which take their own next step (LarderUpkeep). Completion: carterJob, carterBlockDone. -/
def Obligations.CarterJobs : Prop :=
  (∀ (s : State) (a n : Nat) (d : StreamDesc), (s.stream a n).desc = some d → d.carter = true → (s.stream a n).left ≠ 0 →
    (s.stream a n).waiting.length < 256 → n < s.reg (0x3100 + a) 0x09 →
    let r := parseJob (s.recordAt a d (s.stream a n).consumed)
    let s1 := s.modStream a n Stream.consume
    (s.jobStatus a r.1 r.2 = .ok → exec (.carterJob a n) s =
      .next (s1.addJob { allot := a, stream := n, rec' := r.1 }).fillCarters ∧
        (s1.addJob { allot := a, stream := n, rec' := r.1 }).jobs = s1.jobs.set (lowestFree s1.jobs.keys 0) { allot := a, stream := n, rec' := r.1 }) ∧
    (s.jobStatus a r.1 r.2 ≠ .ok → exec (.carterJob a n) s = .next (s1.postJob a n r.1 0 (s.jobStatus a r.1 r.2)))) ∧
  (∀ (s0 : State) (job : Nat) (j : Job) (remote : List Byte),
    let s := s0.fillCarters
    s.jobs.find job = some j → j.larder = none →
    (∀ st, j.stop = some st → exec (.carterBlockDone job remote) s0 = .next (s.endJob job j j.blocks st).fillCarters) ∧
    (j.stop = none → s.jobRests j = true → exec (.carterBlockDone job remote) s0 = .next s) ∧
    (s.jobRests j = true ↔ j.flight = 0 ∨ (s.qpLive j.allot j.rec'.qp = true ∧ s.crosses j.rec'.qp = false)) ∧
    (j.stop = none → s.jobRests j = false →
      let v := s.translateBlock j
      let r := j.rec'
      let k := j.blocks
      let len := r.blockLen k
      let ends := fun (t : State) =>
        let u := (t.petWatchdog j.allot).perf j.allot 6 len
        if r.blocks ≤ k + 1 then (u.endJob job j (k + 1) .ok).fillCarters
        else ({ u with jobs := u.jobs.set job { j with blocks := k + 1, flight := j.flight - 1 } } : State).fillCarters
      (v.blockCheck j.allot r k ≠ .ok →
        exec (.carterBlockDone job remote) s0 = .next (v.endJob job j k (v.blockCheck j.allot r k)).fillCarters) ∧
      (v.blockCheck j.allot r k = .ok → v.qpLive j.allot r.qp = false →
        exec (.carterBlockDone job remote) s0 = .next (v.endJob job j k .memberLost).fillCarters) ∧
      (v.blockCheck j.allot r k = .ok → v.qpLive j.allot r.qp = true →
        (r.store = false →
          let s1 := (v.sendQp r.qp (.hostRead r.qp (r.raddr + 65536 * k) r.rkey len) 0).bumpReg (0x3100 + j.allot) 0x22 (remote.take len).length
          let poisoned := v.poisonedVa j.allot (r.mva + 4 * k) 4
          let matches' := (tally j.allot (r.blockF k) (remote.take len)).toNat == ofLe (v.readVa j.allot (r.mva + 4 * k) 4)
          (len ≤ remote.length → poisoned = false → matches' = true →
            exec (.carterBlockDone job remote) s0 = .next (ends (s1.writeVa j.allot (r.lva + 65536 * k) (remote.take len)))) ∧
          ((remote.length < len ∨ (poisoned = false ∧ matches' = false)) →
            exec (.carterBlockDone job remote) s0 = .next (s1.endJob job j k .tallyMismatch).fillCarters) ∧
          (len ≤ remote.length → poisoned = true →
            exec (.carterBlockDone job remote) s0 = .next (s1.endJob job j k .passAbortedFault).fillCarters)) ∧
        (r.store = true → v.poisonedVa j.allot (r.lva + 65536 * k) len = false →
          let bs := v.readVa j.allot (r.lva + 65536 * k) len
          let s1 := (v.sendQp r.qp (.hostWrite r.qp (r.raddr + 65536 * k) r.rkey bs) len).bumpReg (0x3100 + j.allot) 0x22 len
          exec (.carterBlockDone job remote) s0 =
            .next (ends (s1.writeVa j.allot (r.mva + 4 * k) (leBytes 4 (tally j.allot (r.blockF k) bs).toNat))))))) ∧
  (∀ (s : State) (p fuel : Nat), 4 ≤ s.inFlight p → s.fillCarter p fuel = s) ∧
  (∀ (s0 : State) (job h : Nat) (j : Job) (w : LarderWork) (remote : List Byte),
    let s := s0.fillCarters
    s.jobs.find job = some j → j.larder = some (h, w) →
    (s.jobRests j = true ∨ (s.activating ≠ none ∧ w ≠ .recheck) → exec (.carterBlockDone job remote) s0 = .next s) ∧
    (s.jobRests j = false → (s.activating = none ∨ w = .recheck) →
      exec (.carterBlockDone job remote) s0 = .next (s.workDone job j h w remote).fillCarters.settle))

/-! ### The Green (spec/10) -/

/-- The Green's requests: one that its checks allow is admitted to the lowest free slot, which binds its roster tag (spec/10
R299, spec/06 R165); one without its pages is refused with ACCESS_DENIED. The retire ring's new entries are processed in order
(R303). A tag-map store waits until no started operation reads the rows that it concerns; then those rows are zeroed, and the
entry is in force (R301). A new geometry is in force once no request is admitted, with no slot taken (R297): slots that the Crier has retired and that
the Green has not do not hold it up, and they and the roster are dropped, the model's choice (log entry 58),
and the regions must fit into the pages of the Green's own quota and the free frames (log entry 59). Completion: submit,
retirePoll, tagMapStoreApply, greenApply. -/
def Obligations.GreenRequests : Prop :=
  (∀ (s : State) (a : Nat) (r : GreenReq), (s.stream a (s.reg (0x3100 + a) 0x0A)).head = some (.green r) → r.refused = none →
    s.bindable r = true → s.slotTooSmall r.inRows r.outRows r.rowLen = false →
    let dst : List VRange := if r.outRows * r.rowLen = 0 then [] else [⟨r.outVa, r.outRows * r.rowLen⟩]
    let slot := lowestFree s.greenSlots.keys 0
    (s.transferCheck a [⟨r.inVa, r.inRows * r.rowLen⟩] dst false ≠ .ok →
      exec (.submit a) s = .next (s.refuseSubmit a r .accessDenied).settle) ∧
    (r.inVa + r.inRows * r.rowLen ≤ loftVa → r.outVa + r.outRows * r.rowLen ≤ loftVa →
      s.transferCheck a [⟨r.inVa, r.inRows * r.rowLen⟩] dst false = .ok →
      (slot < s.reg 0x3000 0x02 → s.reg 0x3000 0x03 ≠ 0 → s.admitRoom = true → exec (.submit a) s = .next (s.admitRequest a slot r).settle) ∧
      (s.reg 0x3000 0x02 ≤ slot → exec (.submit a) s = .next s.settle))) ∧
  (∀ s : State, s.greenAllot ≠ 0 → (s.pageOf s.greenAllot retireRing).isSome = true →
    exec .retirePoll s = .next (s.drainRetires 8192).settle ∧
    (s.greenWord retireRing = s.greenWord (retireRing + 8) → s.drainRetires 8192 = s) ∧
    (s.greenWord retireRing ≠ s.greenWord (retireRing + 8) →
      let c := s.greenWord (retireRing + 8)
      s.drainRetires 8192 =
        ((s.retireEntry (s.greenWord (retireRing + 64 + c % 8192 * 8))).writeVa s.greenAllot (retireRing + 8) (leBytes 8 (c + 1))).drainRetires
          8191)) ∧
  (∀ (s : State) (a core : Nat) (x : Ctx) (v : Nat), s.onCore core = some (a, x) → x.tagStore = some v →
    let i := v / 2 ^ 256
    let w := v % 2 ^ 256
    let spans := ((x.tagMap.find i).toList ++ (if bitAt w 0 then [tagMapEnt w] else [])).map TagMapEnt.span
    ((∃ r ∈ spans, s.readersOf a r.1 r.2 = true) → exec (.tagMapStoreApply a core) s = .next s) ∧
    ((∀ r ∈ spans, s.readersOf a r.1 r.2 = false) →
      let s1 := spans.foldl (fun t r => t.writeVa a r.1 (List.replicate r.2 0)) s
      exec (.tagMapStoreApply a core) s =
        .next ((s1.writeVa a (s.windowOf a core + 0x81800 + 32 * i) (leBytes 32 w)).moveOn a core { x.setTagMap i w with tagStore := none }
          (x.pc + 4)))) ∧
  (∀ (s : State) (sess : Nat), s.answers = true → s.sessionIdle sess = true → s.mayApply sess 0x3000 0x05 = true → (∀ e ∈ s.greenSlots, e.2.dead = true) →
    let v := fun i => s.applying sess 0x3000 i
    v 2 * slotBytes (v 3) (v 4) ≤ 2 ^ 43 →
    (v 1 = 0 ∨ (v 1 ≠ s.greenAllot ∧ s.reg (0x3100 + v 1) 0x01 ≠ 0 ∧
      2 * regionPages (v 2) (v 3) (v 4) + 2 + s.pagesUsed (v 1) ≤ s.reg (0x3100 + v 1) 0x07 ∧
      s.hbmUsed.length + (2 * regionPages (v 2) (v 3) (v 4) + 2) ≤ hbmFrames)) →
    ∃ t, exec (.greenApply sess) s = .next t ∧ (∀ i ∈ [1, 2, 3, 4], t.reg 0x3000 i = v i) ∧ t.greenSlots = [] ∧ t.greenRoster = [] ∧
      t.out.head? = some (.wrote sess 0x3000 0x05 .ok))

/-! ### Allotments: definitions, turns, meters, watchdogs, faults and pages (spec/09, spec/10) -/

/-- A shared core's turns (spec/10 R306 to R309): at the end of its turn, or when it has no work, the holder leaves for the next
allotment in cyclic order that has work, and one that its budget holds leaves at once, with another or without (the model's choice, log
entry 43; what counts as work, and the first on a core without a holder: log entry 44); its context is saved once its started passes and Skimmer operations have
ended, and a load whose swapping pass has started (spec/04 R121); a program that the watchdog stops halts first, whatever its status (R318). The incoming one
is restored, and takes the core with a new turn. Without another the turn is renewed. Budgets and meters (spec/10 R307, R315): an
allotment whose residency has reached its budget is held until the next window; a microsecond on a core and a millisecond of HBM are
each counted once, whatever ticks come. Completion: turnEnd, switchOut, switchRestore, budgetReached, budgetWindow, coreMeterTick, hbmMeterTick. -/
def Obligations.SharedTurns : Prop :=
  (
  ∀ (s : State) (core : Nat),
    (∀ a, s.sharedCore core = true → (s.core core).phase = .idle → (s.core core).resident = some a → s.hasWork a core = true →
      (s.timer < (s.core core).turnStart + s.reg (0x3100 + a) 0x04 * 1000 → s.budgetHeld a = false → exec (.turnEnd core) s = .next s) ∧
      ((s.core core).turnStart + s.reg (0x3100 + a) 0x04 * 1000 ≤ s.timer → s.budgetHeld a = false →
        (∀ n, s.nextTurn core (some a) = some n → exec (.turnEnd core) s = .next (s.endTurn a core (some n) .turnEnded)) ∧
        (s.nextTurn core (some a) = none →
          exec (.turnEnd core) s = .next (s.setCore core { s.core core with turnStart := s.timer }))) ∧
      (s.budgetHeld a = true →
        exec (.turnEnd core) s = .next (s.endTurn a core (s.nextTurn core (some a)) .budgetHeld))) ∧
    (∀ a, s.sharedCore core = true → (s.core core).phase = .idle → (s.core core).resident = some a → s.hasWork a core = false →
      s.budgetHeld a = false →
      (∀ n, s.nextTurn core (some a) = some n → exec (.turnEnd core) s = .next (s.endTurn a core (some n) .haltedIdle)) ∧
      (s.nextTurn core (some a) = none → s.timer < (s.core core).turnStart + s.reg (0x3100 + a) 0x04 * 1000 →
        exec (.turnEnd core) s = .next s)) ∧
    (s.sharedCore core = true → (s.core core).phase = .idle → (s.core core).resident = none →
      (∀ n, s.nextTurn core none = some n →
        exec (.turnEnd core) s = .next (s.setCore core { s.core core with phase := .restoring n })) ∧
      (s.nextTurn core none = none → exec (.turnEnd core) s = .next s)) ∧
    (∀ next r a x, (s.core core).phase = .leaving next r → s.resident core = some (a, x) →
      ((x.passes ≠ [] ∨ x.skims ≠ [] ∨ x.load.any LoadRun.behind = true ∨ x.wdStop = true) →
        exec (.switchOut core) s = .next s) ∧
      (x.passes = [] → x.skims = [] → x.load.any LoadRun.behind = false → x.wdStop = false → ∃ t, exec (.switchOut core) s = .next t ∧ (t.core core).resident = none ∧
        (t.core core).phase = (match next with | none => SwitchPhase.idle | some n => .restoring n) ∧
        (t.ctx a core).tub = x.tub ∧ (t.ctx a core).sregs = x.sregs ∧ (t.ctx a core).pc = x.pc ∧ (t.ctx a core).marks = x.marks ∧
        (t.ctx a core).fifo = x.fifo ∧ t.mem = s.mem ∧ t.regs = s.regs)) ∧
    (∀ n x, (s.core core).phase = .restoring n → s.ctx? n core = some x → s.wardHeld (core / 32) = false → x.savePoison = false →
      ∃ t, exec (.switchRestore core) s = .next t ∧ (t.core core).resident = some n ∧ (t.core core).turnStart = s.timer ∧
        (t.core core).phase = .idle ∧ (t.ctx n core).tub = x.tub ∧ (t.ctx n core).sregs = x.sregs ∧ (t.ctx n core).pc = x.pc ∧
        (t.ctx n core).run = x.run ∧ t.regs = s.regs)) ∧
  (
  ∀ (s : State) (n core : Nat),
    (s.reg (0x3100 + n) 0x05 ≠ 0 → s.reg (0x3100 + n) 0x05 * 1000 ≤ (s.allot n).residency → s.budgetHeld n = false →
      ∃ t, exec (.budgetReached n) s = .next t ∧ t.budgetHeld n = true ∧ t = s.setAllot n { s.allot n with held := true }) ∧
    (s.timer % 60000000000 = 0 → ∃ t, exec .budgetWindow s = .next t ∧ (∀ m, t.budgetHeld m = false ∧ (t.allot m).residency = 0) ∧
      t.mem = s.mem ∧ t.regs = s.regs ∧ t.ctxs = s.ctxs ∧ t.cores = s.cores) ∧
    (s.metered n core = true → Tbl.get 0 (s.allot n).coreTicks core < s.timer / 1000 →
      ∃ t, exec (.coreMeterTick n core) s = .next t ∧ t.reg (0x3100 + n) 0x20 = (s.reg (0x3100 + n) 0x20 + 1) % 2 ^ 64 ∧
        Tbl.get 0 (t.allot n).coreTicks core = s.timer / 1000 ∧
        (t.allot n).residency = (s.allot n).residency + (if (s.allot n).shared.contains core then 1 else 0) ∧
        exec (.coreMeterTick n core) t = .next t ∧ t.ctxs = s.ctxs ∧ t.mem = s.mem) ∧
    ((s.allot n).hbmTick < s.timer / 1000000 → s.reg (0x3100 + n) 0x01 ≠ 0 →
      ∃ t, exec (.hbmMeterTick n) s = .next t ∧
        t.reg (0x3100 + n) 0x21 = (s.reg (0x3100 + n) 0x21 + s.meteredMiB n) % 2 ^ 64 ∧ exec (.hbmMeterTick n) t = .next t ∧ t.ctxs = s.ctxs ∧ t.mem = s.mem))

/-- A watchdog that has run for its period stops every core of its allotment, one after another (watchdogCore), but for those of a held
ward, which stop when the hold lifts (spec/04 R121; the mark that they then stop by is the model's, log entry 53), and its Carter jobs at
their next block, and stays stopped (spec/10 R313, R314). What watchdogCore leaves of a core: its passes, its started Skimmer and Trowel
operations and its queues are gone, and a program that had not halted is on its way to its halt with WATCHDOG in the choice of R9, which it
reaches without another turn of a shared core. A fault in what a started pass reads stops the program with a fault record: queued
operations are gone, and the run ends with PASS_ABORTED_FAULT (R311). Completion: watchdogExpiry, fault. -/
def Obligations.WatchdogAndFault : Prop :=
  (∀ (s : State) (n t0 : Nat), (s.allot n).wdSince = some t0 → s.reg (0x3100 + n) 0x0B ≠ 0 →
    (s.timer < t0 + s.reg (0x3100 + n) 0x0B * 1000 → exec (.watchdogExpiry n) s = .next s) ∧
    (t0 + s.reg (0x3100 + n) 0x0B * 1000 ≤ s.timer →
      let stopped := (s.allotCores n).foldl (fun u c =>
        if u.wardHeld (c / 32) then u.modCtx n c (fun x => { x with expired := true }) else u.watchdogCore n c) s
      let t := (stopped.stopJobs n .watchdog).modAllot n (fun x => { x with wdSince := none, wdSpent := true })
      exec (.watchdogExpiry n) s = .next t ∧ (t.allot n).wdSince = none ∧ (t.allot n).wdSpent = true ∧
        (∀ j ∈ t.jobs, j.2.allot = n → j.2.larder = none → j.2.stop.isSome = true))) ∧
  (∀ (u : State) (n c : Nat) (x : Ctx), u.ctx? n c = some x →
    (((u.modCtx n c (fun y => { y with expired := true })).ctx n c) = { x with expired := true }) ∧
    ((u.watchdogCore n c).ctx n c).passes = [] ∧ ((u.watchdogCore n c).ctx n c).skims = [] ∧ ((u.watchdogCore n c).ctx n c).trowels = [] ∧
    (x.run = .halted → ((u.watchdogCore n c).ctx n c).run = .halted) ∧
    (x.run = .running → ((u.watchdogCore n c).ctx n c).run = .stopping .watchdog) ∧
    (∀ st, x.run = .stopping st → ((u.watchdogCore n c).ctx n c).run = .stopping (stPick st .watchdog)) ∧
    (x.run ≠ .halted → ((u.watchdogCore n c).ctx n c).wdStop = true ∧ ((u.watchdogCore n c).ctx n c).lathQ = [] ∧
      ((u.watchdogCore n c).ctx n c).skimQ = [] ∧ ((u.watchdogCore n c).ctx n c).trowelQ = [] ∧ ((u.watchdogCore n c).ctx n c).mootQ = [])) ∧
  (∀ (s : State) (a core : Nat) (va : BitVec 48) (x : Ctx) (p : PassRun) (pa : Nat), s.ctx? a core = some x → s.wardHeld (core / 32) = false →
    va ≠ 0 → s.paOf a va.toNat = some pa →
    x.passes.find? (fun p => p.status.isNone && p.fp.readsVa va.toNat 1) = some p →
    exec (.fault a core .lath .poison va) s = .next ((s.addPoison [wordOf pa]).takeFault a core .lath .poison va.toNat p.idx)) ∧
  (∀ x : RunState, x ≠ .halted → (∃ st, x.faulted = .stopping st) ∧ (∀ st, x = .stopping st → x.faulted = .stopping (stPick st .passAbortedFault)) ∧
    (x = .running → x.faulted = .stopping .passAbortedFault))

/-- Pages that parties ask for (spec/09 R257 to R260, R270, R271): mapping takes a free frame of HBM under the attributes asked
for; a page that no started operation uses is unmapped at once, its frame zeroed under SCRUB and free; a removal of rights
applies when nothing holds it up; a change of attributes takes effect at once unless it takes a right from a page that a started
operation uses, or an earlier request for the page waits, and one of attributes that are not permitted is refused (R258 to R260). The
requests as a command of its own, with who may ask and is refused, the lowest free frame, and the order of waiting removals are the model's
choices (log entries 48 to 50). The Verger takes a Loft page away and gives it back, but not while a live activation runs (spec/15
R451). Completion: pageAttributeRequest, rightRemovalApply, pageSpill, pageReturn. -/
def Obligations.PageCommands : Prop :=
  (∀ (s : State) (sess n : Nat) (va : BitVec 48), s.answers = true → s.sessionIdle sess = true →
    let v := pageBase va.toNat
    (∀ p, (s.actsTenant sess n || s.actsOperator sess) = true → s.reg (0x3100 + n) 0x01 = 1 → s.mappable n v = true → v < loftVa →
      s.attrsOk n p = true → s.pageOf n v = none → s.pagesUsed n < s.reg (0x3100 + n) 0x07 → lowestFree s.hbmUsed 0 < hbmFrames →
      let f := lowestFree s.hbmUsed 0
      exec (.pageAttributeRequest sess n va (.map p)) s =
        .next ((({ s with hbmUsed := insertNat s.hbmUsed f } : State).putPage n v (some (pageFor n f p))).emit (.wrote sess (0x3100 + n) 0 .ok))) ∧
    (∀ d, (s.actsTenant sess n || s.actsOperator sess) = true → s.mappable n v = true → v < loftVa → s.pageOf n v = some d →
      s.inUse n v 0x200000 = false → s.removals = [] →
      exec (.pageAttributeRequest sess n va .unmap) s =
        .next ((s.putPage n v none).emit (.wrote sess (0x3100 + n) 0 .ok))) ∧
    (∀ p d, s.pageOf n v = some d → (s.session sess).isSome = true →
      let new : PageDesc := { pageFor n d.frame p with spilled := d.spilled, owner := d.owner }
      let waits := s.removals.any (fun r => r.allot == n && r.va == v) || (takesRight d p && s.inUse n v (pageSize v))
      ((s.mayChange sess n v = false ∨ s.attrsOk n p = false) →
        exec (.pageAttributeRequest sess n va (.change p)) s = .next (s.emit (.wrote sess (0x3100 + n) 0 .accessDenied))) ∧
      (s.mayChange sess n v = true → s.attrsOk n p = true →
        (waits = false → exec (.pageAttributeRequest sess n va (.change p)) s =
          .next ((s.putPage n v (some new)).emit (.wrote sess (0x3100 + n) 0 .ok))) ∧
        (waits = true → exec (.pageAttributeRequest sess n va (.change p)) s =
          .next ((s.askRemoval n v (pageSize v) (.page (some new))).emit (.wrote sess (0x3100 + n) 0 .ok))))) ∧
    (s.pageOf n v = none → (s.session sess).isSome = true →
      exec (.pageAttributeRequest sess n va .unmap) s = .next (s.emit (.wrote sess (0x3100 + n) 0 .accessDenied)))) ∧
  (∀ (s : State) (i : Nat) (r : Removal), s.activating = none → s.removals[i]? = some r →
    (s.removalReady i r = false → exec (.rightRemovalApply i) s = .next s) ∧
    (s.removalReady i r = true →
      exec (.rightRemovalApply i) s = .next (({ s with removals := s.removals.eraseIdx i } : State).doRemoval r))) ∧
  (∀ (s : State) (a core page : Nat) (d : PageDesc), (s.ctx a core).pages.find page = some d →
    (d.spilled = false → (s.ctx? a core).isSome = true → s.activating = none → ∃ t, exec (.pageSpill a core page) s = .next t ∧
      (t.ctx a core).pages.find page = some { d with spilled := true }) ∧
    (d.spilled = true → s.activating = none →
      exec (.pageReturn a core page) s =
        .next ((s.modCtx a core (fun x => { x with pages := x.pages.set page { d with spilled := false } })).writeHeld a core page)) ∧
    (d.spilled = false → exec (.pageReturn a core page) s = .next s) ∧
    (s.activating ≠ none → exec (.pageSpill a core page) s = .next s ∧ exec (.pageReturn a core page) s = .next s))

/-! ### Applies, counters, the Larder and the Well (spec/10 to spec/12, spec/16) -/

/-- Applies of settings (spec/16 R472): a field takes the session's pending value where the session may write the field, and else
keeps the value in force; nothing else of the Parish Register changes. A session without the right is refused, and nothing takes
effect, for each of the seven applies. A host port that an apply disables goes dark (spec/17 R502, R503), and one that it enables trains,
from phase 6 of the bring-up on (spec/18 R523). The hold threshold is raised to 5 °C above the throttle onset (table Thermal object), a setpoint goes onto the rail of a
ward that no throttle holds (spec/18 R514, R525), and fabric and route settings rebuild the routes.
Completion: powerApply, mgmtPortApply, hostPortApply, setpointApply, thermalApply, fabricApply, routesApply. -/
def Obligations.SettingsApply : Prop :=
  ∀ (s : State) (sess : Nat), s.answers = true → s.sessionIdle sess = true →
    let applied := fun (t : State) (idx sub : Nat) (fields : List Nat) =>
      (∀ i ∈ fields, t.reg idx i = s.applying sess idx i) ∧ (∀ k, (∀ i ∈ fields, k ≠ objKey idx i) → t.regs.find k = s.regs.find k) ∧
      t.out = .wrote sess idx sub .ok :: s.out ∧
      t = { s with regs := t.regs, flashWait := t.flashWait, sessions := t.sessions, out := t.out }
    (∀ x idx i v, s.session sess = some x → x.pend.find (objKey idx i) = some v →
      s.applying sess idx i = if (s.grantOf x idx i true).isSome then v else s.reg idx i) ∧
    (s.mayApply sess 0x1200 0x05 = true → ∃ t, exec (.powerApply sess) s = .next t ∧ applied t 0x1200 0x05 [1]) ∧
    ((s.session sess).isSome = true → ∀ c ∈ ([(.powerApply sess, 0x1200, 0x05), (.mgmtPortApply sess, 0x20F0, 0x06), (.thermalApply sess, 0x1210, 0x0D),
        (.fabricApply sess, 0x2100, 0x09), (.routesApply sess, 0x2184, 0x01), (.hostPortApply sess 0, 0x2001, 0x0D),
        (.hostPortApply sess 1, 0x2002, 0x0D), (.hostPortApply sess 2, 0x2003, 0x0D), (.hostPortApply sess 3, 0x2004, 0x0D),
        (.setpointApply sess 0, 0x1201, 0x04), (.setpointApply sess 1, 0x1202, 0x04), (.setpointApply sess 2, 0x1203, 0x04),
        (.setpointApply sess 3, 0x1204, 0x04)] : List (Instr × Nat × Nat)),
      s.mayApply sess c.2.1 c.2.2 = false → exec c.1 s = .next (s.emit (.wrote sess c.2.1 c.2.2 .accessDenied))) ∧
    (s.mayApply sess 0x20F0 0x06 = true → ∃ t, exec (.mgmtPortApply sess) s = .next t ∧ applied t 0x20F0 0x06 [2, 3, 4, 5]) ∧
    (∀ p, p < 4 → s.mayApply sess (0x2001 + p) 0x0D = true → s.applying sess (0x2001 + p) 1 ≠ 0 → s.portReg p 0x02 ≠ 0 →
      ∃ t, exec (.hostPortApply sess p) s = .next t ∧ applied t (0x2001 + p) 0x0D [1, 4, 5, 6, 7, 8, 9, 0x0A, 0x0B, 0x0C]) ∧
    (∀ p, p < 4 → s.mayApply sess (0x2001 + p) 0x0D = true →
      let idx := 0x2001 + p
      let u := s.takeFields sess idx 0x0D ([1, 4, 5, 6, 7, 8, 9, 0x0A, 0x0B, 0x0C].map (fun i => (idx, i, s.applying sess idx i)))
      (s.applying sess idx 1 = 0 → s.portReg p 0x02 ≠ 0 →
        exec (.hostPortApply sess p) s = .next ((u.darkPort p).emit (.wrote sess idx 0x0D .ok)) ∧ (u.darkPort p).portReg p 0x02 = 0 ∧
          ∀ k q, (u.darkPort p).qps.find k = some q → q.port = p → q.error = true) ∧
      (s.applying sess idx 1 = 0 → s.portReg p 0x02 = 0 → exec (.hostPortApply sess p) s = .next (u.emit (.wrote sess idx 0x0D .ok))) ∧
      (s.applying sess idx 1 ≠ 0 → s.portReg p 0x02 = 0 →
        (6 ≤ s.reg 0x1300 0x02 → exec (.hostPortApply sess p) s = .next ((u.setReg idx 0x02 1).emit (.wrote sess idx 0x0D .ok))) ∧
        (s.reg 0x1300 0x02 < 6 → exec (.hostPortApply sess p) s = .next (u.emit (.wrote sess idx 0x0D .ok))))) ∧
    (∀ w v, w < 4 → s.mayApply sess (0x1201 + w) 0x04 = true → s.applying sess (0x1201 + w) 1 = v → s.wardThrottled w = false → s.junction w < s.onset →
      fld (s.reg 0x1200 0x04) (8 * w + 7) (8 * w) = 0 →
      ∃ t, exec (.setpointApply sess w) s = .next t ∧ t.reg (0x1201 + w) 1 = v ∧ t.reg (0x1201 + w) 2 = v ∧
        t.out = .wrote sess (0x1201 + w) 0x04 .ok :: .avs w v :: s.out) ∧
    (s.mayApply sess 0x1210 0x0D = true →
      let on := s.applying sess 0x1210 5
      let h := s.applying sess 0x1210 6
      (on + 5000 ≤ h → ∃ t, exec (.thermalApply sess) s = .next t ∧ applied t 0x1210 0x0D [5, 6]) ∧
      (h < on + 5000 → ∃ t, exec (.thermalApply sess) s = .next t ∧ t.reg 0x1210 5 = on ∧ t.reg 0x1210 6 = on + 5000 ∧
        t.out = .wrote sess 0x1210 0x0D .clamped :: s.out)) ∧
    (s.mayApply sess 0x2100 0x09 = true → (∀ n, n < 256 → s.reg (0x3100 + n) 0x01 = 0 ∨ s.reg (0x3100 + n) 0x0F = 0xFFFF) →
      let v := s.applying sess 0x2100
      let s1 := s.takeFields sess 0x2100 0x09 [(0x2100, 1, v 1), (0x2100, 2, v 2), (0x2100, 4, v 4)]
      let s2 := if v 1 = 1 then s1.setReg 0x2100 0x03 (v 2) else s1
      exec (.fabricApply sess) s =
        .next ((s2.refabric (s2.house != s.house || s2.houseMode != s.houseMode)).emit (.wrote sess 0x2100 0x09 .ok))) ∧
    (s.mayApply sess 0x2184 0x01 = true → exec (.routesApply sess) s = .next ((s.applyRoutes sess).1.emit (.wrote sess 0x2184 0x01 .ok)) ∧
      (∀ x h v, s.session sess = some x → h < 512 → x.pend = [(objKey (0x2180 + h / 128) (h % 128 + 1), v)] →
        (s.applyRoutes sess).1.routes.find h = some v ∧ ∀ k, k ≠ h → (s.applyRoutes sess).1.routes.find k = s.routes.find k))

/-- Definitions (spec/10 R284 to R286, R317, spec/14 R409): an allotment's definition that R285 refuses changes no field, and is
recorded; one that it accepts puts every field in force at once, and a new allotment is in state 1 under the next generation; a Moot
group accepts its fields together. A reset of a defined allotment ends what it runs, and its pages of HBM and its jobs are gone;
it is defined again when its zeroing is done, which a live activation delays, and its emptied weight log then names the active Well slot
under a grant (spec/15 R446). The refusal of a reset outside state 1, the sums of R285, and what a reset does in its own command are the
model's reading (log entries 45 to 47).
Completion: allotmentApply, allotmentReset, allotmentResetDone, mootGroupApply. -/
def Obligations.DefinitionsApply : Prop :=
  ∀ (s : State) (sess n : Nat), s.answers = true → s.sessionIdle sess = true → n < 256 →
    let idx := 0x3100 + n
    let raw := fun i => s.applying sess idx i
    let shared := Nat.land (raw 3) (raw 2)
    let conf := if n == 0 || s.isGreen n then 0 else raw 0x0D
    let v := fun i => if i = 3 then shared else if i = 0x0D then conf else raw i
    let refused := (n ≠ 0 ∧ s.reg 0x1100 0x01 ≠ 2) ∨ s.defRefused n v = true ∨
      (conf ≠ 0 ∧ s.reg idx 0x0D = 0 ∧ (s.allot n).macsec.keyed = false)
    (s.mayApply sess idx 0x1F = true → refused → exec (.allotmentApply sess n) s =
      .next ((s.noteRefusal idx 0x1F .accessDenied (s.applyRole sess idx 0x1F)).emit (.wrote sess idx 0x1F .accessDenied))) ∧
    (s.mayApply sess idx 0x1F = true → ¬refused → shared = raw 3 → conf = raw 0x0D →
      let s3 := s.takeFields sess idx 0x1F (defSubs.map (fun i => (idx, i, v i)))
      let s4 := if s.reg idx 1 = 0 then (s3.setReg idx 1 1).bumpReg 0x1120 n 1 else s3
      let s5 := ((s4.setReg 0x1121 n (s4.configDigest n)).tuneGrant n (b2n (s.reg idx 1 != 0 && s.wellGrant n))).tuneConfidential n (s.reg idx 0x0D)
      let cores := (List.range 128).filter (fun c => bitAt (s.reg idx 2) c || bitAt (v 2) c || (s5.ctx? n c).isSome)
      exec (.allotmentApply sess n) s = .next (((cores.foldl (fun t c => t.settleCore c) s5).tuneWatchdog n).emit (.wrote sess idx 0x1F .ok)) ∧
        (∀ i ∈ defSubs, s4.reg idx i = raw i) ∧ s4.reg idx 1 = (if s.reg idx 1 = 0 then 1 else s.reg idx 1)) ∧
    (s.mayApply sess idx 0x1E = true → s.reg idx 1 = 1 →
      exec (.allotmentReset sess n) s = .next ((s.resetAllot n).emit (.wrote sess idx 0x1E .ok)).settle ∧
        (∀ e ∈ (s.resetAllot n).hbmPages, e.1 / 2 ^ 26 ≠ n) ∧ (∀ e ∈ (s.resetAllot n).jobs, e.2.allot ≠ n)) ∧
    (s.mayApply sess idx 0x1E = true → s.reg idx 1 ≠ 1 →
      exec (.allotmentReset sess n) s = .next ((s.noteRefusal idx 0x1E .accessDenied (s.applyRole sess idx 0x1E)).emit (.wrote sess idx 0x1E .accessDenied)).settle) ∧
    (s.reg idx 1 = 2 → s.activating = none →
      let s2 := (s.allotCores n).foldl (fun t c => t.settleCore c) (s.setReg idx 1 1)
      let s3 := if s2.wellGrant n then s2.logWell n 0x03 else s2
      exec (.allotmentResetDone n) s = .next (if s.isGreen n then s3.mapGreen else s3)) ∧
    (s.activating ≠ none → exec (.allotmentResetDone n) s = .next s) ∧
    (∀ g, g < 12 → s.mayApply sess (0x4000 + g) 0x0E = true →
      let fs := s.groupFields sess g
      let w := fun i => s.applying sess (0x4000 + g) i
      let members := (List.range 512).map (fun r => s.applying sess (0x4040 + 4 * g + r / 128) (r % 128 + 1))
      let changed := fs.any (fun e => s.reg e.1 e.2.1 != e.2.2 && !(e.1 == 0x4000 + g && e.2.1 == 4))
      (s.groupRefused g w members changed = true → exec (.mootGroupApply sess g) s =
        .next ((s.noteRefusal (0x4000 + g) 0x0E .accessDenied (s.applyRole sess (0x4000 + g) 0x0E)).emit (.wrote sess (0x4000 + g) 0x0E .accessDenied))) ∧
      (s.groupRefused g w members changed = false → ∃ t, exec (.mootGroupApply sess g) s = .next t ∧
        (∀ i, 1 ≤ i → i ≤ 9 → t.reg (0x4000 + g) i = w i) ∧
        (∀ r, r < 512 → t.reg (0x4040 + 4 * g + r / 128) (r % 128 + 1) = members.getD r 0) ∧
        t.mState g = (if s.mState g = 2 then 2 else if w 1 = 0 then 0 else 1)))

/-- Writing 1 to .09 copies .01-.08 into .11-.18, and the device timer into .0A, in one step; .0A and .11-.18 are held separately
for each session (spec/12 R364).
Completion: counterSnapshot. -/
def Obligations.CounterSnapshot : Prop :=
  ∀ (s : State) (sess n : Nat) (x : Session), s.answers = true → s.sessionIdle sess = true → s.session sess = some x → (s.mayAccess x (0x5000 + n) 0x09 true).isSome = true →
    ∃ (t : State) (y : Session), exec (.counterSnapshot sess n) s = .next t ∧ t.session sess = some y ∧
      (∀ i, 1 ≤ i → i ≤ 8 → y.ownVal (0x5000 + n) (0x10 + i) = s.reg (0x5000 + n) i) ∧ y.ownVal (0x5000 + n) 0x0A = s.timer ∧
      (∀ k, k ≠ sess → t.session k = s.session k) ∧
      t = { s with sessions := t.sessions, out := .wrote sess (0x5000 + n) 0x09 .ok :: s.out }

/-- The Larder's actions (spec/11 R327, R328, R334, R335): the command that a session's action names applies it, and answers at
once or when what it waits for completes; an action that its role or its entry's state does not allow is refused and recorded.
PREFETCH, PIN and INSTALL of an absent entry ask for its fill; without an entry quota they are refused (log entries 54, 55 and 57), and
ACCEPT completes without effect under policy 2 (log entry 56). EVICT frees an entry without a pin, zeroing its frames, and condemns
one with a pin; a withdrawn entry takes no new use.
Completion: larderPrefetch, larderPin, larderUnpin, larderEvict, larderAccept, larderWithdraw, larderInstall, larderQuery. -/
def Obligations.LarderActions : Prop :=
  (∀ (s : State) (sess : Nat) (x : Session), s.answers = true → s.session sess = some x → x.waiting = false → x.alone = false →
    s.mayApply sess 0x3301 0x05 = true →
    let owner := x.ownVal 0x3301 1
    let adapt := x.ownVal 0x3301 2
    let action := x.ownVal 0x3301 3
    let state := ((s.entryOf owner adapt).map (fun e => e.2.state)).getD 0
    let allowed := s.larderMay sess owner action && larderFits action state && owner != 0 && !s.isGreen owner
    let done := fun (t : State) (st : Status) => ((t.reportLarder sess owner adapt st).emit (.wrote sess 0x3301 0x05 st)).settle
    let waits := fun (t : State) => (t.modSession sess (fun y => { y with alone := true })).settle
    (allowed = false →
      ∀ c ∈ [(Instr.larderPrefetch sess, 1), (.larderPin sess, 2), (.larderUnpin sess, 3), (.larderEvict sess, 4), (.larderAccept sess, 5),
        (.larderWithdraw sess, 6), (.larderInstall sess, 7), (.larderQuery sess, 8)], action = c.2 →
        exec c.1 s = .next (done (s.noteRefusal 0x3301 0x05 .accessDenied (s.applyRole sess 0x3301 0x05)) .accessDenied)) ∧
    (allowed = true → action = 8 → exec (.larderQuery sess) s = .next (done s .ok)) ∧
    (∀ h e, allowed = true → s.entryOf owner adapt = some (h, e) →
      (action = 1 → e.state ≠ 1 → exec (.larderPrefetch sess) s = .next (done s .ok)) ∧
      (action = 1 → e.state = 1 → exec (.larderPrefetch sess) s =
        .next (waits (s.modEntry h (fun z => { z with waiters := z.waiters ++ [sess] })))) ∧
      (action = 2 → e.state ≠ 1 → exec (.larderPin sess) s = .next (done (s.modEntry h (fun z => { z with tenantPin := true })) .ok)) ∧
      (action = 2 → e.state = 1 → exec (.larderPin sess) s =
        .next (waits ((s.modEntry h (fun z => { z with tenantPin := true })).modEntry h (fun z => { z with waiters := z.waiters ++ [sess] })))) ∧
      (action = 3 → e.tenantPin = true → exec (.larderUnpin sess) s =
        .next (done ((s.modEntry h (fun z => { z with tenantPin := false, lastUse := s.timer })).tryFree h).wakeFills .ok)) ∧
      (action = 3 → e.tenantPin = false → exec (.larderUnpin sess) s = .next (done s .ok)) ∧
      (action = 4 → exec (.larderEvict sess) s = .next (done (s.evict h).wakeFills .ok)) ∧
      (action = 5 → e.checked = true → exec (.larderAccept sess) s =
        .next (done (if s.reg 0x3305 owner = 2 then s else (s.makeReady h 0x05).countEntries owner) .ok)) ∧
      (action = 5 → e.checked = false → exec (.larderAccept sess) s =
        .next (waits (s.modEntry h (fun z => { z with accepters := z.accepters ++ [sess] })))) ∧
      (action = 6 → exec (.larderWithdraw sess) s = .next (done (s.withdraw h).wakeFills .ok))) ∧
    (allowed = true → s.entryOf owner adapt = none →
      (s.entryQuota owner = 0 → ∀ c ∈ [(Instr.larderPrefetch sess, 1), (.larderPin sess, 2), (.larderInstall sess, 7)], action = c.2 →
        exec c.1 s = .next (done (s.noteRefusal 0x3301 0x05 .accessDenied (s.applyRole sess 0x3301 0x05)) .accessDenied)) ∧
      (s.entryQuota owner ≠ 0 →
        (action = 1 → exec (.larderPrefetch sess) s = .next (waits (s.askFill sess owner adapt .fetch false))) ∧
        (action = 2 → exec (.larderPin sess) s = .next (waits (s.askFill sess owner adapt .fetch true))) ∧
        (action = 7 → exec (.larderInstall sess) s =
          .next (waits (s.askFill sess owner adapt (.install (x.ownVal 0x3301 4)) false)))))) ∧
  (∀ (s : State) (sess owner adapt : Nat) (src : FillSrc) (pin : Bool),
    (∀ h, (s.takeEntry owner adapt src pin [sess]).2 = some h →
      let t := s.askFill sess owner adapt src pin
      t.larder.find h = some { owner := owner, adapt := adapt, tenantPin := pin, filling := some src, waiters := [sess] } ∧
        ∃ n, t.jobs.find n = some (t.fillJob h owner adapt src)) ∧
    ((s.takeEntry owner adapt src pin [sess]).2 = none → ∃ t : State, (s.askFill sess owner adapt src pin).fillWait =
      t.fillWait ++ [{ owner := owner, adapt := adapt, src := src, sess := sess, pin := pin }])) ∧
  (∀ (s : State) (h : Nat) (e : LEntry), s.larder.find h = some e →
    (e.pinned = true → (s.evict h).larder.find h = some { e with state := 4 } ∧ ∀ k, k ≠ h → (s.evict h).larder.find k = s.larder.find k) ∧
    (e.pinned = false → (s.evict h).larder.find h = none ∧
      ∀ f ∈ e.frames, ∀ p, f * 0x200000 ≤ p → p < (f + 1) * 0x200000 → Mem.read (s.evict h).mem p = 0) ∧
    (∀ e', (s.withdraw h).larder.find h = some e' → e'.state = 5 ∧ (e.state ≠ 5 → e'.tenantPin = false)))

/-- Fills, withdrawals, rechecks and quotas (spec/11 R325, R329, R330, R337, R344, R346): a fill ends by what its blocks have
come to, those still outstanding coming with its end, each once the rotation of the Carter's jobs has given it a Tally instance (spec/19
R532; that they come with the end, and what a live activation holds, are the model's choices: log entries 101 and 104); a block that comes lands when its manifest word confirms it, and is judged by
the header when it is block 0; a block of a carried image is compared with its word; a withdrawn entry that the Green still holds after
the grace is taken from it; the recomputation of a carried entry withdraws it on a mismatch, and makes it READY under policy 1 or an
ACCEPT (its order, and an ACCEPT under policy 2: log entry 56); a quota takes no more than is asked for, and answers CLAMPED for less.
Completion: fillComplete, withdrawalGraceExpiry, carryRecheckDone, entryQuotaWrite, pageQuotaWrite. -/
def Obligations.LarderUpkeep : Prop :=
  (∀ (s : State) (h : Nat) (e : LEntry) (src : FillSrc), s.larder.find h = some e → e.filling = some src →
    ∀ record image manifest : List Byte,
    (s.activating ≠ none → exec (.fillComplete h record image manifest) s = .next s) ∧
    (s.activating = none → e.ended = none → exec (.fillComplete h record image manifest) s =
      .next ((s.finishWork h record image manifest workPieces).endFill h).settle) ∧
    let c := s.fillCarters
    (s.activating = none → e.ended = some .ok → exec (.fillComplete h record image manifest) s = .next (c.fillLands h e).settle) ∧
    (∀ st, s.activating = none → e.ended = some st → st ≠ .ok →
      exec (.fillComplete h record image manifest) s = .next (c.fillFails h e st).settle) ∧
    (∀ n j w fuel, e.ended = none → c.jobs.find? (fun p => p.2.larder.map Prod.fst == some h) = some (n, j) → j.larder = some (h, w) →
      let s1 := c.workDone n j h w (w.piece j.blocks record image manifest)
      s.finishWork h record image manifest (fuel + 1) =
        if c.jobRests j then c
        else if s1.jobs.find n = c.jobs.find n then s1 else s1.finishWork h record image manifest fuel)) ∧
  (∀ (s : State) (n h : Nat) (j : Job) (e : LEntry) (remote : List Byte), s.larder.find h = some e →
    let len := j.rec'.blockLen j.blocks
    let bs := remote.take len
    let s1 := s.larderRead j (j.rec'.raddr + 65536 * j.blocks) len remote
    let s2 := (s1.store (e.blockPa j.blocks) bs).perf j.allot 6 bs.length
    (s.qpLive j.allot j.rec'.qp = false → s.workDone n j h .image remote = s.workEnds n h .memberLost) ∧
    (s.qpLive j.allot j.rec'.qp = true →
      (remote.length < len ∨ e.manifest[j.blocks]? ≠ some (adaptTally e.owner e.adapt j.blocks bs) →
        s.workDone n j h .image remote = s1.workEnds n h .tallyMismatch) ∧
      (len ≤ remote.length → e.manifest[j.blocks]? = some (adaptTally e.owner e.adapt j.blocks bs) →
        (j.blocks = 0 → s2.headerStatus e (ofLe (bs.take 256)) ≠ .ok →
          s.workDone n j h .image remote = s2.workEnds n h (s2.headerStatus e (ofLe (bs.take 256)))) ∧
        (0 < j.blocks ∨ s2.headerStatus e (ofLe (bs.take 256)) = .ok → s.workDone n j h .image remote = s2.workMoved n j h)))) ∧
  (∀ (s : State) (n h : Nat) (j : Job) (e : LEntry), s.larder.find h = some e →
    let len := j.rec'.blockLen j.blocks
    let bs := s.load (e.blockPa j.blocks) len
    s.workDone n j h .recheck [] =
      if s.poisonedRange (e.blockPa j.blocks) len = false ∧ e.manifest[j.blocks]? = some (adaptTally e.owner e.adapt j.blocks bs) then
        s.workMoved n j h
      else s.workEnds n h .tallyMismatch) ∧
  (∀ (s : State) (h t0 : Nat) (e : LEntry), s.larder.find h = some e → e.state = 5 → e.withdrawnAt = some t0 →
    (s.timer < t0 + s.reg 0x3300 0x04 * 1000 → exec (.withdrawalGraceExpiry h) s = .next s) ∧
    (s.activating ≠ none → exec (.withdrawalGraceExpiry h) s = .next s) ∧
    (s.activating = none → t0 + s.reg 0x3300 0x04 * 1000 ≤ s.timer →
      let g := s.greenAllot
      let s1 := (s.allotCores g).foldl (fun u c => u.faultRange g c (larderVa h) e.bytes) s
      let s2 := s1.modEntry h (fun x => { x with greenMapped := false })
      exec (.withdrawalGraceExpiry h) s = .next ((s2.greenSlots.filter (fun p => p.2.handle == some h && !p.2.dead)).foldl
        (fun u p => u.killSlot p.1 p.2 .adaptationWithdrawn) s2).settle)) ∧
  (∀ (s : State) (h : Nat) (e : LEntry), s.larder.find h = some e →
    (s.activating = none → exec (.carryRecheckDone h) s = .next ((s.finishRecheck h).recheck h).settle) ∧
    (e.state ≠ 3 ∨ e.checked = true ∨ e.ended ≠ none → s.finishRecheck h = s) ∧
    (s.activating ≠ none → exec (.carryRecheckDone h) s = .next s) ∧
    (e.ended = none ∨ e.state ≠ 3 ∨ e.checked = true → s.recheck h = s) ∧
    (e.state = 3 → e.checked = false → ∀ st, e.ended = some st → st ≠ .ok → s.recheck h = (s.withdraw h).wakeFills) ∧
    (e.state = 3 → e.checked = false → e.ended = some .ok →
      (s.reg 0x3305 e.owner ≠ 1 → e.accepters = [] → s.recheck h = s.modEntry h (fun x => { x with checked := true, ended := none })) ∧
      (s.reg 0x3305 e.owner = 1 → e.accepters = [] → ∀ y, (s.recheck h).larder.find h = some y → y.state = 2) ∧
      (s.reg 0x3305 e.owner = 2 → e.accepters ≠ [] →
        (s.recheck h).larder.find h = some { e with checked := true, ended := none, accepters := [] }))) ∧
  (∀ (s : State) (sess n : Nat) (v : W16) (w : W32), s.answers = true → s.sessionIdle sess = true → (s.session sess).isSome = true → n < 256 →
    (let r := s.writeQuota sess 0x3302 n v.toNat
     exec (.entryQuotaWrite sess n v) s = .next (r.1.emit (.wrote sess 0x3302 n r.2.1)).settle ∧ r.2.2 ≤ 16384 ∧ r.2.2 ≤ v.toNat ∧
       (r.2.1 = .ok → r.2.2 = v.toNat) ∧ (r.2.1 = .clamped → r.2.2 < v.toNat)) ∧
    (let r := s.writeQuota sess 0x3303 n w.toNat
     exec (.pageQuotaWrite sess n w) s = .next (r.1.emit (.wrote sess 0x3303 n r.2.1)).settle ∧ r.2.2 ≤ 442368 ∧ r.2.2 ≤ w.toNat ∧
       (r.2.1 = .ok → r.2.2 = w.toNat)))

/-- The Well (spec/16 R475 to R477): the command that a slot's pending action names applies it, at once or when what it waits for
completes; a state that does not fit is refused, and so is, from the freeze of a slot on, an apply that changes its pages, its length or its
signature; one that fits puts its action, its pages, its signature and its length, clamped to what the pages hold, in force and has its
effect: a seal or a clear asked for while one is under way joins it. A recorded digest makes the slot SEALED, with the digest of its pages
and its shape signature; a cleared slot is EMPTY, its pages' frames zeroed and its objects zero. What an action meets that comes during
another, and a seal behind a clear, are the model's choice (log entry 62).
Completion: wellGeometryApply, wellFill, wellSeal, wellSwitch, wellClear, wellSealDigestRecorded, wellClearZeroingEnds. -/
def Obligations.WellActions : Prop :=
  (∀ (s : State) (sess slot : Nat) (x : Session), s.answers = true → slot < 2 → s.session sess = some x → x.waiting = false → x.alone = false →
    s.mayApply sess (0x3201 + slot) 0x0A = true →
    let idx := 0x3201 + slot
    let v := fun i => s.applying sess idx i
    let fits := s.wellFits slot (v 9) (v 3) && (!s.wellFixed slot || [3, 4, 5].all (fun i => v i == s.reg idx i))
    let pages := fun (t : State) => max (t.wellSlot slot).frames.length (t.wellReg slot 0x03) * 0x200000
    let done := fun (t : State) (st : Status) => ((t.setReg idx 0x0B (stCode st)).emit (.wrote sess idx 0x0A st)).settle
    let waits := fun (t : State) => (t.modSession sess (fun y => { y with alone := true })).settle
    (fits = false → ∀ c ∈ [(Instr.wellGeometryApply sess slot, 0), (.wellFill sess slot, 1), (.wellSeal sess slot, 2),
        (.wellSwitch sess slot, 3), (.wellClear sess slot, 4)], v 9 = c.2 →
      exec c.1 s = .next (done (s.noteRefusal idx 0x0A .accessDenied (s.applyRole sess idx 0x0A)) .accessDenied)) ∧
    (fits = true →
      let len := if v 3 = 0 then v 4 else nearest 1 (v 3 * 0x200000) (v 4)
      let st : Status := if len = v 4 then .ok else .clamped
      let s2 := (if len = v 4 then s else s.noteClamp idx 4 (v 4) len .o).takeFields sess idx 0x0A [(idx, 3, v 3), (idx, 4, len), (idx, 5, v 5), (idx, 9, v 9)]
      (v 9 = 0 → exec (.wellGeometryApply sess slot) s = .next (done (s2.sizeWell slot) st)) ∧
      (v 9 = 1 → exec (.wellFill sess slot) s =
        .next (done ((s2.setWellReg slot 0x01 1).growWell slot (s2.wellReg slot 0x03)) st)) ∧
      (v 9 = 2 →
        let t := s2.sizeWell slot
        let u := t.modWell slot (fun w => { w with sealers := w.sealers ++ [(sess, st)] })
        ((t.wellSlot slot).sealers = [] → exec (.wellSeal sess slot) s = .next (waits (u.removeRight 0 (wellVa slot) (pages t) (.wellSeal slot)))) ∧
        ((t.wellSlot slot).sealers ≠ [] → exec (.wellSeal sess slot) s = .next (waits u))) ∧
      (v 9 = 3 → exec (.wellSwitch sess slot) s = .next (done (s2.switchWell slot) st)) ∧
      (v 9 = 4 →
        let u := s2.modWell slot (fun w => { w with clearers := w.clearers ++ [(sess, st)] })
        (s2.wellBusy slot = false → exec (.wellClear sess slot) s = .next (waits (u.removeRight 0 (wellVa slot) (pages s2) (.wellClear slot)))) ∧
        (s2.wellBusy slot = true → exec (.wellClear sess slot) s = .next (waits u))) ∧
      (∀ k, s.wellFits slot k (v 3) = true ↔ (
        (k = 0 ∧ (s.wellRole slot = 0 ∨ s.wellRole slot = 1)) ∨
        (k = 1 ∧ s.wellRole slot = 0 ∧ s.wellRole (1 - slot) ≠ 1 ∧ s.wellRole (1 - slot) ≠ 2 ∧
          v 3 ≤ (s.wellSlot slot).frames.length + s.freePages) ∨
        (k = 2 ∧ s.wellRole slot = 1) ∨
        (k = 3 ∧ s.wellRole slot = 2 ∧ (s.wellRole (1 - slot) = 3 ∨ s.wellRole (1 - slot) = 0) ∧ s.wellBusy slot = false) ∨
        (4 ≤ k ∧ (s.wellRole slot = 1 ∨ s.wellRole slot = 2 ∨ (s.wellRole slot = 4 ∧ s.wellReg slot 0x08 = 0))))))) ∧
  (∀ (s : State) (slot : Nat), slot < 2 →
    exec (.wellSealDigestRecorded slot) s = .next (s.wellSealed slot).settle ∧ exec (.wellClearZeroingEnds slot) s = .next (s.wellCleared slot).settle ∧
    ((s.wellSlot slot).sealing = false → s.wellSealed slot = s) ∧ ((s.wellSlot slot).unmapped = false → s.wellCleared slot = s) ∧
    ((s.wellSlot slot).sealing = true →
      let t := s.wellSealed slot
      t.wellRole slot = 2 ∧ t.wellDigest slot = s.wellImageDigest slot ∧ t.wellShape slot = s.wellSignature slot ∧
        (t.wellSlot slot).sealing = false ∧ (t.wellSlot slot).frames = (s.wellSlot slot).frames ∧ t.mem = s.mem) ∧
    ((s.wellSlot slot).unmapped = true →
      let t := s.wellCleared slot
      t.wellRole slot = 0 ∧ (∀ i ∈ [3, 4, 5, 6, 7], t.wellReg slot i = 0) ∧ (t.wellSlot slot).frames = [] ∧ (t.wellSlot slot).unmapped = false ∧
        (∀ f ∈ (s.wellSlot slot).frames, ∀ p, f * 0x200000 ≤ p → p < (f + 1) * 0x200000 → Mem.read t.mem p = 0) ∧
        (∀ f ∈ (s.wellSlot slot).frames, f ∉ t.hbmUsed) ∧ t.wellSlot (1 - slot) = s.wellSlot (1 - slot)))

/-! ### Life cycle, sessions and the Lych Gate (spec/15) -/

/-- The life cycle (spec/15 R431 to R434, R442): arming a Finished device publishes a nonce that is held for 600 s; a maker token
under it strips the device, and any other token discards it; maker debug opens only in Primed or Stripped; the test station's
transitions apply in their own state only, and a device is Primed again from Stripped three times at most. While the operator
list is empty, any session on the management port installs the first key, and holds role O; no write clears the list again. The
refused write that would clear it, the nonce object that reads 0 and the refused arm (log entry 65) and the reset that ends a
transition (log entry 8) are the model's choices; without power nothing happens (spec/18 R509).
Completion: stripArm, stripToken, stripNonceExpiry, makerDebugToken, testStationTransition, operatorKeyWrite. -/
def Obligations.LifeCycle : Prop :=
  (∀ (s : State) (sess : Nat), s.answers = true → s.sessionIdle sess = true →
    (s.mayApply sess 0x1102 0x01 = true → s.lifeCycle = 2 →
      ∃ (t : State) (v : Nat), exec (.stripArm sess) s = .next t ∧ v < 2 ^ 128 ∧ t.stripNonce = some (v, s.timer + 600000000000) ∧
        t.reg 0x1102 0x02 = v ∧ t.lifeCycle = 2 ∧ t.mem = s.mem ∧ t.sessions = s.sessions) ∧
    (s.mayApply sess 0x1102 0x01 = true → s.lifeCycle ≠ 2 → exec (.stripArm sess) s =
      .next ((s.noteRefusal 0x1102 0x01 .accessDenied (s.applyRole sess 0x1102 0x01)).emit (.wrote sess 0x1102 0x01 .accessDenied))) ∧
    (∀ (k : MakerToken), s.mayApply sess 0x1102 0x03 = true →
      let held := ∃ t, s.stripNonce = some (k.nonce, t) ∧ s.timer < t
      (s.lifeCycle = 2 → held → s.tokenOk k 3 = true → ∃ t, exec (.stripToken sess k) s = .next t ∧ t.lifeCycle = 3 ∧
        t.transition = true ∧ t.stripNonce = none ∧ t.out = .wrote sess 0x1102 0x03 .ok :: s.out) ∧
      (¬(s.lifeCycle = 2 ∧ held ∧ s.tokenOk k 3 = true) → ∃ t, exec (.stripToken sess k) s = .next t ∧ t.lifeCycle = s.lifeCycle ∧
        t.transition = s.transition ∧ t.stripNonce = none ∧ t.reg 0x1102 0x02 = 0 ∧
        t.out = .wrote sess 0x1102 0x03 .accessDenied :: s.out)) ∧
    (∀ x d, s.session sess = some x → d < 2 ^ 256 → x.path = .management → (∀ i, 1 ≤ i → i ≤ 4 → s.reg 0x1110 i = 0) →
      ∃ (t : State) (y : Session), exec (.operatorKeyWrite sess 1 d) s = .next t ∧ t.reg 0x1110 1 = d ∧ t.session sess = some y ∧ t.holds y .o = true)
    ∧ (∀ x slot d, s.session sess = some x → 1 ≤ slot → slot ≤ 4 → (∃ i, 1 ≤ i ∧ i ≤ 4 ∧ s.reg 0x1110 i ≠ 0) →
      (s.mayAccess x 0x1110 slot true).isNone = true →
      exec (.operatorKeyWrite sess slot d) s = .next (s.emit (.wrote sess 0x1110 slot .accessDenied))) ∧
    (∀ x slot, s.session sess = some x → 1 ≤ slot → slot ≤ 4 → s.mayApply sess 0x1110 slot = true → s.reg 0x1110 slot ≠ 0 →
      (∀ i, 1 ≤ i → i ≤ 4 → i ≠ slot → s.reg 0x1110 i = 0) →
      exec (.operatorKeyWrite sess slot 0) s = .next (s.emit (.wrote sess 0x1110 slot .accessDenied)))) ∧
  (∀ (s : State) (v e : Nat), s.stripNonce = some (v, e) →
    (s.timer < e → exec .stripNonceExpiry s = .next s) ∧
    (e ≤ s.timer → ∃ t, exec .stripNonceExpiry s = .next t ∧ t.stripNonce = none ∧ t.reg 0x1102 0x02 = 0)) ∧
  (∀ (s : State) (k : MakerToken) (d : Nat),
    (s.power ≠ .running → exec (.makerDebugToken k) s = .next s ∧ ∀ m, exec (.testStationTransition m) s = .next s) ∧
    (s.power = .running → (s.lifeCycle = 1 ∨ s.lifeCycle = 3) → s.tokenOk k Config.debugTarget = true → exec (.makerDebugToken k) s = .next (s.setReg 0x1100 0x04 1)) ∧
    (s.lifeCycle ≠ 1 → s.lifeCycle ≠ 3 → exec (.makerDebugToken k) s = .next s) ∧
    (s.power = .running → s.transition = false → s.lifeCycle = 0 → ∃ (t : State) (v : Nat), exec (.testStationTransition (.bareToPrimed d)) s = .next t ∧
      t.lifeCycle = 1 ∧ t.reg 0x1100 0x02 = d ∧ t.seed = .fused v ∧ t.deviceCert = some d ∧ t.transition = true) ∧
    (s.lifeCycle ≠ 0 → exec (.testStationTransition (.bareToPrimed d)) s = .next s) ∧
    (s.power = .running → s.transition = false → s.lifeCycle = 1 → s.tokenOk k 2 = true → ∃ t, exec (.testStationTransition (.primedToFinished k)) s = .next t ∧ t.lifeCycle = 2 ∧
      t.reg 0x1100 0x04 = 0 ∧ (∀ i, 1 ≤ i → i ≤ 4 → t.reg 0x1110 i = 0) ∧ t.transition = true) ∧
    (s.power = .running → s.transition = false → s.lifeCycle = 3 → s.reg 0x1100 0x03 < 3 → ∃ (t : State) (v : Nat),
      exec (.testStationTransition (.strippedToPrimed d)) s = .next t ∧ t.lifeCycle = 1 ∧ t.seed = .fused v ∧ t.reg 0x1100 0x02 = d ∧ t.reg 0x1100 0x03 = s.reg 0x1100 0x03 + 1 ∧ t.transition = true) ∧
    (3 ≤ s.reg 0x1100 0x03 → exec (.testStationTransition (.strippedToPrimed d)) s = .next s) ∧
    (s.transition = true → ∀ m, exec (.testStationTransition m) s = .next s) ∧
    s.debugReaches .seed = false ∧ s.debugReaches .identityKey = false)

/-- Sessions and reports (spec/15 R436, R441, R443, R448 to R450): a KEY_EXCHANGE opens a session once its answer is signed,
whose roles follow from its requester's certificate (without mutual authentication, role A only); beyond 512 sessions, or 16
requests for signing, it is refused; an ended session is gone. A report is answered with the blocks of its snapshot and their
signature under the seed's key; during a live activation or its allotment's reset it is answered in transition, and so is a CHALLENGE
in an activation. Answers on a session are secured messages under its next SEQUENCE (spec/16 R481); without power, and before phase 2 of the
boot, nothing answers (spec/18 R509, R523). That a session's roles follow from its KEY_EXCHANGE, and that it opens with the signed answer,
are the model's reading (log entry 64).
Completion: keyExchange, reportSigned, endSession, heartbeatMissed, getMeasurements, challenge. -/
def Obligations.SessionsAndReports : Prop :=
  (∀ (s : State) (path : LmpPath) (req : Requester), s.heard path = true → s.activating = none → s.transition = false →
    (512 ≤ s.sessionCount → exec (.keyExchange path req) s = .next (s.emit (.spdm none .sessionLimit))) ∧
    (s.sessionCount < 512 → s.signQ.length < 16 →
      exec (.keyExchange path req) s = .next { s with signQ := s.signQ ++ [{ sess := none, path := path, kind := .keyExchange req }] }) ∧
    (s.sessionCount < 512 → 16 ≤ s.signQ.length → exec (.keyExchange path req) s = .next (s.emit (.spdm none .busy)))) ∧
  (∀ (s : State) (r : SignReq) (rest : List SignReq), s.signQ = r :: rest →
    (∀ req, r.kind = .keyExchange req → ∃ (t : State) (x : Session), exec .reportSigned s = .next t ∧ t.session s.nextSess = some x ∧
      t.nextSess = s.nextSess + 1 ∧ t.signQ = rest ∧ x.path = r.path ∧ (t.holds x .m = true ↔ req.mutualAuth = true ∧ req.maker = true) ∧
      (t.holds x .o = true ↔ req.mutualAuth = true ∧ s.operatorKey req.keyDigest = true) ∧ t.holds x .t = false ∧ t.holds x .f = false ∧
      (∀ k, k ≠ s.nextSess → t.session k = s.session k) ∧ t.out = .spdm (some s.nextSess) .opened :: s.out) ∧
    (∀ nonce, r.kind = .challenge nonce → exec .reportSigned s =
      .next (({ s with signQ := rest } : State).reply r.sess (.challengeAuth nonce (s.sign (leBytes 32 nonce))))) ∧
    (∀ nonce blocks, r.kind = .report nonce blocks → exec .reportSigned s =
      .next (({ s with signQ := rest } : State).reply r.sess (.measurements nonce blocks (s.sign (reportMessage nonce blocks)))))) ∧
  (∀ (s : State) (ans : SpdmAns), s.reply none ans = s.emit (.spdm none ans) ∧
    ∀ sess, (s.session sess = none → s.reply (some sess) ans = s.emit (.spdm (some sess) ans)) ∧
      (∀ x, s.session sess = some x → ∃ y, (s.reply (some sess) ans).session sess = some y ∧ y = { x with sent := y.sent } ∧ x.sent < y.sent ∧
        (s.reply (some sess) ans).out = .secure sess x.sent ans :: s.out ∧
        (∀ k, k ≠ sess → (s.reply (some sess) ans).session k = s.session k) ∧ (s.reply (some sess) ans).regs = s.regs)) ∧
  (∀ (s : State) (sess nonce : Nat) (x : Session), s.session sess = some x →
    (∀ i ∈ [Instr.endSession sess, .heartbeatMissed sess], (i = .endSession sess → s.talks = true) → ∃ t, exec i s = .next t ∧ t.session sess = none ∧
      (∀ k, k ≠ sess → t.session k = s.session k) ∧ t.out = .spdm (some sess) .ended :: s.out ∧ t.ctxs = s.ctxs ∧ t.mem = s.mem) ∧
    (s.talks = false → exec (.getMeasurements sess nonce) s = .next s ∧ exec (.endSession sess) s = .next s) ∧
    (s.activating ≠ none → s.talks = true → exec (.getMeasurements sess nonce) s = .next (s.reply (some sess) (.inTransition 250))) ∧
    (s.activating = none → s.transition = false → s.up = true → s.signQ.length < 16 →
      (∀ n, x.inScope = some n → s.reg (0x3100 + n) 0x01 ≠ 2) → exec (.getMeasurements sess nonce) s =
        .next { s with signQ := s.signQ ++ [{ sess := some sess, path := x.path, kind := .report nonce (s.reportBlocks x) }] }) ∧
    (∀ n, s.activating = none → s.transition = false → s.up = true → x.inScope = some n → s.reg (0x3100 + n) 0x01 = 2 →
      ∃ (t : State) (hint : Nat), 1 ≤ hint ∧ exec (.getMeasurements sess nonce) s = .next t ∧
        t.out = .secure sess x.sent (.inTransition hint) :: s.out)) ∧
  (∀ (s : State) (sess nonce : Nat), s.session sess = none → s.talks = true →
    exec (.endSession sess) s = .next (s.emit (.spdm (some sess) .invalidSession)) ∧ exec (.heartbeatMissed sess) s = .next s ∧
    (s.activating = none → s.transition = false →
      exec (.getMeasurements sess nonce) s = .next (s.emit (.spdm (some sess) .invalidSession)))) ∧
  (∀ (s : State) (path : LmpPath) (nonce : Nat), s.heard path = true →
    (s.activating = none → s.signQ.length < 16 →
      exec (.challenge path nonce) s = .next { s with signQ := s.signQ ++ [{ sess := none, path := path, kind := .challenge nonce }] }) ∧
    (s.activating = none → 16 ≤ s.signQ.length → exec (.challenge path nonce) s = .next (s.emit (.spdm none .busy))) ∧
    (s.activating ≠ none → exec (.challenge path nonce) s = .next (s.emit (.spdm none (.inTransition 250)))))

/-- The Lych Gate (spec/15 R448, R454 to R456): a claim binds an authenticated session of a Finished device to an allotment that
is free, whose keeper it becomes, or that it keeps; a key moves the channel to the next association and leaves the previous one
to be received for 1 s; logs give their retained entries; a release clears the keeper and ends every session bound to the
allotment. A claim by a session bound to another allotment is refused (R454). That messages other than a claim or a scope are refused
on a session that is not bound, and a claim of allotment 0, is the model's reading (log entry 66).
Completion: lychClaim, lychScope, lychKey, lychLog, lychRelease, oldAnExpiry. -/
def Obligations.LychGate : Prop :=
  ∀ (s : State) (sess : Nat) (x : Session), s.answers = true → s.session sess = some x →
    (∀ n, x.authed = true → s.lifeCycle = 2 → n ≠ 0 → n < 256 → x.bound = none →
      (s.reg (0x3100 + n) 0x01 = 1 → s.keeper n = 0 → ∃ t, exec (.lychClaim sess n) s = .next t ∧ t.keeper n = x.keyDigest ∧
        t.session sess = some { x with bound := some n, sent := x.sent + 1 } ∧ t.out = .secure sess x.sent (.lych .ok []) :: s.out) ∧
      (s.keeper n ≠ 0 → s.keeper n = x.keyDigest → ∃ t, exec (.lychClaim sess n) s = .next t ∧ t.keeper n = x.keyDigest ∧
        t.session sess = some { x with bound := some n, sent := x.sent + 1 } ∧ t.holds { x with bound := some n } .t = true) ∧
      (s.keeper n ≠ 0 → s.keeper n ≠ x.keyDigest → exec (.lychClaim sess n) s = .next (s.lych sess .accessDenied))) ∧
    (∀ n, (x.authed = false ∨ s.lifeCycle ≠ 2 ∨ n = 0) → exec (.lychClaim sess n) s = .next (s.lych sess .accessDenied)) ∧
    (∀ n m, x.bound = some m → m ≠ n → exec (.lychClaim sess n) s = .next (s.lych sess .accessDenied)) ∧
    (∀ n, n < 256 → (x.oper = true → exec (.lychScope sess n) s = .next ((s.setSession sess { x with scope := some n }).lych sess .ok)) ∧
      (x.oper = false → exec (.lychScope sess n) s = .next (s.lych sess .accessDenied))) ∧
    (∀ n g, x.bound = some n →
      let m := (s.allot n).macsec
      ∃ t, exec (.lychKey sess g) s = .next t ∧ (t.allot n).macsec.keyed = true ∧ (t.allot n).macsec.sent = [] ∧
        (m.keyed = false → (t.allot n).macsec.an = 0 ∧ (t.allot n).macsec.old = [] ∧
          ∀ k q, t.qps.find k = some q → q.allot = n → q.isProtected = false → q.error = true) ∧
        (m.keyed = true → (t.allot n).macsec.an = (m.an + 1) % 4 ∧
          (m.an < 4 → (t.allot n).macsec.old.find m.an = some (s.timer + 1000000000) ∧
            (t.allot n).macsec.keys.find m.an = m.keys.find m.an) ∧
          (∀ k, k ≠ m.an → k ≠ (m.an + 1) % 4 → (t.allot n).macsec.old.find k = m.old.find k ∧ (t.allot n).macsec.keys.find k = m.keys.find k) ∧
          t.qps = s.qps)) ∧
    (∀ n w first count, x.bound = some n →
      let m := if w then (s.allot n).weightLog else (s.allot n).programLog
      let got := (List.range count).map (fun i => m.entryAt (first.toNat + i))
      (1 ≤ count → count ≤ 64 → (∀ e ∈ got, e.isSome = true) →
        exec (.lychLog sess w first count) s = .next (s.lych sess .ok (got.filterMap id).flatten)) ∧
      ((count = 0 ∨ 64 < count) → exec (.lychLog sess w first count) s = .next (s.lych sess .accessDenied))) ∧
    (∀ n, x.bound = some n → ∃ t, exec (.lychRelease sess) s = .next t ∧ t.keeper n = 0 ∧ (∀ e ∈ t.sessions, e.2.bound ≠ some n) ∧
      (∀ k, (∀ e ∈ s.sessions, e.1 = k → e.2.bound ≠ some n) → t.session k = s.session k)) ∧
    (x.bound = none → ∀ g w first count, exec (.lychKey sess g) s = .next (s.lych sess .accessDenied) ∧
      exec (.lychLog sess w first count) s = .next (s.lych sess .accessDenied) ∧
      exec (.lychRelease sess) s = .next (s.lych sess .accessDenied)) ∧
    (∀ n an t0, (s.allot n).macsec.old.find an = some t0 →
      ∃ t, exec (.oldAnExpiry n) s = .next t ∧ (t.allot n).macsec.an = (s.allot n).macsec.an ∧
        (s.timer < t0 → (t.allot n).macsec.old.find an = some t0 ∧
          (t.allot n).macsec.keys.find an = (s.allot n).macsec.keys.find an) ∧
        (t0 ≤ s.timer → (t.allot n).macsec.old.find an = none ∧ (t.allot n).macsec.keys.find an = none))

/-! ### Firmware and LMP (spec/16) -/

/-- Firmware updates (spec/16 R479, spec/15 R440, R443, R451): STAGE takes an image that verifies and is no older than its
component's floor; ACTIVATE of the staged runtime ends every session and runs until the new runtime answers; COMMIT raises the
floor, which is fused, to the running version; DISCARD drops the staged image. A refusal is recorded and changes nothing else; an apply
that is done has its fields in force, the action among them (R472). The digest of what is staged, an ACTIVATE's missing answer, a DISCARD of
nothing, and that a waiting reset runs first, are the model's choices (log entry 71).
Completion: fwStage, fwActivate, fwCommit, fwDiscard, liveActivationDone. -/
def Obligations.FirmwareUpdates : Prop :=
  (∀ (s : State) (sess comp len : Nat), s.hears = true → s.sessionIdle sess = true → s.mayApply sess 0x7F00 0x04 = true → comp = s.applying sess 0x7F00 1 → comp < 6 →
    len = s.applying sess 0x7F00 3 →
    let refused := ((s.noteRefusal 0x7F00 0x04 .accessDenied (s.applyRole sess 0x7F00 0x04)).setReg 0x7F00 0x05 (stCode .accessDenied)).emit
      (.wrote sess 0x7F00 0x04 .accessDenied)
    let img := s.fwBuffer % 2 ^ (8 * len)
    (s.applying sess 0x7F00 2 = 1 →
      (Config.imageSvn comp img len = none → exec (.fwStage sess) s = .next refused) ∧
      (∀ svn, Config.imageSvn comp img len = some svn →
        (svn < s.reg 0x1101 comp → exec (.fwStage sess) s = .next refused) ∧
        (s.reg 0x1101 comp ≤ svn → ∃ t, exec (.fwStage sess) s = .next t ∧
          t.staged = some { component := comp, digest := sha256Nat (leBytes len img), svn := svn } ∧ t.reg 0x7F00 0x06 = comp ∧
          t.reg 0x7F00 0x08 = svn ∧ t.reg 0x7F00 2 = 1 ∧ t.components = s.components ∧ t.out = .wrote sess 0x7F00 0x04 .ok :: s.out))) ∧
    (s.applying sess 0x7F00 2 = 2 →
      (s.staged = none ∨ comp ≠ 3 → exec (.fwActivate sess) s = .next refused) ∧
      (∀ g, s.staged = some g → comp = 3 → g.component = 3 → s.up = true → ∃ t, exec (.fwActivate sess) s = .next t ∧
        t.activating = some s.timer ∧ t.sessions = [] ∧ t.signQ = [] ∧ t.stripNonce = none ∧ t.ctxs = s.ctxs ∧ t.mem = s.mem)) ∧
    (s.applying sess 0x7F00 2 = 3 → ∃ t, exec (.fwCommit sess) s = .next t ∧
      t.reg 0x1101 comp = max (s.reg 0x1101 comp) (s.component comp).2 ∧ t.staged = s.staged) ∧
    (s.applying sess 0x7F00 2 = 4 → ∃ t, exec (.fwDiscard sess) s = .next t ∧ t.staged = none ∧ t.reg 0x7F00 0x06 = 0 ∧
      t.components = s.components)) ∧
  (∀ (s : State) (t0 : Nat) (g : Staged), s.activating = some t0 → s.staged = some g →
    (s.resetPending = false → ∃ u : State, exec .liveActivationDone s = .next u.resume ∧ u.activating = none ∧ u.staged = none ∧
      u.component g.component = (g.digest, g.svn) ∧ u.ctxs = s.ctxs ∧ u.mem = s.mem ∧ u.larder = s.larder) ∧
    (s.resetPending = true → ∃ t, exec .liveActivationDone s = .next t ∧ t.mem = [] ∧ t.reg 0x1300 0x03 = 0x03)) ∧
  (∀ s : State, s.activating = none → exec .liveActivationDone s = .next s)

/-- LMP (spec/16 R469, R471, R480 to R485): a datagram with a bad header or length is dropped and recorded; a message's sequence
number is accepted once, and when it lies no more than 64 below the highest accepted. A message under an answered TXID has its
answer again, one under way is ignored, a malformed one is answered with SHAPE_MISMATCH alone, and any other waits in order. A
single write takes effect, clamped as its object says, becomes pending under an apply, or is held for the session; behind an operation
that waits it has no effect yet (R484). The dropped datagrams, the malformed messages that can be cut into operations, the 16 answers kept
and a message of more than 65,536 bytes are the model's reading (log entries 72 to 74, 80, 115 and 116).
Completion: lmpDatagram, lmpAccessMessage, registerWrite. -/
def Obligations.LmpMessages : Prop :=
  (∀ (s : State) (path : LmpPath) (sess : Nat) (bytes : List Byte), s.heard path = true → s.hears = true →
    let w := ofLe (bytes.take 16)
    let good := 16 ≤ bytes.length ∧ bytes.length ≤ pathLimit path ∧ fld w 15 0 = 0x4D4C ∧ fld w 23 16 = 1 ∧ fld w 63 32 = 0 ∧
      (fld w 31 24 = 1 ∨ fld w 31 24 = 2)
    (¬good → exec (.lmpDatagram path sess bytes) s = .next (s.logDrop 0xFFFF 0)) ∧
    (good → fld w 31 24 = 2 →
      (s.session sess = none → exec (.lmpDatagram path sess bytes) s = .next (s.emit (.spdm (some sess) .invalidSession))) ∧
      (∀ x, s.session sess = some x →
        (x.acceptsSeq (fld w 127 64) = true →
          let y := x.acceptSeq (fld w 127 64)
          exec (.lmpDatagram path sess bytes) s = .next ((s.setSession sess y).takeMessage sess y (bytes.drop 16))) ∧
        (x.acceptsSeq (fld w 127 64) = false → exec (.lmpDatagram path sess bytes) s = .next s)))) ∧
  (∀ (x : Session) (n : Nat), (x.acceptsSeq n = true ↔ n ∉ x.accepted ∧ ∀ m ∈ x.accepted, m ≤ n + 64) ∧
    (∀ m, m ∈ (x.acceptSeq n).accepted → m = n ∨ m ∈ x.accepted) ∧ (x.acceptSeq n).acceptsSeq n = false) ∧
  (∀ (s : State) (sess : Nat) (bytes : List Byte), s.hears = true →
    (s.session sess = none → exec (.lmpAccessMessage sess bytes) s = .next (s.emit (.spdm (some sess) .invalidSession))) ∧
    (∀ x, s.session sess = some x →
      let h := ofLe (bytes.take 8)
      let txid := h % 2 ^ 32
      let r := parseOps (fld h 39 32) (bytes.drop 8)
      let good := r.2 && decide (1 ≤ fld h 39 32) && decide (fld h 39 32 ≤ 64) && fld h 63 40 == 0
      (maxSpdmMessage < bytes.length → exec (.lmpAccessMessage sess bytes) s = .next s) ∧ maxSpdmMessage = 65536 ∧
      (8 ≤ bytes.length → bytes.length ≤ maxSpdmMessage →
        (∀ e, x.answers.find? (fun e => e.1 == txid) = some e → ∃ t, exec (.lmpAccessMessage sess bytes) s = .next t ∧
          t.out = .answer sess x.sent e.2 :: s.out ∧ t.regs = s.regs ∧ t.mem = s.mem) ∧
        (x.answers.find? (fun e => e.1 == txid) = none →
          ((∃ m ∈ x.msgs, m.txid = txid) → exec (.lmpAccessMessage sess bytes) s = .next s) ∧
          ((∀ m ∈ x.msgs, m.txid ≠ txid) → x.msgs.length < 16 →
            (good = true → exec (.lmpAccessMessage sess bytes) s =
              .next (s.setSession sess { x with msgs := x.msgs ++ [{ txid := txid, todo := r.1, ready := [] }] }).settle) ∧
            (good = false → exec (.lmpAccessMessage sess bytes) s =
              .next (s.sendAnswer sess txid (answerBytes txid (r.1.map (fun o => (o, Status.shapeMismatch, o.value))))))))))) ∧
  (∀ (s : State) (sess : Nat) (index : W16) (sub : Byte) (value : Nat) (x : Session) (d : ObjDef) (r : Role),
    let idx := index.toNat
    let su := sub.toNat
    s.hears = true → s.sessionIdle sess = true → plainObject idx su = true → s.recoveryBars idx = false → idx ≠ 0x7F01 →
    s.session sess = some x → objDef idx su = some d →
    (s.mayAccess x idx su true = none → exec (.registerWrite sess index sub value) s = .next (s.emit (.wrote sess idx su .accessDenied))) ∧
    (s.mayAccess x idx su true = some r → s.sealedField idx su = true →
      exec (.registerWrite sess index sub value) s = .next (s.emit (.wrote sess idx su .accessDenied))) ∧
    (s.mayAccess x idx su true = some r → s.sealedField idx su = false → 2 ^ (8 * d.ty.size) ≤ value →
      exec (.registerWrite sess index sub value) s = .next (s.emit (.wrote sess idx su .shapeMismatch))) ∧
    (s.mayAccess x idx su true = some r → s.sealedField idx su = false → value < 2 ^ (8 * d.ty.size) → s.clampWrite x r d idx su value = value →
      ∃ t, exec (.registerWrite sess index sub value) s = .next t ∧ t.out = .wrote sess idx su .ok :: s.out ∧ t.mem = s.mem ∧
        (perSession idx su = true → t.regs = s.regs ∧ ∃ y, t.session sess = some y ∧ y.ownVal idx su = value) ∧
        (perSession idx su = false → (applyOf idx su).isSome = true →
          t.regs = s.regs ∧ ∃ y, t.session sess = some y ∧ y.pend.find (objKey idx su) = some value) ∧
        (perSession idx su = false → (applyOf idx su).isSome = false → t.reg idx su = value ∧ t.sessions = s.sessions ∧
          ∀ k, k ≠ objKey idx su → t.regs.find k = s.regs.find k)) ∧
    (∀ c, s.mayAccess x idx su true = some r → s.sealedField idx su = false → value < 2 ^ (8 * d.ty.size) → s.clampWrite x r d idx su value = c →
      c ≠ value →
      ∃ t, exec (.registerWrite sess index sub value) s = .next t ∧ t.out = .wrote sess idx su .clamped :: s.out ∧ t.mem = s.mem ∧
        (perSession idx su = true → ∃ y, t.session sess = some y ∧ y.ownVal idx su = c) ∧
        (perSession idx su = false → (applyOf idx su).isSome = true → ∃ y, t.session sess = some y ∧ y.pend.find (objKey idx su) = some c) ∧
        (perSession idx su = false → (applyOf idx su).isSome = false → t.reg idx su = c)) ∧
    (∀ (s' : State), s'.hears = true → s'.sessionIdle sess = false → exec (.registerWrite sess index sub value) s' = .next s'))

/-! ### Host ports (spec/17) -/

/-- A refused message writes no byte; it is answered with a NAK for a remote access error, and the queue pair enters the error
state: a wrong R_Key, a range that inbound messages never reach, a check that R264 refuses (a FROZEN page among them) (spec/17
R493, R494). -/
def Obligations.RdmaRefused : Prop :=
  ∀ (s : State) (qp : Nat) (q : Qp) (rkey : W32) (va : W64) (data : List Byte) (len : Nat), s.liveQp qp = some q →
    let refuses := fun (i : Instr) => ∃ t, exec i s = .next t ∧ t = (((s.portArrive q.port).failQp qp).sendQp qp (.nak qp false) 0) ∧
      t.mem = s.mem ∧ t.poison = s.poison ∧ t.ctxs = s.ctxs ∧ t.cores = s.cores ∧ t.jobs = s.jobs ∧
      (s.portReg q.port 0x06 = 0 → (s.channel q.allot).keyed = false → t.out.head? = some (.nak qp false)) ∧
      (∃ y, t.qps.find qp = some y ∧ y.error = true) ∧ ∀ k, k ≠ qp → t.qps.find k = s.qps.find k
    let v := va.toNat
    (rkey.toNat ≠ q.rkey → refuses (.rdmaWriteInbound qp rkey va data) ∧ refuses (.rdmaReadInbound qp rkey va len)) ∧
    (rkey.toNat = q.rkey →
      (data ≠ [] → inBells v data.length = false →
        (barred v data.length = true ∨ s.transferCheck q.allot [] [⟨v, data.length⟩] false ≠ .ok) → refuses (.rdmaWriteInbound qp rkey va data)) ∧
      (0 < len → inBells v len = false →
        (barred v len = true ∨ s.transferCheck q.allot [⟨v, len⟩] [] false ≠ .ok ∨ s.poisonedVa q.allot v len = true) →
        refuses (.rdmaReadInbound qp rkey va len)) ∧
      (data ≠ [] → inBells v data.length = true → (v % 8 ≠ 0 ∨ data.length ≠ 8) → refuses (.rdmaWriteInbound qp rkey va data)) ∧
      (0 < len → inBells v len = true → (v % 8 ≠ 0 ∨ len ≠ 8) → refuses (.rdmaReadInbound qp rkey va len)))

/-- What host messages do (spec/17 R490, R493, R496, R498): a WRITE puts its bytes into the allotment's pages, a READ returns
them, both are metered; a doorbell within its ring's entries is taken, and one beyond them is dropped; the consumed count lets
completions that wait be written; atomics are refused. What is sent on the queue pair of a keyed channel goes out protected under its SCI,
AN and next packet numbers, and no more once these are used up (spec/15 R456, R492; which frames are protected: log entry 114). That a
doorbell with bits 63 to 32 set is refused and when a descriptor is read (log entry 39), and what the window's words meter (log entry 68),
are the model's choices. Completion: rdmaWriteInbound, rdmaReadInbound, doorbellWrite, completionConsumedWrite, atomicRequest. -/
def Obligations.RdmaServed : Prop :=
  (∀ (s : State) (qp : Nat) (q : Qp), s.liveQp qp = some q →
    let u := s.portArrive q.port
    (∀ (rkey : W32) (va : W64) (data : List Byte), rkey.toNat = q.rkey → data ≠ [] → inBells va.toNat data.length = false →
      barred va.toNat data.length = false → s.transferCheck q.allot [] [⟨va.toNat, data.length⟩] false = .ok →
      ∃ t, exec (.rdmaWriteInbound qp rkey va data) s = .next t ∧
        t = ((u.writeVa q.allot va.toNat data).bumpReg (0x3100 + q.allot) 0x22 data.length).sendQp qp (.ack qp) 0 ∧
        t.mem = (s.writeVa q.allot va.toNat data).mem ∧ t.poison = (s.writeVa q.allot va.toNat data).poison ∧
        t.reg (0x3100 + q.allot) 0x22 = ((s.writeVa q.allot va.toNat data).reg (0x3100 + q.allot) 0x22 + data.length) % 2 ^ 64) ∧
    (∀ (rkey : W32) (va : W64) (len : Nat), rkey.toNat = q.rkey → 0 < len → inBells va.toNat len = false → barred va.toNat len = false →
      s.transferCheck q.allot [⟨va.toNat, len⟩] [] false = .ok → s.poisonedVa q.allot va.toNat len = false →
      exec (.rdmaReadInbound qp rkey va len) s =
        .next ((u.bumpReg (0x3100 + q.allot) 0x22 len).sendQp qp (.readAnswer qp (s.readVa q.allot va.toNat len)) len) ∧ u.mem = s.mem) ∧
    (∀ (n : Nat) (rkey : W32) (va : W64), rkey.toNat = q.rkey → n < 16 → va.toNat = 0x7FFFFFFF0000 + 8 * n →
      exec (.rdmaReadInbound qp rkey va 8) s = .next ((u.bumpReg (0x3100 + q.allot) 0x22 8).sendQp qp
        (.readAnswer qp (leBytes 8 ((s.stream q.allot n).consumed % 2 ^ 32 + (s.stream q.allot n).doorbell % 2 ^ 32 * 2 ^ 32))) 8)) ∧
    (∀ (n : Nat) (d : W64), n < 16 →
      let m := u.meterHost q.allot 8
      let s1 := if (s.stream q.allot n).left = 0 then m.readDesc q.allot n else m
      let ahead := (d.toNat + 2 ^ 32 - (s.stream q.allot n).consumed % 2 ^ 32) % 2 ^ 32
      (d.toNat < 2 ^ 32 → (s1.stream q.allot n).desc = none → exec (.doorbellWrite qp n d) s = .next (s1.sendQp qp (.ack qp) 0).settle) ∧
      (∀ e, d.toNat < 2 ^ 32 → (s1.stream q.allot n).desc = some e → ahead ≤ 2 ^ e.ringLog2 →
        exec (.doorbellWrite qp n d) s =
          .next ((s1.modStream q.allot n (fun z => { z with doorbell := d.toNat })).sendQp qp (.ack qp) 0).settle) ∧
      (∀ e, d.toNat < 2 ^ 32 → (s1.stream q.allot n).desc = some e → 2 ^ e.ringLog2 < ahead →
        exec (.doorbellWrite qp n d) s = .next ((s1.dropPort q.port 0x06 q.allot).sendQp qp (.ack qp) 0).settle) ∧
      (2 ^ 32 ≤ d.toNat → exec (.doorbellWrite qp n d) s = .next ((m.failQp qp).sendQp qp (.nak qp false) 0).settle)) ∧
    (∀ (n : Nat) (v : W64), n < 16 →
      let s1 := (u.meterHost q.allot 8).modStream q.allot n (fun x => { x with hostConsumed := v.toNat })
      exec (.completionConsumedWrite qp n v) s = .next ((s1.flush q.allot n).sendQp qp (.ack qp) 0) ∧
        (s1.stream q.allot n).hostConsumed = v.toNat ∧ (s1.stream q.allot n).waiting = (s.stream q.allot n).waiting) ∧
    (∃ t y, exec (.atomicRequest qp) s = .next t ∧ t = (u.failQp qp).sendQp qp (.nak qp true) 0 ∧ t.qps.find qp = some y ∧ y.error = true ∧
      t.mem = s.mem)) ∧
  (∀ (s : State) (qp bytes : Nat) (q : Qp) (o : Out), s.qps.find qp = some q →
    let m := (s.allot q.allot).macsec
    let pn := Tbl.get 0 m.sent q.port
    (m.keyed = false → s.sendQp qp o bytes = s.emit o) ∧
    (m.keyed = true → pn < 2 ^ 64 - 2 ^ 32 → (s.sendQp qp o bytes).out = .secured (s.sci q.port q.allot) m.an (pn + 1) o :: s.out ∧
      ((s.sendQp qp o bytes).allot q.allot).macsec = { m with sent := m.sent.set q.port (pn + max 1 (ceilDiv bytes q.mtu)) } ∧
      (s.sendQp qp o bytes).regs = s.regs ∧ (s.sendQp qp o bytes).mem = s.mem) ∧
    (m.keyed = true → 2 ^ 64 - 2 ^ 32 ≤ pn → s.sendQp qp o bytes = s))

/-- Queue pairs, frames and rates (spec/17 R488 to R492, R500, R502, R503): a connection request that R491 and R492 accept
creates a queue pair with its R_Key, and any other is rejected or dropped; drops are counted; a frame at the port's own address is answered;
a CNP is sent at most once in 50 µs; a received one cuts the rate by the cut in percent, which recovers by steps between its bounds
(its rounding, and how much of the receive buffer is held: log entry 67); a port that goes dark takes its queue pairs and its management
pair with it, and its Carter jobs end with MEMBER_LOST; a packet for a pair that is not connected, or not protected as its channel wants
it, is dropped with its reason (log entries 69 and 113; the path MTU and the management pair: log entry 114).
Completion: rdmaCmConnect, unacceptedFrame, nonRoceFrame, pfcPauseReceived, hostPortDark, hostPortLinkUp, qpDisconnect, ecnMarkedPacket,
cnpReceived, rateRecoveryTimer. -/
def Obligations.HostPorts : Prop :=
  (∀ (s : State) (n p : Nat) (prot : Bool), s.portUp p = true →
    (prot = true → (s.allot n).macsec.keyed = false → exec (.rdmaCmConnect n p prot) s = .next (s.dropPort p 0x04 n)) ∧
    ((prot = true → (s.allot n).macsec.keyed = true) → s.mayConnect n prot = false →
      exec (.rdmaCmConnect n p prot) s = .next (s.emit (.rejected n p))) ∧
    ((prot = true → (s.allot n).macsec.keyed = true) → s.mayConnect n prot = true →
      ∃ (t : State) (qp key mtu : Nat), exec (.rdmaCmConnect n p prot) s = .next t ∧ key < 2 ^ 32 ∧ mtu ∈ [256, 512, 1024, 2048, 4096] ∧
        t.out = .connected qp key :: s.out ∧
        t.qps.find qp = some { allot := n, port := p, isProtected := prot, rkey := key, mtu := mtu } ∧
        (∀ k, k ≠ qp → t.qps.find k = s.qps.find k) ∧ t.mem = s.mem ∧ s.reg (0x3100 + n) 0x01 = 1 ∧ (prot = true ∨ s.keeper n = 0)) ∧
    (∀ reason, (s.dropCode reason = none → exec (.unacceptedFrame p reason) s = .next s) ∧
      (∀ code a, s.dropCode reason = some (code, a) → ∃ t, exec (.unacceptedFrame p reason) s = .next t ∧
        t.portReg p 0x0E = (s.portReg p 0x0E + 1) % 2 ^ 64 ∧ t.mem = s.mem ∧ t.qps = s.qps)) ∧
    (∀ sci an, n < 256 → sci % 2 ^ 16 = 0x100 + n →
      let m := (s.allot n).macsec
      s.dropCode (.onChannel sci an) = if m.keyed = false then some (0x04, n)
        else if an = m.an ∨ ∃ t, m.old.find an = some t ∧ s.timer < t then none else some (0x02, n)) ∧
    (∀ f : NonRoce, exec (.nonRoceFrame p f) s = .next
      (if f.bytes ≤ 4224 ∧ f.target = s.portReg p (if f.kind = .arp ∨ f.kind = .icmpEcho then 4 else 5) then s.emit (.frameAnswer p f)
       else s.dropPort p 0x05 0)) ∧
    (∀ prio pause, exec (.pfcPauseReceived p prio pause) s =
      .next (if s.portReg p 0x06 ≠ 0 ∧ s.portReg p 0x07 = prio then { s with paused := s.paused.set p pause } else s)) ∧
    (let mine := (s.qps.filter (fun e => e.2.port == p)).map Prod.fst
     let u := mine.foldl (fun v q => v.failQp q) (s.setReg (0x2001 + p) 0x02 0)
     ∃ t, exec (.hostPortDark p) s = .next t ∧ t.mem = s.mem ∧ t.portReg p 0x02 = 0 ∧ p ∉ t.mgmtQps ∧ t.regs = (u.loseJobs mine.contains).regs ∧
       (∀ k q, s.qps.find k = some q → q.port = p → ∃ y, t.qps.find k = some y ∧ y.error = true) ∧
       (∀ e ∈ t.jobs, e.2.larder = none → e.2.rec'.qp ∉ mine) ∧ u.jobs = s.jobs ∧
       (∀ j job, s.jobs = [(job, j)] → j.larder = none → j.rec'.qp ∈ mine →
         u.loseJobs mine.contains = (u.endJob job j j.blocks .memberLost).fillCarters))) ∧
  (∀ (s : State) (p : Nat), p < 4 → s.up = true → 6 ≤ s.reg 0x1300 0x02 → s.portReg p 0x01 ≠ 0 →
    exec (.hostPortLinkUp p) s = .next { s.setReg (0x2001 + p) 0x02 2 with mgmtQps := insertNat s.mgmtQps p }) ∧
  (∀ (s : State) (qp : Nat) (q : Qp), s.qps.find qp = some q → ∃ t, exec (.qpDisconnect qp) s = .next t ∧ t.qps.find qp = none ∧
    (∀ k, k ≠ qp → t.qps.find k = s.qps.find k) ∧ t.mem = s.mem) ∧
  (∀ (s : State) (p : Nat), (s.portReg p 0x06 = 0 → s.portArrive p = s) ∧
    (s.portReg p 0x06 ≠ 0 → ∃ held, held ≤ 2097152 ∧ (s.portArrive p).rxHeld.find p = some held ∧
      (s.portArrive p).out = (if 1572864 < held then [.pfcPause p (s.portReg p 0x07)] else []) ++ s.out ∧ (s.portArrive p).regs = s.regs)) ∧
  (∀ (s : State) (qp : Nat) (q : Qp), s.liveQp qp = some q →
    let u := s.portArrive q.port
    (∀ t0, q.cnpSent = some t0 → s.timer < t0 + 50000 → exec (.ecnMarkedPacket qp) s = .next u) ∧
    ((∀ t0, q.cnpSent = some t0 → t0 + 50000 ≤ s.timer) → exec (.ecnMarkedPacket qp) s =
      .next (((({ u with qps := u.qps.set qp { q with cnpSent := some s.timer } } : State)).countCnp q.port 1 0).sendQp qp (.cnp qp) 0)) ∧
    (∃ t : State, exec (.cnpReceived qp) s = .next t ∧ t.qps.find qp = some
      { q with rate := max (s.minRate q.port) (q.rate * (100 - s.portReg q.port 0x0A) / 100), cnpSeen := some s.timer } ∧
      (∀ k, k ≠ qp → t.qps.find k = s.qps.find k) ∧ t.portReg q.port 0x10 =
        min (2 ^ 32 - 1) (s.portReg q.port 0x10 / 2 ^ 32) * 2 ^ 32 + min (2 ^ 32 - 1) (s.portReg q.port 0x10 % 2 ^ 32 + 1)) ∧
    (∀ t0, q.cnpSeen = some t0 →
      (s.timer < t0 + s.portReg q.port 0x0B * 1000 → exec (.rateRecoveryTimer qp) s = .next s) ∧
      (t0 + s.portReg q.port 0x0B * 1000 ≤ s.timer → ∃ (t : State) (y : Qp), exec (.rateRecoveryTimer qp) s = .next t ∧
        t.qps.find qp = some y ∧ y.rate = min 200000 (max (s.minRate q.port) (q.rate + s.rateStep q.port)) ∧
        (q.rate ≤ 200000 → q.rate ≤ y.rate ∧ y.rate ≤ 200000)))) ∧
  (∀ (s : State) (qp : Nat), s.liveQp qp = none →
    (∀ i ∈ [Instr.ecnMarkedPacket qp, .cnpReceived qp, .atomicRequest qp, .completionConsumedWrite qp 0 0, .rdmaReadInbound qp 0 0 0,
      .rdmaWriteInbound qp 0 0 []], exec i s = .next (s.noQp qp)) ∧
    (s.qps.find qp = none → s.noQp qp = s.dropUnknown 0) ∧
    (∀ q, s.qps.find qp = some q → (s.portUp q.port = false → s.noQp qp = s) ∧
      (s.portUp q.port = true → (q.error = true → s.noQp qp = s.dropPort q.port 0x01 q.allot) ∧
        (q.error = false → q.isProtected = true → s.noQp qp = s.dropPort q.port 0x04 q.allot) ∧
        (q.error = false → q.isProtected = false → s.noQp qp = s.dropPort q.port 0x03 q.allot))))

/-! ### Power, cooling and reset (spec/18) -/

/-- What a reset leaves, whatever its kind (spec/18 R521, R522): memory, cores, allotments, sessions, queue pairs, the Larder,
the Green, links and jobs are gone, the fuses keep their values, every object that the boot flash does not keep has its default,
and the cause is reported; the timer begins at 0 (log entry 5), and a transition under way ends (log entry 8). The kinds of reset: by pin, by command once its write is answered, by loss of a clock, by a fault of
the Verger, by power; a power-on reset acts from off alone, and a trip wipes at once (log entry 12).
Completion: powerOnReset, pinReset, commandedReset, vergerFaultReset, powerLoss, thermalTrip. -/
def Obligations.ResetKinds : Prop :=
  (∀ (s : State) (mode : PowerMode) (cause : Nat),
    (∀ e ∈ s.flash, persistent (e.1 / 256) (e.1 % 256) = true ∨ isRoute e.1 = true) →
    (∀ e ∈ s.flashWait, persistent (e.1 / 256) (e.1 % 256) = true ∨ isRoute e.1 = true) →
    let t := s.deviceReset mode cause
    t.mem = [] ∧ t.poison = [] ∧ t.hbmPages = [] ∧ t.ctxs = [] ∧ t.cores = [] ∧ t.allots = [] ∧ t.sessions = [] ∧ t.qps = [] ∧ t.jobs = [] ∧
      t.larder = [] ∧ t.greenSlots = [] ∧ t.links = [] ∧ t.groups = [] ∧ t.buckets = [] ∧ t.wells = [] ∧ t.staged = s.staged ∧ t.stripNonce = none ∧
      t.activating = none ∧ t.transition = false ∧ t.resetPending = false ∧ t.timer = 0 ∧ t.power = mode ∧ t.pending = s.pending ∧ t.out = s.out ∧
      (s.transition = false → t.seed = s.seed ∧ t.deviceCert = s.deviceCert) ∧
      (s.transition = true → s.lifeCycle = 3 → t.seed = .overwritten ∧ t.deviceCert = none) ∧
      t.reg 0x1300 0x03 = cause ∧ t.reg 0x1100 0x01 = s.reg 0x1100 0x01 ∧ t.reg 0x1100 0x03 = s.reg 0x1100 0x03 ∧
      (∀ i, 1 ≤ i → i ≤ 5 → t.reg 0x1101 i = s.reg 0x1101 i) ∧ t.mgmtQps = [] ∧ t.alertN = true ∧
      (∀ idx sub, sub < 256 → idx ≠ 0x1100 → idx ≠ 0x1101 → idx ≠ 0x7F00 → (idx ≠ 0x1300 ∨ sub ≠ 3) → (idx ≠ 0x2100 ∨ sub ≠ 3) → (idx < 0x2180 ∨ 0x2184 < idx) →
        persistent idx sub = false → t.reg idx sub = objDefault idx sub)) ∧
  (∀ s : State,
    (s.power = .running → exec .pinReset s = .next (s.deviceReset .running 0x02) ∧ exec .vergerFaultReset s = .next (s.deviceReset .running 0x06) ∧
      exec .powerOnReset s = .next s) ∧
    (s.power = .off → exec .powerOnReset s = .next (s.deviceReset .running 0x01)) ∧
    (s.power = .off ∨ s.power = .tripped → exec .pinReset s = .next s) ∧
    (∀ c, exec (.powerLoss c) s = .next (s.deviceReset .off 0x01)) ∧
    (∀ w t, (s.power = .running ∨ s.power = .clockHeld) → w < 4 → 110000 ≤ t → exec (.thermalTrip w t) s = .next (s.deviceReset .tripped 0x01) ∧
      (s.deviceReset .tripped 0x01).thermtripN = false) ∧
    (∀ w t, t < 110000 → exec (.thermalTrip w t) s = .next s) ∧
    (∀ sess, s.answers = true → s.sessionIdle sess = true → s.mayApply sess 0x1300 0x01 = true → exec (.commandedReset sess) s =
      .next ((({ s with resetPending := true } : State).emit (.wrote sess 0x1300 0x01 .ok)).deviceReset .running 0x03)))

/-- When a reference clock stops or leaves its accuracy while the device runs, the device performs a clock-loss reset, and it
stays in reset, its timer still, until both clocks are back (spec/18 R511). Bring-up (spec/18 R523, spec/15 R438): phases end in
order, each reported; in phases 1 to 3 an image runs whose signature verifies and whose version is not below its floor, the staged one
first, and any other leaves the device in recovery, which it leaves only by a reset. The phase object as the last phase that has ended
and the staged image's taking (log entry 11), the pin reset that keeps the clock hold (log entry 12), and the setpoints until phase 1 ends
(log entry 10) are the model's.
Completion: clockLoss, referenceClocksReturn, bootPhaseComplete. -/
def Obligations.ClockLossAndBringUp : Prop :=
  (
  (∀ s : State, s.power = .running →
    exec .clockLoss s = .next (s.deviceReset .clockHeld 0x04) ∧ (s.deviceReset .clockHeld 0x04).power = .clockHeld ∧
      (s.deviceReset .clockHeld 0x04).reg 0x1300 0x03 = 0x04) ∧
  (∀ s : State, s.power = .clockHeld →
    (s.pending = [] → step s = .next s) ∧ s.answers = false ∧ s.hears = false ∧ (∀ path, s.heard path = false) ∧ (∀ p, s.portUp p = false) ∧
    exec .clockLoss s = .next s ∧ exec .powerOnReset s = .next s ∧ exec .vergerFaultReset s = .next s ∧
    exec .pinReset s = .next (s.deviceReset .clockHeld 0x02) ∧ (∀ v, exec (.bootPhaseComplete v) s = .next s) ∧
    ∃ t, exec .referenceClocksReturn s = .next t ∧ t.power = .running ∧ t.releasedAt = s.timer ∧ t.regs = s.regs)) ∧
  (
  ∀ (s : State) (v : Bool), s.power = .running →
    let runs := v = true ∧ ∀ i ∈ phaseComponents (s.phase + 1), s.reg 0x1101 i ≤ (s.bootImage i).2
    (s.phase < 7 → (runs ∨ 3 ≤ s.phase) → ∃ t, exec (.bootPhaseComplete v) s = .next t ∧ t.phase = s.phase + 1 ∧
      (s.phase = 5 → ∀ p, p < 4 → t.portReg p 0x02 = if s.portReg p 0x01 = 0 then s.portReg p 0x02 else 1) ∧
      (s.phase = 0 → ∀ w, w < 4 → t.reg (0x1201 + w) 0x02 = s.reg (0x1201 + w) 0x01) ∧ 
      (∀ g, s.staged = some g → g.component ∈ phaseComponents (s.phase + 1) → t.component g.component = (g.digest, g.svn) ∧ t.staged = none) ∧
      t.mem = s.mem ∧ t.ctxs = s.ctxs) ∧
    (s.phase < 3 → ¬runs → exec (.bootPhaseComplete v) s = .next (s.setReg 0x1300 0x02 0xEE)) ∧
    (7 ≤ s.phase → exec (.bootPhaseComplete v) s = .next s))

/-- Throttles and holds (spec/18 R514 to R516, spec/16 R478, spec/04 R119 to R121): each evaluation, of which none comes within 100 µs of another, takes one step of 25 mV down,
to no less than 600 mV, from a ward that is hot, over the package's power or called hot by its regulator, and reports the causes;
it takes one step up, to no more than the setpoint, at most once in 1 ms, from a ward 2 °C below the onset. A sample publishes
its junctions, and the throttle and hold bits follow with their hysteresis of 2 °C and 5 °C; step rates are published, 0 for a held ward.
Completion: throttleEval, thermalSample, stepRateMeasure. -/
def Obligations.ThrottlesAndHolds : Prop :=
  (∀ (s : State) (hot : List Nat) (watts t0 : Nat), s.throttleAt = some t0 → s.timer < t0 + 100000 →
    exec (.throttleEval hot watts) s = .next s) ∧
  (∀ (s : State) (hot : List Nat) (watts : Nat), s.power = .running → (∀ t0, s.throttleAt = some t0 → t0 + 100000 ≤ s.timer) →
    ∃ t, exec (.throttleEval hot watts) s = .next t ∧ t.throttleAt = some s.timer ∧
    ∀ w, w < 4 →
      let cause := b2n (decide (s.onset ≤ s.junction w)) + b2n (decide (s.reg 0x1200 0x01 < watts)) * 2 + b2n (hot.contains w) * 4
      let mv := s.reg (0x1201 + w) 0x02
      let top := s.reg (0x1201 + w) 0x01
      fld (t.reg 0x1200 0x04) (8 * w + 7) (8 * w) = cause ∧
        (cause ≠ 0 → t.reg (0x1201 + w) 0x02 = if 600 < mv then max 600 (mv - 25) else mv) ∧
        (cause = 0 → (∀ t0, s.raisedAt.find w = some t0 → t0 + 1000000 ≤ s.timer) → s.junction w + 2000 ≤ s.onset → mv < top →
          t.reg (0x1201 + w) 0x02 = min top (mv + 25)) ∧
        (cause = 0 → (s.onset < s.junction w + 2000 ∨ top ≤ mv) → t.reg (0x1201 + w) 0x02 = mv)) ∧
  (∀ (s : State) (l : List Int), s.power = .running → exec (.thermalSample l) s =
    .next (((l.take 4).zip (List.range 4)).foldl (fun t e => t.sampleWard e.2 e.1) s)) ∧
  (∀ (s : State) (w : Nat) (t : Int), w < 4 →
    let hot := decide (s.onset ≤ t) || (bitAt (s.reg 0x1210 0x08) w && decide (s.onset - 2000 < t))
    let held := decide (s.holdAt ≤ t) || (s.wardHeld w && decide (s.holdAt - 5000 < t))
    (s.wardHeld w = false ∨ held = true) → ∃ u, s.sampleWard w t = u ∧ u.reg 0x1210 (w + 1) = wrapNat 32 t ∧ u.wardHeld w = held ∧
      bitAt (u.reg 0x1210 0x08) w = hot ∧ (hot = true ∨ held = true → u.alertN = false) ∧ (∀ k, k < 4 → k ≠ w → u.wardHeld k = s.wardHeld k) ∧
      (∀ key x, u.ctxs.find key = some x → key % 128 / 32 = w → s.wardHeld w = false → held = true →
        ∀ p ∈ x.passes, p.status = none → p.held = true) ∧ (s.wardHeld w = false → held = true → u.reg 0x1220 (w + 1) = 0) ∧ u.mem = s.mem) ∧
  (∀ (s : State) (l : List Nat), s.power = .running → l.length = 4 → ∃ t, exec (.stepRateMeasure l) s = .next t ∧
    ∀ w, w < 4 → t.reg 0x1220 (w + 1) = if s.wardHeld w = true then 0 else min 4000000 (l.getD w 0))
end

