-- ==== Sys2Proof/Laws/Tbl.lean ====
section
/-! SUPPORT. Tables: what an entry reads as after a set, a modify, an erase or a drop. -/

namespace Sys2Proof.Machine

variable {α : Type}

@[simp] theorem Tbl.find_nil (a : Nat) : Tbl.find ([] : Tbl α) a = none := rfl

@[simp] theorem Tbl.find_set_self (t : Tbl α) (a : Nat) (v : α) : (t.set a v).find a = some v := by
  induction t with
  | nil => simp [Tbl.set, Tbl.find]
  | cons e t ih =>
    obtain ⟨k, w⟩ := e
    simp only [Tbl.set]
    split
    · simp [Tbl.find]
    · split
      · simp [Tbl.find]
      · next h => simp [Tbl.find, h, ih]

@[simp] theorem Tbl.find_set_ne (t : Tbl α) {a b : Nat} (v : α) (h : b ≠ a) : (t.set a v).find b = t.find b := by
  induction t with
  | nil => simp [Tbl.set, Tbl.find, Ne.symm h]
  | cons e t ih =>
    obtain ⟨k, w⟩ := e
    simp only [Tbl.set]
    split
    · simp [Tbl.find, Ne.symm h]
    · split
      · next hk => subst hk; simp [Tbl.find, Ne.symm h]
      · simp [Tbl.find, ih]

theorem Tbl.find_set (t : Tbl α) (a b : Nat) (v : α) : (t.set a v).find b = if b = a then some v else t.find b := by
  split
  · next h => subst h; simp
  · next h => simp [h]

@[simp] theorem Tbl.get_set_self (d : α) (t : Tbl α) (a : Nat) (v : α) : Tbl.get d (t.set a v) a = v := by simp [Tbl.get]

@[simp] theorem Tbl.get_set_ne (d : α) (t : Tbl α) {a b : Nat} (v : α) (h : b ≠ a) : Tbl.get d (t.set a v) b = Tbl.get d t b := by
  simp [Tbl.get, h]

@[simp] theorem Tbl.get_modify_self (d : α) (t : Tbl α) (a : Nat) (f : α → α) :
    Tbl.get d (Tbl.modify d t a f) a = f (Tbl.get d t a) := by simp [Tbl.modify]

@[simp] theorem Tbl.get_modify_ne (d : α) (t : Tbl α) {a b : Nat} (f : α → α) (h : b ≠ a) :
    Tbl.get d (Tbl.modify d t a f) b = Tbl.get d t b := by simp [Tbl.modify, h]

@[simp] theorem Tbl.find_erase_self (t : Tbl α) (a : Nat) : (t.erase a).find a = none := by
  induction t with
  | nil => rfl
  | cons e t ih =>
    obtain ⟨k, w⟩ := e
    simp only [Tbl.erase]
    split
    · exact ih
    · next h => simp [Tbl.find, h, ih]

@[simp] theorem Tbl.find_erase_ne (t : Tbl α) {a b : Nat} (h : b ≠ a) : (t.erase a).find b = t.find b := by
  induction t with
  | nil => rfl
  | cons e t ih =>
    obtain ⟨k, w⟩ := e
    simp only [Tbl.erase]
    split
    · next hk => subst hk; simp [Tbl.find, Ne.symm h, ih]
    · simp [Tbl.find, ih]

theorem Tbl.find_drop (t : Tbl α) (p : Nat → Bool) (a : Nat) : (t.drop p).find a = if p a then none else t.find a := by
  induction t with
  | nil => simp [Tbl.drop]
  | cons e t ih =>
    obtain ⟨k, w⟩ := e
    simp only [Tbl.drop] at ih ⊢
    by_cases hp : p k
    · rw [List.filter_cons_of_neg (by simp [hp]), ih]
      by_cases hk : k = a
      · subst hk; simp [hp]
      · simp [Tbl.find, hk]
    · rw [List.filter_cons_of_pos (by simp [hp])]
      by_cases hk : k = a
      · subst hk; simp [Tbl.find, hp]
      · simp [Tbl.find, hk, ih]

/-- Setting an entry to the value that it has changes nothing that is read. -/
theorem Tbl.find_set_same (t : Tbl α) (a : Nat) (v : α) (h : t.find a = some v) (b : Nat) : (t.set a v).find b = t.find b := by
  by_cases hb : b = a
  · subst hb; simp [h]
  · simp [hb]

end Sys2Proof.Machine
end

