-- ==== Sys2Proof/Laws/Flow.lean ====
section
/-! SUPPORT. What posting, completing a command and moving a program on can do to the state (spec/07 R193, R194,
spec/17 R489, R498). -/

namespace Sys2Proof.Machine

/-- t differs from s in nothing but the allotments' own state, what has been sent, the objects, and the event log. -/
def PostFrame (s t : State) : Prop :=
  t = { s with allots := t.allots, out := t.out, regs := t.regs, log := t.log, dropAt := t.dropAt }

theorem PostFrame.refl (s : State) : PostFrame s s := rfl

theorem PostFrame.trans {s t u : State} (h : PostFrame s t) (k : PostFrame t u) : PostFrame s u := by
  unfold PostFrame at *; rw [k, h]

theorem PostFrame.ctxs {s t : State} (h : PostFrame s t) : t.ctxs = s.ctxs := by rw [h]

theorem setReg_frame (s : State) (idx sub v : Nat) : PostFrame s (s.setReg idx sub v) := rfl
theorem modAllot_frame (s : State) (a : Nat) (f : Allot → Allot) : PostFrame s (s.modAllot a f) := rfl
theorem modStream_frame (s : State) (a n : Nat) (f : Stream → Stream) : PostFrame s (s.modStream a n f) := rfl
theorem petWatchdog_frame (s : State) (a : Nat) : PostFrame s (s.petWatchdog a) := rfl
theorem logEvent_frame (s : State) (e : Event) : PostFrame s (s.logEvent e) := rfl

theorem dropPort_frame (s : State) (port reason a : Nat) : PostFrame s (s.dropPort port reason a) := by
  unfold State.dropPort
  dsimp only
  split
  · split <;> rfl
  · split <;> rfl

theorem sendQp_frame (s : State) (qp : Nat) (o : Out) (bytes : Nat) : PostFrame s (s.sendQp qp o bytes) := by
  unfold State.sendQp
  split
  · rfl
  · dsimp only
    split
    · rfl
    · split <;> rfl

theorem flushCompletions_frame (a n : Nat) : ∀ (fuel : Nat) (s : State), PostFrame s (s.flushCompletions a n fuel)
  | 0, s => PostFrame.refl s
  | fuel + 1, s => by
    unfold State.flushCompletions
    dsimp only
    split
    · split
      · split
        · exact ((modStream_frame _ _ _ _).trans (dropPort_frame _ _ _ _)).trans (flushCompletions_frame a n fuel _)
        · split
          · exact (((modStream_frame _ _ _ _).trans (sendQp_frame _ _ _ _)).trans (setReg_frame _ _ _ _)).trans
              (flushCompletions_frame a n fuel _)
          · exact PostFrame.refl s
      · exact ((modStream_frame _ _ _ _).trans (dropPort_frame _ _ _ _)).trans (flushCompletions_frame a n fuel _)
    · exact PostFrame.refl s

/-- A completion posted changes nothing outside what PostFrame names. -/
theorem post_frame (s : State) (a n : Nat) (c : Completion) : PostFrame s (s.post a n c) :=
  (modStream_frame s a n _).trans (flushCompletions_frame a n _ _)

/-- A command completed on a core changes nothing outside what PostFrame names. -/
theorem cmdDone_frame (s : State) (a id core : Nat) (st : Status) : PostFrame s (s.cmdDone a id core st) := by
  unfold State.cmdDone
  split
  · exact PostFrame.refl s
  · dsimp only
    split
    · exact ((modAllot_frame _ _ _).trans (post_frame _ _ _ _)).trans (petWatchdog_frame _ _)
    · exact modAllot_frame _ _ _

theorem ctx?_setCtx_self (s : State) (a c : Nat) (x : Ctx) : (s.setCtx a c x).ctx? a c = some x := by
  simp [State.ctx?, State.setCtx]

theorem ctx_setCtx_self (s : State) (a c : Nat) (x : Ctx) : (s.setCtx a c x).ctx a c = x := by
  simp [State.ctx, ctx?_setCtx_self]

/-- The blocks that end at the program counter leave; the context keeps everything but the queue of blocks. -/
theorem endBlocks_next (a c : Nat) (s : State) (y : Ctx) : ∀ (fuel : Nat) (t : State), GangerNext s t a c y →
    GangerNext s (t.endBlocks a c fuel) a c y
  | 0, t, h => h
  | fuel + 1, t, h => by
    obtain ⟨iq, hc, hs⟩ := h.ctx
    have hx : t.ctx a c = { y with iq := iq } := by simp [State.ctx, hc]
    unfold State.endBlocks
    dsimp only
    rw [hx]
    split
    · next b rest hsrc hiq =>
      have hsrc' : y.src = .queue := hsrc
      have hiq' : iq = b :: rest := hiq
      split
      · apply endBlocks_next a c s y fuel
        have hp := cmdDone_frame (t.setCtx a c { y with iq := rest }) a b.cmd c (({ y with iq := iq } : Ctx).choice .ok)
        refine ⟨⟨rest, ?_, ?_⟩, ?_, ?_, ?_⟩
        · simp only [State.ctx?, hp.ctxs]
          exact Tbl.find_set_self _ _ _
        · exact List.IsSuffix.trans ⟨[b], by simp [hiq']⟩ hs
        · intro k hk
          rw [hp.ctxs]
          simp [State.setCtx, hk, h.others k hk]
        · rw [hp, State.setCtx, h.frame]
        · intro hq; exact absurd hsrc' hq
      · exact h
    · exact h

/-- What a program does that moves on: the context is the one that the instruction leaves, moved on, and nothing else has changed but what
GangerNext names. -/
theorem setCtx_endBlocks_next (s : State) (a c n : Nat) (y : Ctx) : GangerNext s ((s.setCtx a c y).endBlocks a c n) a c y ∨ y.src ≠ .queue := by
  by_cases hq : y.src = .queue
  · left
    apply endBlocks_next
    exact ⟨⟨y.iq, by simp [ctx?_setCtx_self], List.suffix_refl _⟩, fun k hk => by simp [State.setCtx, hk], rfl, fun _ => rfl⟩
  · exact .inr hq

/-- In bank execution no block ends. -/
theorem endBlocks_bank (a c : Nat) (t : State) (h : (t.ctx a c).src ≠ .queue) : ∀ fuel, t.endBlocks a c fuel = t
  | 0 => rfl
  | fuel + 1 => by
    unfold State.endBlocks
    dsimp only
    split
    · next hs hi => exact absurd hs h
    · rfl

theorem endBlocks_setCtx (s : State) (a c n : Nat) (y : Ctx) : GangerNext s ((s.setCtx a c y).endBlocks a c n) a c y := by
  rcases setCtx_endBlocks_next s a c n y with h | h
  · exact h
  · rw [endBlocks_bank a c _ (by rw [ctx_setCtx_self]; exact h)]
    exact ⟨⟨y.iq, by simp [ctx?_setCtx_self], List.suffix_refl _⟩, fun k hk => by simp [State.setCtx, hk], rfl, fun _ => rfl⟩

/-- The program moves on: GangerNext with the context moved on. -/
theorem moveOn_next (s : State) (a c : Nat) (y : Ctx) (pc : Nat) : GangerNext s (s.moveOn a c y pc) a c (y.after pc) :=
  endBlocks_setCtx s a c _ (y.after pc)

/-- What a due command gives: its function's state. -/
theorem ganger_due {s : State} {c a : Nat} {x : Ctx} {i : Instr} (h : s.due c = some (a, x, i)) (f : Nat → Ctx → State) :
    s.ganger c i f = .next (f a x) := by simp [State.ganger, h]

/-- A command that is not due changes nothing. -/
theorem ganger_not_due {s : State} {c : Nat} {i : Instr} (h : ∀ a x, s.due c ≠ some (a, x, i)) (f : Nat → Ctx → State) :
    s.ganger c i f = .next s := by
  unfold State.ganger
  split
  · rfl
  · next a x j hd =>
    split
    · next hj => subst hj; exact absurd hd (h a x)
    · rfl

/-- The context of a due command is the one in the state. -/
theorem due_ctx {s : State} {c a : Nat} {x : Ctx} {i : Instr} (h : s.due c = some (a, x, i)) : s.ctx? a c = some x := by
  unfold State.due at h
  split at h
  · cases h
  · next a' x' ho =>
    have hax : a' = a ∧ x' = x := by
      split at h
      · split at h <;> simp_all
      · cases h
    obtain ⟨rfl, rfl⟩ := hax
    unfold State.onCore at ho
    split at ho
    · cases ho
    · split at ho
      · cases ho
      · next b hb =>
        simp only [Option.map_eq_some_iff] at ho
        obtain ⟨y, hy, he⟩ := ho
        obtain ⟨rfl, rfl⟩ := he
        exact hy

end Sys2Proof.Machine
end

