-- ==== Sys2Proof/Laws/Mem.lean ====
section
/-! SUPPORT. Memory: every operation keeps the canonical form, and what is read after a write. -/

namespace Sys2Proof.Machine

theorem Mem.wfFrom_mono {b c : Nat} (h : b ≤ c) : ∀ {m : List Host.Cell}, Mem.wfFrom c m = true → Mem.wfFrom b m = true
  | [], _ => rfl
  | (k, v) :: t, hm => by
    simp only [Mem.wfFrom, Bool.and_eq_true, decide_eq_true_eq] at hm ⊢
    exact ⟨⟨by omega, hm.1.2⟩, hm.2⟩

theorem Mem.wfFrom_write (a : Nat) (v : Byte) : ∀ (m : List Host.Cell) (b : Nat), Mem.wfFrom b m = true → b ≤ a →
    Mem.wfFrom b (Mem.write m a v) = true
  | [], b, _, hb => by
    simp only [Mem.write]
    split
    · rfl
    · simp_all [Mem.wfFrom]
  | (k, w) :: t, b, hm, hb => by
    simp only [Mem.wfFrom, Bool.and_eq_true, decide_eq_true_eq, bne_iff_ne, ne_eq] at hm
    obtain ⟨⟨hk, hw⟩, ht⟩ := hm
    simp only [Mem.write]
    split
    · split
      · simp_all [Mem.wfFrom]
      · simp_all [Mem.wfFrom]
    · split
      · next hka =>
        subst hka
        split
        · exact Mem.wfFrom_mono (by omega) ht
        · simp_all [Mem.wfFrom]
      · have := Mem.wfFrom_write a v t (k + 1) ht (by omega)
        simp_all [Mem.wfFrom]

/-- A write keeps the canonical form. -/
theorem Mem.wf_write (m : List Host.Cell) (a : Nat) (v : Byte) (h : Mem.wf m = true) : Mem.wf (Mem.write m a v) = true :=
  Mem.wfFrom_write a v m 0 h (Nat.zero_le a)

theorem Mem.wf_writeL : ∀ (bs : List Byte) (m : List Host.Cell) (a : Nat), Mem.wf m = true → Mem.wf (Mem.writeL m a bs) = true
  | [], _, _, h => h
  | b :: bs, m, a, h => Mem.wf_writeL bs _ _ (Mem.wf_write m a b h)

/-- Bytes written but for the words of a list keep the canonical form. -/
theorem Mem.wf_writeExcept (bad : List Nat) : ∀ (bs : List Byte) (m : List Host.Cell) (a : Nat), Mem.wf m = true →
    Mem.wf (Mem.writeExcept bad m a bs) = true
  | [], _, _, h => h
  | b :: bs, m, a, h => by
    simp only [Mem.writeExcept]
    apply Mem.wf_writeExcept bad bs
    split
    · exact h
    · exact Mem.wf_write m a b h

theorem Mem.wfFrom_filter (p : Host.Cell → Bool) : ∀ (m : List Host.Cell) (b : Nat), Mem.wfFrom b m = true →
    Mem.wfFrom b (m.filter p) = true
  | [], _, _ => rfl
  | (k, w) :: t, b, h => by
    simp only [Mem.wfFrom, Bool.and_eq_true, decide_eq_true_eq] at h
    have ht := Mem.wfFrom_filter p t (k + 1) h.2
    by_cases hp : p (k, w)
    · rw [List.filter_cons_of_pos hp]
      simp_all [Mem.wfFrom]
    · rw [List.filter_cons_of_neg hp]
      exact Mem.wfFrom_mono (by omega) ht

/-- A range set to zero keeps the canonical form. -/
theorem Mem.wf_zero (m : List Host.Cell) (lo hi : Nat) (h : Mem.wf m = true) : Mem.wf (Mem.zero m lo hi) = true :=
  Mem.wfFrom_filter _ m 0 h

/-- The operations of the state that change memory keep its canonical form. -/
theorem State.wf_store (s : State) (pa : Nat) (bs : List Byte) (h : Mem.wf s.mem = true) : Mem.wf (s.store pa bs).mem = true :=
  Mem.wf_writeExcept _ bs s.mem pa h

theorem State.wf_zeroRange (s : State) (lo hi : Nat) (h : Mem.wf s.mem = true) : Mem.wf (s.zeroRange lo hi).mem = true :=
  Mem.wf_zero s.mem lo hi h

theorem State.wf_writePages (a : Nat) : ∀ (fuel : Nat) (s : State) (va : Nat) (bs : List Byte), Mem.wf s.mem = true →
    Mem.wf (s.writePages a fuel va bs).mem = true
  | 0, _, _, _, h => h
  | fuel + 1, s, va, bs, h => by
    simp only [State.writePages]
    split
    · exact h
    · apply State.wf_writePages a fuel
      split
      · exact h
      · exact State.wf_store s _ _ h

theorem State.wf_writeVa (s : State) (a va : Nat) (bs : List Byte) (h : Mem.wf s.mem = true) : Mem.wf (s.writeVa a va bs).mem = true :=
  State.wf_writePages a _ s va bs h

theorem State.wf_writeP (s : State) (a va : Nat) (bs : List PByte) (h : Mem.wf s.mem = true) : Mem.wf (s.writeP a va bs).mem = true :=
  State.wf_writeVa s a va (bs.map Prod.fst) h

/-- Memory after reset has its canonical form. -/
theorem State.wf_reset : Mem.wf State.reset.mem = true := rfl

/-- What a write leaves at another address. -/
theorem Mem.read_write_ne (v : Byte) {a p : Nat} (h : p ≠ a) : ∀ m : List Host.Cell, Mem.read (Mem.write m a v) p = Mem.read m p
  | [] => by
    simp only [Mem.write]
    split <;> simp [Mem.read, Ne.symm h]
  | (k, w) :: t => by
    simp only [Mem.write]
    split
    · split <;> simp [Mem.read, Ne.symm h]
    · split
      · next hk => subst hk; split <;> simp [Mem.read, Ne.symm h]
      · simp [Mem.read, Mem.read_write_ne v h t]

end Sys2Proof.Machine
end

