-- ==== Sys2Proof/Laws/State.lean ====
section
/-! SUPPORT. What each update of one field of the state leaves: one lemma per field and update, true by unfolding. -/

namespace Sys2Proof.Machine

/-! ### State.setReg -/

@[simp] theorem State.setReg_pending (s : State) (idx sub v : Nat) : (s.setReg idx sub v).pending = s.pending := rfl
@[simp] theorem State.setReg_timer (s : State) (idx sub v : Nat) : (s.setReg idx sub v).timer = s.timer := rfl
@[simp] theorem State.setReg_freeCtr (s : State) (idx sub v : Nat) : (s.setReg idx sub v).freeCtr = s.freeCtr := rfl
@[simp] theorem State.setReg_out (s : State) (idx sub v : Nat) : (s.setReg idx sub v).out = s.out := rfl
@[simp] theorem State.setReg_mem (s : State) (idx sub v : Nat) : (s.setReg idx sub v).mem = s.mem := rfl
@[simp] theorem State.setReg_poison (s : State) (idx sub v : Nat) : (s.setReg idx sub v).poison = s.poison := rfl
@[simp] theorem State.setReg_regs (s : State) (idx sub v : Nat) : (s.setReg idx sub v).regs = s.regs.set (objKey idx sub) v := rfl
@[simp] theorem State.setReg_hbmUsed (s : State) (idx sub v : Nat) : (s.setReg idx sub v).hbmUsed = s.hbmUsed := rfl
@[simp] theorem State.setReg_hbmPages (s : State) (idx sub v : Nat) : (s.setReg idx sub v).hbmPages = s.hbmPages := rfl
@[simp] theorem State.setReg_removals (s : State) (idx sub v : Nat) : (s.setReg idx sub v).removals = s.removals := rfl
@[simp] theorem State.setReg_cores (s : State) (idx sub v : Nat) : (s.setReg idx sub v).cores = s.cores := rfl
@[simp] theorem State.setReg_ctxs (s : State) (idx sub v : Nat) : (s.setReg idx sub v).ctxs = s.ctxs := rfl
@[simp] theorem State.setReg_allots (s : State) (idx sub v : Nat) : (s.setReg idx sub v).allots = s.allots := rfl
@[simp] theorem State.setReg_crierTurn (s : State) (idx sub v : Nat) : (s.setReg idx sub v).crierTurn = s.crierTurn := rfl
@[simp] theorem State.setReg_greenRoster (s : State) (idx sub v : Nat) : (s.setReg idx sub v).greenRoster = s.greenRoster := rfl
@[simp] theorem State.setReg_wells (s : State) (idx sub v : Nat) : (s.setReg idx sub v).wells = s.wells := rfl
@[simp] theorem State.setReg_log (s : State) (idx sub v : Nat) : (s.setReg idx sub v).log = s.log := rfl
@[simp] theorem State.setReg_perfHidden (s : State) (idx sub v : Nat) : (s.setReg idx sub v).perfHidden = s.perfHidden := rfl
@[simp] theorem State.setReg_dropAt (s : State) (idx sub v : Nat) : (s.setReg idx sub v).dropAt = s.dropAt := rfl
@[simp] theorem State.setReg_qps (s : State) (idx sub v : Nat) : (s.setReg idx sub v).qps = s.qps := rfl
@[simp] theorem State.setReg_links (s : State) (idx sub v : Nat) : (s.setReg idx sub v).links = s.links := rfl
@[simp] theorem State.setReg_topo (s : State) (idx sub v : Nat) : (s.setReg idx sub v).topo = s.topo := rfl
@[simp] theorem State.setReg_topoWait (s : State) (idx sub v : Nat) : (s.setReg idx sub v).topoWait = s.topoWait := rfl
@[simp] theorem State.setReg_routes (s : State) (idx sub v : Nat) : (s.setReg idx sub v).routes = s.routes := rfl
@[simp] theorem State.setReg_flitWait (s : State) (idx sub v : Nat) : (s.setReg idx sub v).flitWait = s.flitWait := rfl
@[simp] theorem State.setReg_xfers (s : State) (idx sub v : Nat) : (s.setReg idx sub v).xfers = s.xfers := rfl
@[simp] theorem State.setReg_inbound (s : State) (idx sub v : Nat) : (s.setReg idx sub v).inbound = s.inbound := rfl
@[simp] theorem State.setReg_groups (s : State) (idx sub v : Nat) : (s.setReg idx sub v).groups = s.groups := rfl
@[simp] theorem State.setReg_buckets (s : State) (idx sub v : Nat) : (s.setReg idx sub v).buckets = s.buckets := rfl
@[simp] theorem State.setReg_landingSlots (s : State) (idx sub v : Nat) : (s.setReg idx sub v).landingSlots = s.landingSlots := rfl
@[simp] theorem State.setReg_sessions (s : State) (idx sub v : Nat) : (s.setReg idx sub v).sessions = s.sessions := rfl
@[simp] theorem State.setReg_nextSess (s : State) (idx sub v : Nat) : (s.setReg idx sub v).nextSess = s.nextSess := rfl
@[simp] theorem State.setReg_signQ (s : State) (idx sub v : Nat) : (s.setReg idx sub v).signQ = s.signQ := rfl
@[simp] theorem State.setReg_stripNonce (s : State) (idx sub v : Nat) : (s.setReg idx sub v).stripNonce = s.stripNonce := rfl
@[simp] theorem State.setReg_transition (s : State) (idx sub v : Nat) : (s.setReg idx sub v).transition = s.transition := rfl
@[simp] theorem State.setReg_seed (s : State) (idx sub v : Nat) : (s.setReg idx sub v).seed = s.seed := rfl
@[simp] theorem State.setReg_deviceCert (s : State) (idx sub v : Nat) : (s.setReg idx sub v).deviceCert = s.deviceCert := rfl
@[simp] theorem State.setReg_traced (s : State) (idx sub v : Nat) : (s.setReg idx sub v).traced = s.traced := rfl
@[simp] theorem State.setReg_traceBuf (s : State) (idx sub v : Nat) : (s.setReg idx sub v).traceBuf = s.traceBuf := rfl
@[simp] theorem State.setReg_activating (s : State) (idx sub v : Nat) : (s.setReg idx sub v).activating = s.activating := rfl
@[simp] theorem State.setReg_fwBuffer (s : State) (idx sub v : Nat) : (s.setReg idx sub v).fwBuffer = s.fwBuffer := rfl
@[simp] theorem State.setReg_staged (s : State) (idx sub v : Nat) : (s.setReg idx sub v).staged = s.staged := rfl
@[simp] theorem State.setReg_components (s : State) (idx sub v : Nat) : (s.setReg idx sub v).components = s.components := rfl
@[simp] theorem State.setReg_quotaFrames (s : State) (idx sub v : Nat) : (s.setReg idx sub v).quotaFrames = s.quotaFrames := rfl
@[simp] theorem State.setReg_larder (s : State) (idx sub v : Nat) : (s.setReg idx sub v).larder = s.larder := rfl
@[simp] theorem State.setReg_fillWait (s : State) (idx sub v : Nat) : (s.setReg idx sub v).fillWait = s.fillWait := rfl
@[simp] theorem State.setReg_greenSlots (s : State) (idx sub v : Nat) : (s.setReg idx sub v).greenSlots = s.greenSlots := rfl
@[simp] theorem State.setReg_jobs (s : State) (idx sub v : Nat) : (s.setReg idx sub v).jobs = s.jobs := rfl
@[simp] theorem State.setReg_carterTurn (s : State) (idx sub v : Nat) : (s.setReg idx sub v).carterTurn = s.carterTurn := rfl
@[simp] theorem State.setReg_carterCaches (s : State) (idx sub v : Nat) : (s.setReg idx sub v).carterCaches = s.carterCaches := rfl
@[simp] theorem State.setReg_power (s : State) (idx sub v : Nat) : (s.setReg idx sub v).power = s.power := rfl
@[simp] theorem State.setReg_releasedAt (s : State) (idx sub v : Nat) : (s.setReg idx sub v).releasedAt = s.releasedAt := rfl
@[simp] theorem State.setReg_resetPending (s : State) (idx sub v : Nat) : (s.setReg idx sub v).resetPending = s.resetPending := rfl
@[simp] theorem State.setReg_heldSince (s : State) (idx sub v : Nat) : (s.setReg idx sub v).heldSince = s.heldSince := rfl
@[simp] theorem State.setReg_raisedAt (s : State) (idx sub v : Nat) : (s.setReg idx sub v).raisedAt = s.raisedAt := rfl
@[simp] theorem State.setReg_energy (s : State) (idx sub v : Nat) : (s.setReg idx sub v).energy = s.energy := rfl
@[simp] theorem State.setReg_flash (s : State) (idx sub v : Nat) : (s.setReg idx sub v).flash = s.flash := rfl
@[simp] theorem State.setReg_flashWait (s : State) (idx sub v : Nat) : (s.setReg idx sub v).flashWait = s.flashWait := rfl
@[simp] theorem State.setReg_paused (s : State) (idx sub v : Nat) : (s.setReg idx sub v).paused = s.paused := rfl
@[simp] theorem State.setReg_mgmtQps (s : State) (idx sub v : Nat) : (s.setReg idx sub v).mgmtQps = s.mgmtQps := rfl
@[simp] theorem State.setReg_rxHeld (s : State) (idx sub v : Nat) : (s.setReg idx sub v).rxHeld = s.rxHeld := rfl
@[simp] theorem State.setReg_lowered (s : State) (idx sub v : Nat) : (s.setReg idx sub v).lowered = s.lowered := rfl
@[simp] theorem State.setReg_throttleAt (s : State) (idx sub v : Nat) : (s.setReg idx sub v).throttleAt = s.throttleAt := rfl

/-! ### State.setCtx -/

@[simp] theorem State.setCtx_pending (s : State) (a c : Nat) (x : Ctx) : (s.setCtx a c x).pending = s.pending := rfl
@[simp] theorem State.setCtx_timer (s : State) (a c : Nat) (x : Ctx) : (s.setCtx a c x).timer = s.timer := rfl
@[simp] theorem State.setCtx_freeCtr (s : State) (a c : Nat) (x : Ctx) : (s.setCtx a c x).freeCtr = s.freeCtr := rfl
@[simp] theorem State.setCtx_out (s : State) (a c : Nat) (x : Ctx) : (s.setCtx a c x).out = s.out := rfl
@[simp] theorem State.setCtx_mem (s : State) (a c : Nat) (x : Ctx) : (s.setCtx a c x).mem = s.mem := rfl
@[simp] theorem State.setCtx_poison (s : State) (a c : Nat) (x : Ctx) : (s.setCtx a c x).poison = s.poison := rfl
@[simp] theorem State.setCtx_regs (s : State) (a c : Nat) (x : Ctx) : (s.setCtx a c x).regs = s.regs := rfl
@[simp] theorem State.setCtx_hbmUsed (s : State) (a c : Nat) (x : Ctx) : (s.setCtx a c x).hbmUsed = s.hbmUsed := rfl
@[simp] theorem State.setCtx_hbmPages (s : State) (a c : Nat) (x : Ctx) : (s.setCtx a c x).hbmPages = s.hbmPages := rfl
@[simp] theorem State.setCtx_removals (s : State) (a c : Nat) (x : Ctx) : (s.setCtx a c x).removals = s.removals := rfl
@[simp] theorem State.setCtx_cores (s : State) (a c : Nat) (x : Ctx) : (s.setCtx a c x).cores = s.cores := rfl
@[simp] theorem State.setCtx_ctxs (s : State) (a c : Nat) (x : Ctx) : (s.setCtx a c x).ctxs = s.ctxs.set (ctxKey a c) x := rfl
@[simp] theorem State.setCtx_allots (s : State) (a c : Nat) (x : Ctx) : (s.setCtx a c x).allots = s.allots := rfl
@[simp] theorem State.setCtx_crierTurn (s : State) (a c : Nat) (x : Ctx) : (s.setCtx a c x).crierTurn = s.crierTurn := rfl
@[simp] theorem State.setCtx_greenRoster (s : State) (a c : Nat) (x : Ctx) : (s.setCtx a c x).greenRoster = s.greenRoster := rfl
@[simp] theorem State.setCtx_wells (s : State) (a c : Nat) (x : Ctx) : (s.setCtx a c x).wells = s.wells := rfl
@[simp] theorem State.setCtx_log (s : State) (a c : Nat) (x : Ctx) : (s.setCtx a c x).log = s.log := rfl
@[simp] theorem State.setCtx_perfHidden (s : State) (a c : Nat) (x : Ctx) : (s.setCtx a c x).perfHidden = s.perfHidden := rfl
@[simp] theorem State.setCtx_dropAt (s : State) (a c : Nat) (x : Ctx) : (s.setCtx a c x).dropAt = s.dropAt := rfl
@[simp] theorem State.setCtx_qps (s : State) (a c : Nat) (x : Ctx) : (s.setCtx a c x).qps = s.qps := rfl
@[simp] theorem State.setCtx_links (s : State) (a c : Nat) (x : Ctx) : (s.setCtx a c x).links = s.links := rfl
@[simp] theorem State.setCtx_topo (s : State) (a c : Nat) (x : Ctx) : (s.setCtx a c x).topo = s.topo := rfl
@[simp] theorem State.setCtx_topoWait (s : State) (a c : Nat) (x : Ctx) : (s.setCtx a c x).topoWait = s.topoWait := rfl
@[simp] theorem State.setCtx_routes (s : State) (a c : Nat) (x : Ctx) : (s.setCtx a c x).routes = s.routes := rfl
@[simp] theorem State.setCtx_flitWait (s : State) (a c : Nat) (x : Ctx) : (s.setCtx a c x).flitWait = s.flitWait := rfl
@[simp] theorem State.setCtx_xfers (s : State) (a c : Nat) (x : Ctx) : (s.setCtx a c x).xfers = s.xfers := rfl
@[simp] theorem State.setCtx_inbound (s : State) (a c : Nat) (x : Ctx) : (s.setCtx a c x).inbound = s.inbound := rfl
@[simp] theorem State.setCtx_groups (s : State) (a c : Nat) (x : Ctx) : (s.setCtx a c x).groups = s.groups := rfl
@[simp] theorem State.setCtx_buckets (s : State) (a c : Nat) (x : Ctx) : (s.setCtx a c x).buckets = s.buckets := rfl
@[simp] theorem State.setCtx_landingSlots (s : State) (a c : Nat) (x : Ctx) : (s.setCtx a c x).landingSlots = s.landingSlots := rfl
@[simp] theorem State.setCtx_sessions (s : State) (a c : Nat) (x : Ctx) : (s.setCtx a c x).sessions = s.sessions := rfl
@[simp] theorem State.setCtx_nextSess (s : State) (a c : Nat) (x : Ctx) : (s.setCtx a c x).nextSess = s.nextSess := rfl
@[simp] theorem State.setCtx_signQ (s : State) (a c : Nat) (x : Ctx) : (s.setCtx a c x).signQ = s.signQ := rfl
@[simp] theorem State.setCtx_stripNonce (s : State) (a c : Nat) (x : Ctx) : (s.setCtx a c x).stripNonce = s.stripNonce := rfl
@[simp] theorem State.setCtx_transition (s : State) (a c : Nat) (x : Ctx) : (s.setCtx a c x).transition = s.transition := rfl
@[simp] theorem State.setCtx_seed (s : State) (a c : Nat) (x : Ctx) : (s.setCtx a c x).seed = s.seed := rfl
@[simp] theorem State.setCtx_deviceCert (s : State) (a c : Nat) (x : Ctx) : (s.setCtx a c x).deviceCert = s.deviceCert := rfl
@[simp] theorem State.setCtx_traced (s : State) (a c : Nat) (x : Ctx) : (s.setCtx a c x).traced = s.traced := rfl
@[simp] theorem State.setCtx_traceBuf (s : State) (a c : Nat) (x : Ctx) : (s.setCtx a c x).traceBuf = s.traceBuf := rfl
@[simp] theorem State.setCtx_activating (s : State) (a c : Nat) (x : Ctx) : (s.setCtx a c x).activating = s.activating := rfl
@[simp] theorem State.setCtx_fwBuffer (s : State) (a c : Nat) (x : Ctx) : (s.setCtx a c x).fwBuffer = s.fwBuffer := rfl
@[simp] theorem State.setCtx_staged (s : State) (a c : Nat) (x : Ctx) : (s.setCtx a c x).staged = s.staged := rfl
@[simp] theorem State.setCtx_components (s : State) (a c : Nat) (x : Ctx) : (s.setCtx a c x).components = s.components := rfl
@[simp] theorem State.setCtx_quotaFrames (s : State) (a c : Nat) (x : Ctx) : (s.setCtx a c x).quotaFrames = s.quotaFrames := rfl
@[simp] theorem State.setCtx_larder (s : State) (a c : Nat) (x : Ctx) : (s.setCtx a c x).larder = s.larder := rfl
@[simp] theorem State.setCtx_fillWait (s : State) (a c : Nat) (x : Ctx) : (s.setCtx a c x).fillWait = s.fillWait := rfl
@[simp] theorem State.setCtx_greenSlots (s : State) (a c : Nat) (x : Ctx) : (s.setCtx a c x).greenSlots = s.greenSlots := rfl
@[simp] theorem State.setCtx_jobs (s : State) (a c : Nat) (x : Ctx) : (s.setCtx a c x).jobs = s.jobs := rfl
@[simp] theorem State.setCtx_carterTurn (s : State) (a c : Nat) (x : Ctx) : (s.setCtx a c x).carterTurn = s.carterTurn := rfl
@[simp] theorem State.setCtx_carterCaches (s : State) (a c : Nat) (x : Ctx) : (s.setCtx a c x).carterCaches = s.carterCaches := rfl
@[simp] theorem State.setCtx_power (s : State) (a c : Nat) (x : Ctx) : (s.setCtx a c x).power = s.power := rfl
@[simp] theorem State.setCtx_releasedAt (s : State) (a c : Nat) (x : Ctx) : (s.setCtx a c x).releasedAt = s.releasedAt := rfl
@[simp] theorem State.setCtx_resetPending (s : State) (a c : Nat) (x : Ctx) : (s.setCtx a c x).resetPending = s.resetPending := rfl
@[simp] theorem State.setCtx_heldSince (s : State) (a c : Nat) (x : Ctx) : (s.setCtx a c x).heldSince = s.heldSince := rfl
@[simp] theorem State.setCtx_raisedAt (s : State) (a c : Nat) (x : Ctx) : (s.setCtx a c x).raisedAt = s.raisedAt := rfl
@[simp] theorem State.setCtx_energy (s : State) (a c : Nat) (x : Ctx) : (s.setCtx a c x).energy = s.energy := rfl
@[simp] theorem State.setCtx_flash (s : State) (a c : Nat) (x : Ctx) : (s.setCtx a c x).flash = s.flash := rfl
@[simp] theorem State.setCtx_flashWait (s : State) (a c : Nat) (x : Ctx) : (s.setCtx a c x).flashWait = s.flashWait := rfl
@[simp] theorem State.setCtx_paused (s : State) (a c : Nat) (x : Ctx) : (s.setCtx a c x).paused = s.paused := rfl
@[simp] theorem State.setCtx_mgmtQps (s : State) (a c : Nat) (x : Ctx) : (s.setCtx a c x).mgmtQps = s.mgmtQps := rfl
@[simp] theorem State.setCtx_rxHeld (s : State) (a c : Nat) (x : Ctx) : (s.setCtx a c x).rxHeld = s.rxHeld := rfl
@[simp] theorem State.setCtx_lowered (s : State) (a c : Nat) (x : Ctx) : (s.setCtx a c x).lowered = s.lowered := rfl
@[simp] theorem State.setCtx_throttleAt (s : State) (a c : Nat) (x : Ctx) : (s.setCtx a c x).throttleAt = s.throttleAt := rfl

/-! ### State.setAllot -/

@[simp] theorem State.setAllot_pending (s : State) (a : Nat) (x : Allot) : (s.setAllot a x).pending = s.pending := rfl
@[simp] theorem State.setAllot_timer (s : State) (a : Nat) (x : Allot) : (s.setAllot a x).timer = s.timer := rfl
@[simp] theorem State.setAllot_freeCtr (s : State) (a : Nat) (x : Allot) : (s.setAllot a x).freeCtr = s.freeCtr := rfl
@[simp] theorem State.setAllot_out (s : State) (a : Nat) (x : Allot) : (s.setAllot a x).out = s.out := rfl
@[simp] theorem State.setAllot_mem (s : State) (a : Nat) (x : Allot) : (s.setAllot a x).mem = s.mem := rfl
@[simp] theorem State.setAllot_poison (s : State) (a : Nat) (x : Allot) : (s.setAllot a x).poison = s.poison := rfl
@[simp] theorem State.setAllot_regs (s : State) (a : Nat) (x : Allot) : (s.setAllot a x).regs = s.regs := rfl
@[simp] theorem State.setAllot_hbmUsed (s : State) (a : Nat) (x : Allot) : (s.setAllot a x).hbmUsed = s.hbmUsed := rfl
@[simp] theorem State.setAllot_hbmPages (s : State) (a : Nat) (x : Allot) : (s.setAllot a x).hbmPages = s.hbmPages := rfl
@[simp] theorem State.setAllot_removals (s : State) (a : Nat) (x : Allot) : (s.setAllot a x).removals = s.removals := rfl
@[simp] theorem State.setAllot_cores (s : State) (a : Nat) (x : Allot) : (s.setAllot a x).cores = s.cores := rfl
@[simp] theorem State.setAllot_ctxs (s : State) (a : Nat) (x : Allot) : (s.setAllot a x).ctxs = s.ctxs := rfl
@[simp] theorem State.setAllot_allots (s : State) (a : Nat) (x : Allot) : (s.setAllot a x).allots = s.allots.set a x := rfl
@[simp] theorem State.setAllot_crierTurn (s : State) (a : Nat) (x : Allot) : (s.setAllot a x).crierTurn = s.crierTurn := rfl
@[simp] theorem State.setAllot_greenRoster (s : State) (a : Nat) (x : Allot) : (s.setAllot a x).greenRoster = s.greenRoster := rfl
@[simp] theorem State.setAllot_wells (s : State) (a : Nat) (x : Allot) : (s.setAllot a x).wells = s.wells := rfl
@[simp] theorem State.setAllot_log (s : State) (a : Nat) (x : Allot) : (s.setAllot a x).log = s.log := rfl
@[simp] theorem State.setAllot_perfHidden (s : State) (a : Nat) (x : Allot) : (s.setAllot a x).perfHidden = s.perfHidden := rfl
@[simp] theorem State.setAllot_dropAt (s : State) (a : Nat) (x : Allot) : (s.setAllot a x).dropAt = s.dropAt := rfl
@[simp] theorem State.setAllot_qps (s : State) (a : Nat) (x : Allot) : (s.setAllot a x).qps = s.qps := rfl
@[simp] theorem State.setAllot_links (s : State) (a : Nat) (x : Allot) : (s.setAllot a x).links = s.links := rfl
@[simp] theorem State.setAllot_topo (s : State) (a : Nat) (x : Allot) : (s.setAllot a x).topo = s.topo := rfl
@[simp] theorem State.setAllot_topoWait (s : State) (a : Nat) (x : Allot) : (s.setAllot a x).topoWait = s.topoWait := rfl
@[simp] theorem State.setAllot_routes (s : State) (a : Nat) (x : Allot) : (s.setAllot a x).routes = s.routes := rfl
@[simp] theorem State.setAllot_flitWait (s : State) (a : Nat) (x : Allot) : (s.setAllot a x).flitWait = s.flitWait := rfl
@[simp] theorem State.setAllot_xfers (s : State) (a : Nat) (x : Allot) : (s.setAllot a x).xfers = s.xfers := rfl
@[simp] theorem State.setAllot_inbound (s : State) (a : Nat) (x : Allot) : (s.setAllot a x).inbound = s.inbound := rfl
@[simp] theorem State.setAllot_groups (s : State) (a : Nat) (x : Allot) : (s.setAllot a x).groups = s.groups := rfl
@[simp] theorem State.setAllot_buckets (s : State) (a : Nat) (x : Allot) : (s.setAllot a x).buckets = s.buckets := rfl
@[simp] theorem State.setAllot_landingSlots (s : State) (a : Nat) (x : Allot) : (s.setAllot a x).landingSlots = s.landingSlots := rfl
@[simp] theorem State.setAllot_sessions (s : State) (a : Nat) (x : Allot) : (s.setAllot a x).sessions = s.sessions := rfl
@[simp] theorem State.setAllot_nextSess (s : State) (a : Nat) (x : Allot) : (s.setAllot a x).nextSess = s.nextSess := rfl
@[simp] theorem State.setAllot_signQ (s : State) (a : Nat) (x : Allot) : (s.setAllot a x).signQ = s.signQ := rfl
@[simp] theorem State.setAllot_stripNonce (s : State) (a : Nat) (x : Allot) : (s.setAllot a x).stripNonce = s.stripNonce := rfl
@[simp] theorem State.setAllot_transition (s : State) (a : Nat) (x : Allot) : (s.setAllot a x).transition = s.transition := rfl
@[simp] theorem State.setAllot_seed (s : State) (a : Nat) (x : Allot) : (s.setAllot a x).seed = s.seed := rfl
@[simp] theorem State.setAllot_deviceCert (s : State) (a : Nat) (x : Allot) : (s.setAllot a x).deviceCert = s.deviceCert := rfl
@[simp] theorem State.setAllot_traced (s : State) (a : Nat) (x : Allot) : (s.setAllot a x).traced = s.traced := rfl
@[simp] theorem State.setAllot_traceBuf (s : State) (a : Nat) (x : Allot) : (s.setAllot a x).traceBuf = s.traceBuf := rfl
@[simp] theorem State.setAllot_activating (s : State) (a : Nat) (x : Allot) : (s.setAllot a x).activating = s.activating := rfl
@[simp] theorem State.setAllot_fwBuffer (s : State) (a : Nat) (x : Allot) : (s.setAllot a x).fwBuffer = s.fwBuffer := rfl
@[simp] theorem State.setAllot_staged (s : State) (a : Nat) (x : Allot) : (s.setAllot a x).staged = s.staged := rfl
@[simp] theorem State.setAllot_components (s : State) (a : Nat) (x : Allot) : (s.setAllot a x).components = s.components := rfl
@[simp] theorem State.setAllot_quotaFrames (s : State) (a : Nat) (x : Allot) : (s.setAllot a x).quotaFrames = s.quotaFrames := rfl
@[simp] theorem State.setAllot_larder (s : State) (a : Nat) (x : Allot) : (s.setAllot a x).larder = s.larder := rfl
@[simp] theorem State.setAllot_fillWait (s : State) (a : Nat) (x : Allot) : (s.setAllot a x).fillWait = s.fillWait := rfl
@[simp] theorem State.setAllot_greenSlots (s : State) (a : Nat) (x : Allot) : (s.setAllot a x).greenSlots = s.greenSlots := rfl
@[simp] theorem State.setAllot_jobs (s : State) (a : Nat) (x : Allot) : (s.setAllot a x).jobs = s.jobs := rfl
@[simp] theorem State.setAllot_carterTurn (s : State) (a : Nat) (x : Allot) : (s.setAllot a x).carterTurn = s.carterTurn := rfl
@[simp] theorem State.setAllot_carterCaches (s : State) (a : Nat) (x : Allot) : (s.setAllot a x).carterCaches = s.carterCaches := rfl
@[simp] theorem State.setAllot_power (s : State) (a : Nat) (x : Allot) : (s.setAllot a x).power = s.power := rfl
@[simp] theorem State.setAllot_releasedAt (s : State) (a : Nat) (x : Allot) : (s.setAllot a x).releasedAt = s.releasedAt := rfl
@[simp] theorem State.setAllot_resetPending (s : State) (a : Nat) (x : Allot) : (s.setAllot a x).resetPending = s.resetPending := rfl
@[simp] theorem State.setAllot_heldSince (s : State) (a : Nat) (x : Allot) : (s.setAllot a x).heldSince = s.heldSince := rfl
@[simp] theorem State.setAllot_raisedAt (s : State) (a : Nat) (x : Allot) : (s.setAllot a x).raisedAt = s.raisedAt := rfl
@[simp] theorem State.setAllot_energy (s : State) (a : Nat) (x : Allot) : (s.setAllot a x).energy = s.energy := rfl
@[simp] theorem State.setAllot_flash (s : State) (a : Nat) (x : Allot) : (s.setAllot a x).flash = s.flash := rfl
@[simp] theorem State.setAllot_flashWait (s : State) (a : Nat) (x : Allot) : (s.setAllot a x).flashWait = s.flashWait := rfl
@[simp] theorem State.setAllot_paused (s : State) (a : Nat) (x : Allot) : (s.setAllot a x).paused = s.paused := rfl
@[simp] theorem State.setAllot_mgmtQps (s : State) (a : Nat) (x : Allot) : (s.setAllot a x).mgmtQps = s.mgmtQps := rfl
@[simp] theorem State.setAllot_rxHeld (s : State) (a : Nat) (x : Allot) : (s.setAllot a x).rxHeld = s.rxHeld := rfl
@[simp] theorem State.setAllot_lowered (s : State) (a : Nat) (x : Allot) : (s.setAllot a x).lowered = s.lowered := rfl
@[simp] theorem State.setAllot_throttleAt (s : State) (a : Nat) (x : Allot) : (s.setAllot a x).throttleAt = s.throttleAt := rfl

/-! ### State.setCore -/

@[simp] theorem State.setCore_pending (s : State) (c : Nat) (x : Core) : (s.setCore c x).pending = s.pending := rfl
@[simp] theorem State.setCore_timer (s : State) (c : Nat) (x : Core) : (s.setCore c x).timer = s.timer := rfl
@[simp] theorem State.setCore_freeCtr (s : State) (c : Nat) (x : Core) : (s.setCore c x).freeCtr = s.freeCtr := rfl
@[simp] theorem State.setCore_out (s : State) (c : Nat) (x : Core) : (s.setCore c x).out = s.out := rfl
@[simp] theorem State.setCore_mem (s : State) (c : Nat) (x : Core) : (s.setCore c x).mem = s.mem := rfl
@[simp] theorem State.setCore_poison (s : State) (c : Nat) (x : Core) : (s.setCore c x).poison = s.poison := rfl
@[simp] theorem State.setCore_regs (s : State) (c : Nat) (x : Core) : (s.setCore c x).regs = s.regs := rfl
@[simp] theorem State.setCore_hbmUsed (s : State) (c : Nat) (x : Core) : (s.setCore c x).hbmUsed = s.hbmUsed := rfl
@[simp] theorem State.setCore_hbmPages (s : State) (c : Nat) (x : Core) : (s.setCore c x).hbmPages = s.hbmPages := rfl
@[simp] theorem State.setCore_removals (s : State) (c : Nat) (x : Core) : (s.setCore c x).removals = s.removals := rfl
@[simp] theorem State.setCore_cores (s : State) (c : Nat) (x : Core) : (s.setCore c x).cores = s.cores.set c x := rfl
@[simp] theorem State.setCore_ctxs (s : State) (c : Nat) (x : Core) : (s.setCore c x).ctxs = s.ctxs := rfl
@[simp] theorem State.setCore_allots (s : State) (c : Nat) (x : Core) : (s.setCore c x).allots = s.allots := rfl
@[simp] theorem State.setCore_crierTurn (s : State) (c : Nat) (x : Core) : (s.setCore c x).crierTurn = s.crierTurn := rfl
@[simp] theorem State.setCore_greenRoster (s : State) (c : Nat) (x : Core) : (s.setCore c x).greenRoster = s.greenRoster := rfl
@[simp] theorem State.setCore_wells (s : State) (c : Nat) (x : Core) : (s.setCore c x).wells = s.wells := rfl
@[simp] theorem State.setCore_log (s : State) (c : Nat) (x : Core) : (s.setCore c x).log = s.log := rfl
@[simp] theorem State.setCore_perfHidden (s : State) (c : Nat) (x : Core) : (s.setCore c x).perfHidden = s.perfHidden := rfl
@[simp] theorem State.setCore_dropAt (s : State) (c : Nat) (x : Core) : (s.setCore c x).dropAt = s.dropAt := rfl
@[simp] theorem State.setCore_qps (s : State) (c : Nat) (x : Core) : (s.setCore c x).qps = s.qps := rfl
@[simp] theorem State.setCore_links (s : State) (c : Nat) (x : Core) : (s.setCore c x).links = s.links := rfl
@[simp] theorem State.setCore_topo (s : State) (c : Nat) (x : Core) : (s.setCore c x).topo = s.topo := rfl
@[simp] theorem State.setCore_topoWait (s : State) (c : Nat) (x : Core) : (s.setCore c x).topoWait = s.topoWait := rfl
@[simp] theorem State.setCore_routes (s : State) (c : Nat) (x : Core) : (s.setCore c x).routes = s.routes := rfl
@[simp] theorem State.setCore_flitWait (s : State) (c : Nat) (x : Core) : (s.setCore c x).flitWait = s.flitWait := rfl
@[simp] theorem State.setCore_xfers (s : State) (c : Nat) (x : Core) : (s.setCore c x).xfers = s.xfers := rfl
@[simp] theorem State.setCore_inbound (s : State) (c : Nat) (x : Core) : (s.setCore c x).inbound = s.inbound := rfl
@[simp] theorem State.setCore_groups (s : State) (c : Nat) (x : Core) : (s.setCore c x).groups = s.groups := rfl
@[simp] theorem State.setCore_buckets (s : State) (c : Nat) (x : Core) : (s.setCore c x).buckets = s.buckets := rfl
@[simp] theorem State.setCore_landingSlots (s : State) (c : Nat) (x : Core) : (s.setCore c x).landingSlots = s.landingSlots := rfl
@[simp] theorem State.setCore_sessions (s : State) (c : Nat) (x : Core) : (s.setCore c x).sessions = s.sessions := rfl
@[simp] theorem State.setCore_nextSess (s : State) (c : Nat) (x : Core) : (s.setCore c x).nextSess = s.nextSess := rfl
@[simp] theorem State.setCore_signQ (s : State) (c : Nat) (x : Core) : (s.setCore c x).signQ = s.signQ := rfl
@[simp] theorem State.setCore_stripNonce (s : State) (c : Nat) (x : Core) : (s.setCore c x).stripNonce = s.stripNonce := rfl
@[simp] theorem State.setCore_transition (s : State) (c : Nat) (x : Core) : (s.setCore c x).transition = s.transition := rfl
@[simp] theorem State.setCore_seed (s : State) (c : Nat) (x : Core) : (s.setCore c x).seed = s.seed := rfl
@[simp] theorem State.setCore_deviceCert (s : State) (c : Nat) (x : Core) : (s.setCore c x).deviceCert = s.deviceCert := rfl
@[simp] theorem State.setCore_traced (s : State) (c : Nat) (x : Core) : (s.setCore c x).traced = s.traced := rfl
@[simp] theorem State.setCore_traceBuf (s : State) (c : Nat) (x : Core) : (s.setCore c x).traceBuf = s.traceBuf := rfl
@[simp] theorem State.setCore_activating (s : State) (c : Nat) (x : Core) : (s.setCore c x).activating = s.activating := rfl
@[simp] theorem State.setCore_fwBuffer (s : State) (c : Nat) (x : Core) : (s.setCore c x).fwBuffer = s.fwBuffer := rfl
@[simp] theorem State.setCore_staged (s : State) (c : Nat) (x : Core) : (s.setCore c x).staged = s.staged := rfl
@[simp] theorem State.setCore_components (s : State) (c : Nat) (x : Core) : (s.setCore c x).components = s.components := rfl
@[simp] theorem State.setCore_quotaFrames (s : State) (c : Nat) (x : Core) : (s.setCore c x).quotaFrames = s.quotaFrames := rfl
@[simp] theorem State.setCore_larder (s : State) (c : Nat) (x : Core) : (s.setCore c x).larder = s.larder := rfl
@[simp] theorem State.setCore_fillWait (s : State) (c : Nat) (x : Core) : (s.setCore c x).fillWait = s.fillWait := rfl
@[simp] theorem State.setCore_greenSlots (s : State) (c : Nat) (x : Core) : (s.setCore c x).greenSlots = s.greenSlots := rfl
@[simp] theorem State.setCore_jobs (s : State) (c : Nat) (x : Core) : (s.setCore c x).jobs = s.jobs := rfl
@[simp] theorem State.setCore_carterTurn (s : State) (c : Nat) (x : Core) : (s.setCore c x).carterTurn = s.carterTurn := rfl
@[simp] theorem State.setCore_carterCaches (s : State) (c : Nat) (x : Core) : (s.setCore c x).carterCaches = s.carterCaches := rfl
@[simp] theorem State.setCore_power (s : State) (c : Nat) (x : Core) : (s.setCore c x).power = s.power := rfl
@[simp] theorem State.setCore_releasedAt (s : State) (c : Nat) (x : Core) : (s.setCore c x).releasedAt = s.releasedAt := rfl
@[simp] theorem State.setCore_resetPending (s : State) (c : Nat) (x : Core) : (s.setCore c x).resetPending = s.resetPending := rfl
@[simp] theorem State.setCore_heldSince (s : State) (c : Nat) (x : Core) : (s.setCore c x).heldSince = s.heldSince := rfl
@[simp] theorem State.setCore_raisedAt (s : State) (c : Nat) (x : Core) : (s.setCore c x).raisedAt = s.raisedAt := rfl
@[simp] theorem State.setCore_energy (s : State) (c : Nat) (x : Core) : (s.setCore c x).energy = s.energy := rfl
@[simp] theorem State.setCore_flash (s : State) (c : Nat) (x : Core) : (s.setCore c x).flash = s.flash := rfl
@[simp] theorem State.setCore_flashWait (s : State) (c : Nat) (x : Core) : (s.setCore c x).flashWait = s.flashWait := rfl
@[simp] theorem State.setCore_paused (s : State) (c : Nat) (x : Core) : (s.setCore c x).paused = s.paused := rfl
@[simp] theorem State.setCore_mgmtQps (s : State) (c : Nat) (x : Core) : (s.setCore c x).mgmtQps = s.mgmtQps := rfl
@[simp] theorem State.setCore_rxHeld (s : State) (c : Nat) (x : Core) : (s.setCore c x).rxHeld = s.rxHeld := rfl
@[simp] theorem State.setCore_lowered (s : State) (c : Nat) (x : Core) : (s.setCore c x).lowered = s.lowered := rfl
@[simp] theorem State.setCore_throttleAt (s : State) (c : Nat) (x : Core) : (s.setCore c x).throttleAt = s.throttleAt := rfl

/-! ### State.setLink -/

@[simp] theorem State.setLink_pending (s : State) (l : Nat) (k : Link) : (s.setLink l k).pending = s.pending := rfl
@[simp] theorem State.setLink_timer (s : State) (l : Nat) (k : Link) : (s.setLink l k).timer = s.timer := rfl
@[simp] theorem State.setLink_freeCtr (s : State) (l : Nat) (k : Link) : (s.setLink l k).freeCtr = s.freeCtr := rfl
@[simp] theorem State.setLink_out (s : State) (l : Nat) (k : Link) : (s.setLink l k).out = s.out := rfl
@[simp] theorem State.setLink_mem (s : State) (l : Nat) (k : Link) : (s.setLink l k).mem = s.mem := rfl
@[simp] theorem State.setLink_poison (s : State) (l : Nat) (k : Link) : (s.setLink l k).poison = s.poison := rfl
@[simp] theorem State.setLink_regs (s : State) (l : Nat) (k : Link) : (s.setLink l k).regs = s.regs := rfl
@[simp] theorem State.setLink_hbmUsed (s : State) (l : Nat) (k : Link) : (s.setLink l k).hbmUsed = s.hbmUsed := rfl
@[simp] theorem State.setLink_hbmPages (s : State) (l : Nat) (k : Link) : (s.setLink l k).hbmPages = s.hbmPages := rfl
@[simp] theorem State.setLink_removals (s : State) (l : Nat) (k : Link) : (s.setLink l k).removals = s.removals := rfl
@[simp] theorem State.setLink_cores (s : State) (l : Nat) (k : Link) : (s.setLink l k).cores = s.cores := rfl
@[simp] theorem State.setLink_ctxs (s : State) (l : Nat) (k : Link) : (s.setLink l k).ctxs = s.ctxs := rfl
@[simp] theorem State.setLink_allots (s : State) (l : Nat) (k : Link) : (s.setLink l k).allots = s.allots := rfl
@[simp] theorem State.setLink_crierTurn (s : State) (l : Nat) (k : Link) : (s.setLink l k).crierTurn = s.crierTurn := rfl
@[simp] theorem State.setLink_greenRoster (s : State) (l : Nat) (k : Link) : (s.setLink l k).greenRoster = s.greenRoster := rfl
@[simp] theorem State.setLink_wells (s : State) (l : Nat) (k : Link) : (s.setLink l k).wells = s.wells := rfl
@[simp] theorem State.setLink_log (s : State) (l : Nat) (k : Link) : (s.setLink l k).log = s.log := rfl
@[simp] theorem State.setLink_perfHidden (s : State) (l : Nat) (k : Link) : (s.setLink l k).perfHidden = s.perfHidden := rfl
@[simp] theorem State.setLink_dropAt (s : State) (l : Nat) (k : Link) : (s.setLink l k).dropAt = s.dropAt := rfl
@[simp] theorem State.setLink_qps (s : State) (l : Nat) (k : Link) : (s.setLink l k).qps = s.qps := rfl
@[simp] theorem State.setLink_links (s : State) (l : Nat) (k : Link) : (s.setLink l k).links = s.links.set l k := rfl
@[simp] theorem State.setLink_topo (s : State) (l : Nat) (k : Link) : (s.setLink l k).topo = s.topo := rfl
@[simp] theorem State.setLink_topoWait (s : State) (l : Nat) (k : Link) : (s.setLink l k).topoWait = s.topoWait := rfl
@[simp] theorem State.setLink_routes (s : State) (l : Nat) (k : Link) : (s.setLink l k).routes = s.routes := rfl
@[simp] theorem State.setLink_flitWait (s : State) (l : Nat) (k : Link) : (s.setLink l k).flitWait = s.flitWait := rfl
@[simp] theorem State.setLink_xfers (s : State) (l : Nat) (k : Link) : (s.setLink l k).xfers = s.xfers := rfl
@[simp] theorem State.setLink_inbound (s : State) (l : Nat) (k : Link) : (s.setLink l k).inbound = s.inbound := rfl
@[simp] theorem State.setLink_groups (s : State) (l : Nat) (k : Link) : (s.setLink l k).groups = s.groups := rfl
@[simp] theorem State.setLink_buckets (s : State) (l : Nat) (k : Link) : (s.setLink l k).buckets = s.buckets := rfl
@[simp] theorem State.setLink_landingSlots (s : State) (l : Nat) (k : Link) : (s.setLink l k).landingSlots = s.landingSlots := rfl
@[simp] theorem State.setLink_sessions (s : State) (l : Nat) (k : Link) : (s.setLink l k).sessions = s.sessions := rfl
@[simp] theorem State.setLink_nextSess (s : State) (l : Nat) (k : Link) : (s.setLink l k).nextSess = s.nextSess := rfl
@[simp] theorem State.setLink_signQ (s : State) (l : Nat) (k : Link) : (s.setLink l k).signQ = s.signQ := rfl
@[simp] theorem State.setLink_stripNonce (s : State) (l : Nat) (k : Link) : (s.setLink l k).stripNonce = s.stripNonce := rfl
@[simp] theorem State.setLink_transition (s : State) (l : Nat) (k : Link) : (s.setLink l k).transition = s.transition := rfl
@[simp] theorem State.setLink_seed (s : State) (l : Nat) (k : Link) : (s.setLink l k).seed = s.seed := rfl
@[simp] theorem State.setLink_deviceCert (s : State) (l : Nat) (k : Link) : (s.setLink l k).deviceCert = s.deviceCert := rfl
@[simp] theorem State.setLink_traced (s : State) (l : Nat) (k : Link) : (s.setLink l k).traced = s.traced := rfl
@[simp] theorem State.setLink_traceBuf (s : State) (l : Nat) (k : Link) : (s.setLink l k).traceBuf = s.traceBuf := rfl
@[simp] theorem State.setLink_activating (s : State) (l : Nat) (k : Link) : (s.setLink l k).activating = s.activating := rfl
@[simp] theorem State.setLink_fwBuffer (s : State) (l : Nat) (k : Link) : (s.setLink l k).fwBuffer = s.fwBuffer := rfl
@[simp] theorem State.setLink_staged (s : State) (l : Nat) (k : Link) : (s.setLink l k).staged = s.staged := rfl
@[simp] theorem State.setLink_components (s : State) (l : Nat) (k : Link) : (s.setLink l k).components = s.components := rfl
@[simp] theorem State.setLink_quotaFrames (s : State) (l : Nat) (k : Link) : (s.setLink l k).quotaFrames = s.quotaFrames := rfl
@[simp] theorem State.setLink_larder (s : State) (l : Nat) (k : Link) : (s.setLink l k).larder = s.larder := rfl
@[simp] theorem State.setLink_fillWait (s : State) (l : Nat) (k : Link) : (s.setLink l k).fillWait = s.fillWait := rfl
@[simp] theorem State.setLink_greenSlots (s : State) (l : Nat) (k : Link) : (s.setLink l k).greenSlots = s.greenSlots := rfl
@[simp] theorem State.setLink_jobs (s : State) (l : Nat) (k : Link) : (s.setLink l k).jobs = s.jobs := rfl
@[simp] theorem State.setLink_carterTurn (s : State) (l : Nat) (k : Link) : (s.setLink l k).carterTurn = s.carterTurn := rfl
@[simp] theorem State.setLink_carterCaches (s : State) (l : Nat) (k : Link) : (s.setLink l k).carterCaches = s.carterCaches := rfl
@[simp] theorem State.setLink_power (s : State) (l : Nat) (k : Link) : (s.setLink l k).power = s.power := rfl
@[simp] theorem State.setLink_releasedAt (s : State) (l : Nat) (k : Link) : (s.setLink l k).releasedAt = s.releasedAt := rfl
@[simp] theorem State.setLink_resetPending (s : State) (l : Nat) (k : Link) : (s.setLink l k).resetPending = s.resetPending := rfl
@[simp] theorem State.setLink_heldSince (s : State) (l : Nat) (k : Link) : (s.setLink l k).heldSince = s.heldSince := rfl
@[simp] theorem State.setLink_raisedAt (s : State) (l : Nat) (k : Link) : (s.setLink l k).raisedAt = s.raisedAt := rfl
@[simp] theorem State.setLink_energy (s : State) (l : Nat) (k : Link) : (s.setLink l k).energy = s.energy := rfl
@[simp] theorem State.setLink_flash (s : State) (l : Nat) (k : Link) : (s.setLink l k).flash = s.flash := rfl
@[simp] theorem State.setLink_flashWait (s : State) (l : Nat) (k : Link) : (s.setLink l k).flashWait = s.flashWait := rfl
@[simp] theorem State.setLink_paused (s : State) (l : Nat) (k : Link) : (s.setLink l k).paused = s.paused := rfl
@[simp] theorem State.setLink_mgmtQps (s : State) (l : Nat) (k : Link) : (s.setLink l k).mgmtQps = s.mgmtQps := rfl
@[simp] theorem State.setLink_rxHeld (s : State) (l : Nat) (k : Link) : (s.setLink l k).rxHeld = s.rxHeld := rfl
@[simp] theorem State.setLink_lowered (s : State) (l : Nat) (k : Link) : (s.setLink l k).lowered = s.lowered := rfl
@[simp] theorem State.setLink_throttleAt (s : State) (l : Nat) (k : Link) : (s.setLink l k).throttleAt = s.throttleAt := rfl

/-! ### State.setSession -/

@[simp] theorem State.setSession_pending (s : State) (n : Nat) (x : Session) : (s.setSession n x).pending = s.pending := rfl
@[simp] theorem State.setSession_timer (s : State) (n : Nat) (x : Session) : (s.setSession n x).timer = s.timer := rfl
@[simp] theorem State.setSession_freeCtr (s : State) (n : Nat) (x : Session) : (s.setSession n x).freeCtr = s.freeCtr := rfl
@[simp] theorem State.setSession_out (s : State) (n : Nat) (x : Session) : (s.setSession n x).out = s.out := rfl
@[simp] theorem State.setSession_mem (s : State) (n : Nat) (x : Session) : (s.setSession n x).mem = s.mem := rfl
@[simp] theorem State.setSession_poison (s : State) (n : Nat) (x : Session) : (s.setSession n x).poison = s.poison := rfl
@[simp] theorem State.setSession_regs (s : State) (n : Nat) (x : Session) : (s.setSession n x).regs = s.regs := rfl
@[simp] theorem State.setSession_hbmUsed (s : State) (n : Nat) (x : Session) : (s.setSession n x).hbmUsed = s.hbmUsed := rfl
@[simp] theorem State.setSession_hbmPages (s : State) (n : Nat) (x : Session) : (s.setSession n x).hbmPages = s.hbmPages := rfl
@[simp] theorem State.setSession_removals (s : State) (n : Nat) (x : Session) : (s.setSession n x).removals = s.removals := rfl
@[simp] theorem State.setSession_cores (s : State) (n : Nat) (x : Session) : (s.setSession n x).cores = s.cores := rfl
@[simp] theorem State.setSession_ctxs (s : State) (n : Nat) (x : Session) : (s.setSession n x).ctxs = s.ctxs := rfl
@[simp] theorem State.setSession_allots (s : State) (n : Nat) (x : Session) : (s.setSession n x).allots = s.allots := rfl
@[simp] theorem State.setSession_crierTurn (s : State) (n : Nat) (x : Session) : (s.setSession n x).crierTurn = s.crierTurn := rfl
@[simp] theorem State.setSession_greenRoster (s : State) (n : Nat) (x : Session) : (s.setSession n x).greenRoster = s.greenRoster := rfl
@[simp] theorem State.setSession_wells (s : State) (n : Nat) (x : Session) : (s.setSession n x).wells = s.wells := rfl
@[simp] theorem State.setSession_log (s : State) (n : Nat) (x : Session) : (s.setSession n x).log = s.log := rfl
@[simp] theorem State.setSession_perfHidden (s : State) (n : Nat) (x : Session) : (s.setSession n x).perfHidden = s.perfHidden := rfl
@[simp] theorem State.setSession_dropAt (s : State) (n : Nat) (x : Session) : (s.setSession n x).dropAt = s.dropAt := rfl
@[simp] theorem State.setSession_qps (s : State) (n : Nat) (x : Session) : (s.setSession n x).qps = s.qps := rfl
@[simp] theorem State.setSession_links (s : State) (n : Nat) (x : Session) : (s.setSession n x).links = s.links := rfl
@[simp] theorem State.setSession_topo (s : State) (n : Nat) (x : Session) : (s.setSession n x).topo = s.topo := rfl
@[simp] theorem State.setSession_topoWait (s : State) (n : Nat) (x : Session) : (s.setSession n x).topoWait = s.topoWait := rfl
@[simp] theorem State.setSession_routes (s : State) (n : Nat) (x : Session) : (s.setSession n x).routes = s.routes := rfl
@[simp] theorem State.setSession_flitWait (s : State) (n : Nat) (x : Session) : (s.setSession n x).flitWait = s.flitWait := rfl
@[simp] theorem State.setSession_xfers (s : State) (n : Nat) (x : Session) : (s.setSession n x).xfers = s.xfers := rfl
@[simp] theorem State.setSession_inbound (s : State) (n : Nat) (x : Session) : (s.setSession n x).inbound = s.inbound := rfl
@[simp] theorem State.setSession_groups (s : State) (n : Nat) (x : Session) : (s.setSession n x).groups = s.groups := rfl
@[simp] theorem State.setSession_buckets (s : State) (n : Nat) (x : Session) : (s.setSession n x).buckets = s.buckets := rfl
@[simp] theorem State.setSession_landingSlots (s : State) (n : Nat) (x : Session) : (s.setSession n x).landingSlots = s.landingSlots := rfl
@[simp] theorem State.setSession_sessions (s : State) (n : Nat) (x : Session) : (s.setSession n x).sessions = s.sessions.set n x := rfl
@[simp] theorem State.setSession_nextSess (s : State) (n : Nat) (x : Session) : (s.setSession n x).nextSess = s.nextSess := rfl
@[simp] theorem State.setSession_signQ (s : State) (n : Nat) (x : Session) : (s.setSession n x).signQ = s.signQ := rfl
@[simp] theorem State.setSession_stripNonce (s : State) (n : Nat) (x : Session) : (s.setSession n x).stripNonce = s.stripNonce := rfl
@[simp] theorem State.setSession_transition (s : State) (n : Nat) (x : Session) : (s.setSession n x).transition = s.transition := rfl
@[simp] theorem State.setSession_seed (s : State) (n : Nat) (x : Session) : (s.setSession n x).seed = s.seed := rfl
@[simp] theorem State.setSession_deviceCert (s : State) (n : Nat) (x : Session) : (s.setSession n x).deviceCert = s.deviceCert := rfl
@[simp] theorem State.setSession_traced (s : State) (n : Nat) (x : Session) : (s.setSession n x).traced = s.traced := rfl
@[simp] theorem State.setSession_traceBuf (s : State) (n : Nat) (x : Session) : (s.setSession n x).traceBuf = s.traceBuf := rfl
@[simp] theorem State.setSession_activating (s : State) (n : Nat) (x : Session) : (s.setSession n x).activating = s.activating := rfl
@[simp] theorem State.setSession_fwBuffer (s : State) (n : Nat) (x : Session) : (s.setSession n x).fwBuffer = s.fwBuffer := rfl
@[simp] theorem State.setSession_staged (s : State) (n : Nat) (x : Session) : (s.setSession n x).staged = s.staged := rfl
@[simp] theorem State.setSession_components (s : State) (n : Nat) (x : Session) : (s.setSession n x).components = s.components := rfl
@[simp] theorem State.setSession_quotaFrames (s : State) (n : Nat) (x : Session) : (s.setSession n x).quotaFrames = s.quotaFrames := rfl
@[simp] theorem State.setSession_larder (s : State) (n : Nat) (x : Session) : (s.setSession n x).larder = s.larder := rfl
@[simp] theorem State.setSession_fillWait (s : State) (n : Nat) (x : Session) : (s.setSession n x).fillWait = s.fillWait := rfl
@[simp] theorem State.setSession_greenSlots (s : State) (n : Nat) (x : Session) : (s.setSession n x).greenSlots = s.greenSlots := rfl
@[simp] theorem State.setSession_jobs (s : State) (n : Nat) (x : Session) : (s.setSession n x).jobs = s.jobs := rfl
@[simp] theorem State.setSession_carterTurn (s : State) (n : Nat) (x : Session) : (s.setSession n x).carterTurn = s.carterTurn := rfl
@[simp] theorem State.setSession_carterCaches (s : State) (n : Nat) (x : Session) : (s.setSession n x).carterCaches = s.carterCaches := rfl
@[simp] theorem State.setSession_power (s : State) (n : Nat) (x : Session) : (s.setSession n x).power = s.power := rfl
@[simp] theorem State.setSession_releasedAt (s : State) (n : Nat) (x : Session) : (s.setSession n x).releasedAt = s.releasedAt := rfl
@[simp] theorem State.setSession_resetPending (s : State) (n : Nat) (x : Session) : (s.setSession n x).resetPending = s.resetPending := rfl
@[simp] theorem State.setSession_heldSince (s : State) (n : Nat) (x : Session) : (s.setSession n x).heldSince = s.heldSince := rfl
@[simp] theorem State.setSession_raisedAt (s : State) (n : Nat) (x : Session) : (s.setSession n x).raisedAt = s.raisedAt := rfl
@[simp] theorem State.setSession_energy (s : State) (n : Nat) (x : Session) : (s.setSession n x).energy = s.energy := rfl
@[simp] theorem State.setSession_flash (s : State) (n : Nat) (x : Session) : (s.setSession n x).flash = s.flash := rfl
@[simp] theorem State.setSession_flashWait (s : State) (n : Nat) (x : Session) : (s.setSession n x).flashWait = s.flashWait := rfl
@[simp] theorem State.setSession_paused (s : State) (n : Nat) (x : Session) : (s.setSession n x).paused = s.paused := rfl
@[simp] theorem State.setSession_mgmtQps (s : State) (n : Nat) (x : Session) : (s.setSession n x).mgmtQps = s.mgmtQps := rfl
@[simp] theorem State.setSession_rxHeld (s : State) (n : Nat) (x : Session) : (s.setSession n x).rxHeld = s.rxHeld := rfl
@[simp] theorem State.setSession_lowered (s : State) (n : Nat) (x : Session) : (s.setSession n x).lowered = s.lowered := rfl
@[simp] theorem State.setSession_throttleAt (s : State) (n : Nat) (x : Session) : (s.setSession n x).throttleAt = s.throttleAt := rfl

/-! ### State.emit -/

@[simp] theorem State.emit_pending (s : State) (o : Out) : (s.emit o).pending = s.pending := rfl
@[simp] theorem State.emit_timer (s : State) (o : Out) : (s.emit o).timer = s.timer := rfl
@[simp] theorem State.emit_freeCtr (s : State) (o : Out) : (s.emit o).freeCtr = s.freeCtr := rfl
@[simp] theorem State.emit_out (s : State) (o : Out) : (s.emit o).out = o :: s.out := rfl
@[simp] theorem State.emit_mem (s : State) (o : Out) : (s.emit o).mem = s.mem := rfl
@[simp] theorem State.emit_poison (s : State) (o : Out) : (s.emit o).poison = s.poison := rfl
@[simp] theorem State.emit_regs (s : State) (o : Out) : (s.emit o).regs = s.regs := rfl
@[simp] theorem State.emit_hbmUsed (s : State) (o : Out) : (s.emit o).hbmUsed = s.hbmUsed := rfl
@[simp] theorem State.emit_hbmPages (s : State) (o : Out) : (s.emit o).hbmPages = s.hbmPages := rfl
@[simp] theorem State.emit_removals (s : State) (o : Out) : (s.emit o).removals = s.removals := rfl
@[simp] theorem State.emit_cores (s : State) (o : Out) : (s.emit o).cores = s.cores := rfl
@[simp] theorem State.emit_ctxs (s : State) (o : Out) : (s.emit o).ctxs = s.ctxs := rfl
@[simp] theorem State.emit_allots (s : State) (o : Out) : (s.emit o).allots = s.allots := rfl
@[simp] theorem State.emit_crierTurn (s : State) (o : Out) : (s.emit o).crierTurn = s.crierTurn := rfl
@[simp] theorem State.emit_greenRoster (s : State) (o : Out) : (s.emit o).greenRoster = s.greenRoster := rfl
@[simp] theorem State.emit_wells (s : State) (o : Out) : (s.emit o).wells = s.wells := rfl
@[simp] theorem State.emit_log (s : State) (o : Out) : (s.emit o).log = s.log := rfl
@[simp] theorem State.emit_perfHidden (s : State) (o : Out) : (s.emit o).perfHidden = s.perfHidden := rfl
@[simp] theorem State.emit_dropAt (s : State) (o : Out) : (s.emit o).dropAt = s.dropAt := rfl
@[simp] theorem State.emit_qps (s : State) (o : Out) : (s.emit o).qps = s.qps := rfl
@[simp] theorem State.emit_links (s : State) (o : Out) : (s.emit o).links = s.links := rfl
@[simp] theorem State.emit_topo (s : State) (o : Out) : (s.emit o).topo = s.topo := rfl
@[simp] theorem State.emit_topoWait (s : State) (o : Out) : (s.emit o).topoWait = s.topoWait := rfl
@[simp] theorem State.emit_routes (s : State) (o : Out) : (s.emit o).routes = s.routes := rfl
@[simp] theorem State.emit_flitWait (s : State) (o : Out) : (s.emit o).flitWait = s.flitWait := rfl
@[simp] theorem State.emit_xfers (s : State) (o : Out) : (s.emit o).xfers = s.xfers := rfl
@[simp] theorem State.emit_inbound (s : State) (o : Out) : (s.emit o).inbound = s.inbound := rfl
@[simp] theorem State.emit_groups (s : State) (o : Out) : (s.emit o).groups = s.groups := rfl
@[simp] theorem State.emit_buckets (s : State) (o : Out) : (s.emit o).buckets = s.buckets := rfl
@[simp] theorem State.emit_landingSlots (s : State) (o : Out) : (s.emit o).landingSlots = s.landingSlots := rfl
@[simp] theorem State.emit_sessions (s : State) (o : Out) : (s.emit o).sessions = s.sessions := rfl
@[simp] theorem State.emit_nextSess (s : State) (o : Out) : (s.emit o).nextSess = s.nextSess := rfl
@[simp] theorem State.emit_signQ (s : State) (o : Out) : (s.emit o).signQ = s.signQ := rfl
@[simp] theorem State.emit_stripNonce (s : State) (o : Out) : (s.emit o).stripNonce = s.stripNonce := rfl
@[simp] theorem State.emit_transition (s : State) (o : Out) : (s.emit o).transition = s.transition := rfl
@[simp] theorem State.emit_seed (s : State) (o : Out) : (s.emit o).seed = s.seed := rfl
@[simp] theorem State.emit_deviceCert (s : State) (o : Out) : (s.emit o).deviceCert = s.deviceCert := rfl
@[simp] theorem State.emit_traced (s : State) (o : Out) : (s.emit o).traced = s.traced := rfl
@[simp] theorem State.emit_traceBuf (s : State) (o : Out) : (s.emit o).traceBuf = s.traceBuf := rfl
@[simp] theorem State.emit_activating (s : State) (o : Out) : (s.emit o).activating = s.activating := rfl
@[simp] theorem State.emit_fwBuffer (s : State) (o : Out) : (s.emit o).fwBuffer = s.fwBuffer := rfl
@[simp] theorem State.emit_staged (s : State) (o : Out) : (s.emit o).staged = s.staged := rfl
@[simp] theorem State.emit_components (s : State) (o : Out) : (s.emit o).components = s.components := rfl
@[simp] theorem State.emit_quotaFrames (s : State) (o : Out) : (s.emit o).quotaFrames = s.quotaFrames := rfl
@[simp] theorem State.emit_larder (s : State) (o : Out) : (s.emit o).larder = s.larder := rfl
@[simp] theorem State.emit_fillWait (s : State) (o : Out) : (s.emit o).fillWait = s.fillWait := rfl
@[simp] theorem State.emit_greenSlots (s : State) (o : Out) : (s.emit o).greenSlots = s.greenSlots := rfl
@[simp] theorem State.emit_jobs (s : State) (o : Out) : (s.emit o).jobs = s.jobs := rfl
@[simp] theorem State.emit_carterTurn (s : State) (o : Out) : (s.emit o).carterTurn = s.carterTurn := rfl
@[simp] theorem State.emit_carterCaches (s : State) (o : Out) : (s.emit o).carterCaches = s.carterCaches := rfl
@[simp] theorem State.emit_power (s : State) (o : Out) : (s.emit o).power = s.power := rfl
@[simp] theorem State.emit_releasedAt (s : State) (o : Out) : (s.emit o).releasedAt = s.releasedAt := rfl
@[simp] theorem State.emit_resetPending (s : State) (o : Out) : (s.emit o).resetPending = s.resetPending := rfl
@[simp] theorem State.emit_heldSince (s : State) (o : Out) : (s.emit o).heldSince = s.heldSince := rfl
@[simp] theorem State.emit_raisedAt (s : State) (o : Out) : (s.emit o).raisedAt = s.raisedAt := rfl
@[simp] theorem State.emit_energy (s : State) (o : Out) : (s.emit o).energy = s.energy := rfl
@[simp] theorem State.emit_flash (s : State) (o : Out) : (s.emit o).flash = s.flash := rfl
@[simp] theorem State.emit_flashWait (s : State) (o : Out) : (s.emit o).flashWait = s.flashWait := rfl
@[simp] theorem State.emit_paused (s : State) (o : Out) : (s.emit o).paused = s.paused := rfl
@[simp] theorem State.emit_mgmtQps (s : State) (o : Out) : (s.emit o).mgmtQps = s.mgmtQps := rfl
@[simp] theorem State.emit_rxHeld (s : State) (o : Out) : (s.emit o).rxHeld = s.rxHeld := rfl
@[simp] theorem State.emit_lowered (s : State) (o : Out) : (s.emit o).lowered = s.lowered := rfl
@[simp] theorem State.emit_throttleAt (s : State) (o : Out) : (s.emit o).throttleAt = s.throttleAt := rfl

end Sys2Proof.Machine
end

