-- ==== Sys2Proof/Laws/Reg.lean ====
section
/-! SUPPORT. What a read through an accessor gives after an update: the value written at the place written, and the value before
elsewhere. -/

namespace Sys2Proof.Machine

/-! ### The Parish Register -/

@[simp] theorem State.reg_setReg_self (s : State) (idx sub v : Nat) : (s.setReg idx sub v).reg idx sub = v := by
  simp [State.reg, State.setReg]

theorem State.reg_setReg_ne (s : State) {idx sub idx' sub' : Nat} (v : Nat) (h : objKey idx' sub' ≠ objKey idx sub) :
    (s.setReg idx sub v).reg idx' sub' = s.reg idx' sub' := by simp [State.reg, State.setReg, h]

@[simp] theorem State.reg_bumpReg_self (s : State) (idx sub n : Nat) :
    (s.bumpReg idx sub n).reg idx sub = (s.reg idx sub + n) % 2 ^ 64 := by simp [State.bumpReg]

theorem State.reg_bumpReg_ne (s : State) {idx sub idx' sub' : Nat} (n : Nat) (h : objKey idx' sub' ≠ objKey idx sub) :
    (s.bumpReg idx sub n).reg idx' sub' = s.reg idx' sub' := State.reg_setReg_ne s _ h

/-- Objects of subindices below 256 have one key only when they are one object. -/
theorem objKey_inj {idx sub idx' sub' : Nat} (h : sub < 256) (h' : sub' < 256) : objKey idx sub = objKey idx' sub' ↔ idx = idx' ∧ sub = sub' := by
  unfold objKey
  omega

/-- An object put in force: its value, with a write to the boot flash that waits for one that the flash keeps. -/
theorem State.putReg_spec (s : State) (idx sub v : Nat) :
    (s.putReg idx sub v).regs = s.regs.set (objKey idx sub) v ∧
      s.putReg idx sub v = { s with regs := (s.putReg idx sub v).regs, flashWait := (s.putReg idx sub v).flashWait } := by
  unfold State.putReg State.setReg
  dsimp only
  split <;> exact ⟨rfl, rfl⟩

@[simp] theorem State.reg_putReg_self (s : State) (idx sub v : Nat) : (s.putReg idx sub v).reg idx sub = v := by
  simp [State.reg, (State.putReg_spec s idx sub v).1]

theorem State.reg_putReg_ne (s : State) {idx sub idx' sub' : Nat} (v : Nat) (h : objKey idx' sub' ≠ objKey idx sub) :
    (s.putReg idx sub v).reg idx' sub' = s.reg idx' sub' := by simp [State.reg, (State.putReg_spec s idx sub v).1, h]

@[simp] theorem State.reg_emit (s : State) (o : Out) (i j : Nat) : (s.emit o).reg i j = s.reg i j := rfl
@[simp] theorem State.reg_setSession (s : State) (n : Nat) (x : Session) (i j : Nat) : (s.setSession n x).reg i j = s.reg i j := rfl
@[simp] theorem State.reg_setCtx (s : State) (a c : Nat) (x : Ctx) (i j : Nat) : (s.setCtx a c x).reg i j = s.reg i j := rfl
@[simp] theorem State.reg_modCtx (s : State) (a c : Nat) (f : Ctx → Ctx) (i j : Nat) : (s.modCtx a c f).reg i j = s.reg i j := rfl
@[simp] theorem State.reg_setAllot (s : State) (a : Nat) (x : Allot) (i j : Nat) : (s.setAllot a x).reg i j = s.reg i j := rfl
@[simp] theorem State.reg_modAllot (s : State) (a : Nat) (f : Allot → Allot) (i j : Nat) : (s.modAllot a f).reg i j = s.reg i j := rfl
@[simp] theorem State.reg_setCore (s : State) (c : Nat) (x : Core) (i j : Nat) : (s.setCore c x).reg i j = s.reg i j := rfl
@[simp] theorem State.reg_setLink (s : State) (l : Nat) (k : Link) (i j : Nat) : (s.setLink l k).reg i j = s.reg i j := rfl

/-! ### Sessions -/

@[simp] theorem State.session_setSession_self (s : State) (n : Nat) (x : Session) : (s.setSession n x).session n = some x := by
  simp [State.session, State.setSession]

@[simp] theorem State.session_setSession_ne (s : State) {n k : Nat} (x : Session) (h : k ≠ n) :
    (s.setSession n x).session k = s.session k := by simp [State.session, State.setSession, h]

@[simp] theorem State.session_emit (s : State) (o : Out) (n : Nat) : (s.emit o).session n = s.session n := rfl
@[simp] theorem State.session_setReg (s : State) (i j v n : Nat) : (s.setReg i j v).session n = s.session n := rfl

/-- A change of one session: another keeps what it holds, and nothing else of the state changes. -/
theorem State.modSession_spec (s : State) (n : Nat) (f : Session → Session) :
    s.modSession n f = { s with sessions := (s.modSession n f).sessions } ∧
      (∀ x, s.session n = some x → (s.modSession n f).session n = some (f x)) ∧
      (s.session n = none → s.modSession n f = s) ∧ (∀ k, k ≠ n → (s.modSession n f).session k = s.session k) := by
  unfold State.modSession
  refine ⟨?_, fun x h => ?_, fun h => ?_, fun k h => ?_⟩
  · split <;> rfl
  · simp [h]
  · simp [h]
  · split <;> simp [h]

/-! ### Allotments, contexts and cores -/

@[simp] theorem State.allot_setAllot_self (s : State) (a : Nat) (x : Allot) : (s.setAllot a x).allot a = x := by
  simp [State.allot, State.setAllot]

@[simp] theorem State.allot_setAllot_ne (s : State) {a b : Nat} (x : Allot) (h : b ≠ a) : (s.setAllot a x).allot b = s.allot b := by
  simp [State.allot, State.setAllot, h]

@[simp] theorem State.allot_modAllot_self (s : State) (a : Nat) (f : Allot → Allot) : (s.modAllot a f).allot a = f (s.allot a) :=
  State.allot_setAllot_self s a _

@[simp] theorem State.allot_modAllot_ne (s : State) {a b : Nat} (f : Allot → Allot) (h : b ≠ a) : (s.modAllot a f).allot b = s.allot b :=
  State.allot_setAllot_ne s _ h

/-- Contexts of cores below 128 have one key only when they are one context. -/
theorem ctxKey_inj {a c a' c' : Nat} (h : c < 128) (h' : c' < 128) : ctxKey a c = ctxKey a' c' ↔ a = a' ∧ c = c' := by
  unfold ctxKey
  omega

theorem State.ctx_setCtx_ne (s : State) {a c a' c' : Nat} (x : Ctx) (h : ctxKey a' c' ≠ ctxKey a c) :
    (s.setCtx a c x).ctx a' c' = s.ctx a' c' := by simp [State.ctx, State.ctx?, State.setCtx, h]

@[simp] theorem State.core_setCore_self (s : State) (c : Nat) (x : Core) : (s.setCore c x).core c = x := by
  simp [State.core, State.setCore]

@[simp] theorem State.core_setCore_ne (s : State) {c d : Nat} (x : Core) (h : d ≠ c) : (s.setCore c x).core d = s.core d := by
  simp [State.core, State.setCore, h]

@[simp] theorem State.link_setLink_self (s : State) (l : Nat) (k : Link) : (s.setLink l k).link l = k := by
  simp [State.link, State.setLink]

@[simp] theorem State.link_setLink_ne (s : State) {l m : Nat} (k : Link) (h : m ≠ l) : (s.setLink l k).link m = s.link m := by
  simp [State.link, State.setLink, h]

/-! ### The scalar registers and marks of a context -/

@[simp] theorem Ctx.s_zero (x : Ctx) : x.s 0 = 0 := rfl

end Sys2Proof.Machine
end

