-- ==== Sys2Proof/Tests/Slice0.lean ====
section
/-! SUPPORT. Tests: ill-formed commands that the checks refuse, words written out from the encodings, and for every statement a state and
operands that meet its hypotheses. -/

namespace Sys2Proof.Tests

set_option Elab.async false

open Sys2Proof Sys2Proof.Machine

/-! ### Well-formed commands: a term that each check refuses -/

theorem test_wf_core : (Instr.gHalt 128).wf = false ∧ (Instr.gHalt 127).wf = true := by decide
theorem test_wf_allot : (Instr.budgetReached 256).wf = false ∧ (Instr.budgetReached 255).wf = true := by decide
theorem test_wf_stream : (Instr.crierTakeRecord 1 16).wf = false ∧ (Instr.crierTakeRecord 1 15).wf = true := by decide
theorem test_wf_group : (Instr.mootGroupApply 0 12).wf = false ∧ (Instr.mootGroupApply 0 11).wf = true := by decide
theorem test_wf_bucket : (Instr.bucketLanding 0 256).wf = false ∧ (Instr.bucketLanding 0 255).wf = true := by decide
theorem test_wf_level : (Instr.nodeDeadlineExpiry 0 0 10).wf = false ∧ (Instr.nodeDeadlineExpiry 0 0 9).wf = true := by decide
theorem test_wf_link : (Instr.linkFecLock 64).wf = false ∧ (Instr.linkFecLock 63).wf = true := by decide
theorem test_wf_port : (Instr.hostPortDark 4).wf = false ∧ (Instr.hostPortDark 3).wf = true := by decide
theorem test_wf_qp : (Instr.qpDisconnect 4096).wf = false ∧ (Instr.qpDisconnect 4095).wf = true := by decide
theorem test_wf_handle : (Instr.carryRecheckDone 16384).wf = false ∧ (Instr.carryRecheckDone 16383).wf = true := by decide
theorem test_wf_house : (Instr.groupLost 0 512).wf = false ∧ (Instr.groupLost 0 511).wf = true := by decide
theorem test_wf_ward : (Instr.setpointApply 0 4).wf = false ∧ (Instr.setpointApply 0 3).wf = true := by decide
theorem test_wf_bank : (Instr.bankLoadComplete 1 0 2).wf = false ∧ (Instr.bankLoadComplete 1 0 1).wf = true := by decide
theorem test_wf_loft_page : (Instr.pageSpill 1 0 2048).wf = false ∧ (Instr.pageSpill 1 0 2047).wf = true := by decide
theorem test_wf_slot : (Instr.wellFill 0 2).wf = false ∧ (Instr.wellFill 0 1).wf = true := by decide
theorem test_wf_key_slot : (Instr.operatorKeyWrite 0 0 0).wf = false ∧ (Instr.operatorKeyWrite 0 5 0).wf = false ∧
    (Instr.operatorKeyWrite 0 4 0).wf = true := by decide
theorem test_wf_digest : (Instr.operatorKeyWrite 0 1 (2 ^ 256)).wf = false ∧ (Instr.operatorKeyWrite 0 1 (2 ^ 256 - 1)).wf = true := by decide
theorem test_wf_tag : (Instr.transferTagReuse 1024).wf = false ∧ (Instr.transferTagReuse 1023).wf = true := by decide
theorem test_wf_wards : (Instr.thermalSample [0, 0, 0]).wf = false ∧ (Instr.thermalSample [0, 0, 0, 0]).wf = true := by decide
theorem test_wf_vr_hot : (Instr.throttleEval [4] 0).wf = false ∧ (Instr.throttleEval [3] 0).wf = true := by decide
theorem test_wf_priority : (Instr.pfcPauseReceived 0 8 true).wf = false ∧ (Instr.pfcPauseReceived 0 7 true).wf = true := by decide
theorem test_wf_engine_word : (Instr.lLoad 0 0).wf = false ∧ (Instr.lLoad 0 0xF0000000).wf = true := by decide +kernel
theorem test_wf_esc : (Instr.gEsc 0 0 .saveArea).wf = false ∧ (Instr.gEsc 0 0 .moot).wf = true := by decide

/-- A flit header at the upper ends of its fields. -/
def hdrMax : FlitHdr := { seq := 4095, ack := 4095, cvc := 15, ccnt := 15, dest := 511, src := 511, vc := 15, household := 0xFFFF }

theorem test_wf_header : (Instr.idleFlit 0 hdrMax).wf = true ∧ (Instr.idleFlit 0 { hdrMax with seq := 4096 }).wf = false ∧
    (Instr.idleFlit 0 { hdrMax with ack := 4096 }).wf = false ∧ (Instr.idleFlit 0 { hdrMax with cvc := 16 }).wf = false ∧
    (Instr.idleFlit 0 { hdrMax with ccnt := 16 }).wf = false ∧ (Instr.idleFlit 0 { hdrMax with dest := 512 }).wf = false ∧
    (Instr.idleFlit 0 { hdrMax with src := 512 }).wf = false ∧ (Instr.idleFlit 0 { hdrMax with vc := 16 }).wf = false ∧
    (Instr.idleFlit 0 { hdrMax with household := 0x10000 }).wf = false := by decide

theorem test_wf_body : (Instr.dataFlit 0 hdrMax 0 false 0 (List.replicate 237 0)).wf = false ∧
    (Instr.dataFlit 0 hdrMax 0 false 0 (List.replicate 236 0)).wf = true := by decide +kernel

theorem test_wf_moot_context : (MootCtx.wf { pub := false, level := 10, bslot := 0 }) = false ∧
    (MootCtx.wf { pub := false, level := 0, bslot := 256 }) = false ∧ (MootCtx.wf { pub := false, level := 15, bslot := 255 }) = true := by decide

theorem test_wf_hello : (Hello.wf { digest := 2 ^ 256, house := 0, mode := 0, link := 0, epoch := 0 }) = false ∧
    (Hello.wf { digest := 0, house := 0x10000, mode := 0, link := 0, epoch := 0 }) = false ∧
    (Hello.wf { digest := 0, house := 0, mode := 0, link := 64, epoch := 0 }) = false ∧
    (Hello.wf { digest := 0, house := 0xFFFF, mode := 0, link := 63, epoch := 0 }) = true := by decide

theorem test_wf_token : (MakerToken.wf { identity := 2 ^ 256, nonce := 0, target := 0, signature := 0 }) = false ∧
    (MakerToken.wf { identity := 0, nonce := 2 ^ 128, target := 0, signature := 0 }) = false ∧
    (MakerToken.wf { identity := 0, nonce := 0, target := 256, signature := 0 }) = false ∧
    (MakerToken.wf { identity := 0, nonce := 0, target := 255, signature := 0 }) = true := by decide

theorem test_wf_station : (Instr.testStationTransition (.bareToPrimed (2 ^ 256))).wf = false ∧
    (Instr.testStationTransition (.bareToPrimed 0)).wf = true := by decide

theorem test_wf_requester : (Requester.wf { mutualAuth := true, keyDigest := 2 ^ 256, maker := false }) = false ∧
    (Requester.wf { mutualAuth := true, keyDigest := 0, maker := false }) = true := by decide

theorem test_wf_path : (LmpPath.inBand 4).wf = false ∧ (LmpPath.inBand 3).wf = true ∧ LmpPath.management.wf = true := by decide

/-! ### Words written out from spec/08 R234 -/

/-- G.ALU s3, s4, s3, SUB: opcode 000001, RD 00011, RA 00100, RB 00011, seven zeros, FUNC 0001. -/
theorem test_word_sub : gangerDecode 0 0b00000100011001000001100000000001 = .gAlu 0 3 4 3 .sub := by decide +kernel
/-- G.ADDI s1, s2, -1. -/
theorem test_word_addi : gangerDecode 0 0b00001000001000101111111111111111 = .gAddi 0 1 2 0xFFFF := by decide +kernel
/-- G.SHI s1, s2, SRA, 63: KIND 10, eight zeros, AMOUNT 111111. -/
theorem test_word_shi : gangerDecode 0 0b00011000001000101000000000111111 = .gShi 0 1 2 .sra 63 := by decide +kernel
/-- G.B.cc GEU s1, s2, -1: CC 101, OFF 13 ones. -/
theorem test_word_branch : gangerDecode 0 0b10000000001000101011111111111111 = .gBCc 0 .geu 1 2 0x1FFF := by decide +kernel
/-- A 1 in the reserved field of G.HALT. -/
theorem test_word_reserved : gangerDecode 0 0b10111000000000000000000000000001 = .gangerIllegalWord 0 := by decide +kernel
/-- The table gives the commands no bits. -/
theorem test_table_word (nbits w : Nat) : decodeTableWord nbits w = none := rfl

/-! ### A core with one instruction due -/

/-- Core 0 held by allotment 1, whose context is x, with n bytes of code at the start of its Loft window. -/
def held (x : Ctx) (n v : Nat) : State :=
  ({ regs := [(objKey 0x3101 1, 1), (objKey 0x3101 2, 1)], cores := [(0, { resident := some 1 })], ctxs := [(ctxKey 1 0, x)] } : State).writeVa 1
    loftVa (leBytes n v)

/-- A running program in bank 0 with one page of its window, and s4 at an address. -/
def prog (va : Nat) : Ctx :=
  { run := .running, banks := [(0, { len := 16 })], pages := [(0, { frame := 0 })], sregs := [(4, BitVec.ofNat 64 va)] }

/-- A context with a Ganger instruction due. -/
def dueWith (x : Ctx) (i : Instr) : State := held x 4 ((gangerEncode i).getD 0)

/-- Whether an instruction is due under a context. -/
def isDue (x : Ctx) (i : Instr) : Bool := decide ((dueWith x i).due 0 = some (1, x, i))

/-- The first address of the page that holds the code, and one past its last. -/
def lo : Nat := loftVa
def hi : Nat := loftVa + 0x10000

theorem test_tick : State.reset.pending = [] ∧ State.reset.power = .running ∧ State.reset.transition = false ∧
    ({ power := .off } : State).pending = [] ∧ ({ transition := true } : State).power = .running := by decide +kernel

theorem test_step_answers : Mem.wf State.reset.mem = true ∧ ∃ t, step State.reset = .next t := ⟨rfl, _, rfl⟩

theorem test_memory_form : Mem.wf [(5, 1), (2 ^ 40, 255)] = true ∧ Mem.wf [(5, 1), (5, 2)] = false ∧ Mem.wf [(5, 0)] = false := by decide +kernel

/-- One instruction of every encoding, at the ends of its fields. -/
theorem test_encode_fits : ([.gAlu 127 31 31 31 .mul, .gAddi 127 31 31 0xFFFF, .gAndi 0 0 0 0, .gOri 0 31 0 0xFFFF, .gXori 0 0 31 0, .gShi 0 31 31 .sra 63,
    .gSlti 0 31 31 0x8000, .gMovk 0 31 3 0xFFFF, .gLdB 0 31 31 0xFFFF, .gLdH 0 0 0 0, .gLdW 0 1 2 3, .gLdD 0 31 0 0x7FFF, .gStB 0 31 31 0xFFFF,
    .gStH 0 0 0 0, .gStW 0 1 2 3, .gStD 0 31 0 0x7FFF, .gNld 0 7 31 0xFFFF, .gBCc 0 .geu 31 31 0x1FFF, .gJ 0 0x3FFFFFF, .gLoop 0 31 0xFFFF, .gBrk 0,
    .gWait 0 63 (.imm 0x3FFF), .gWait 0 63 (.reg 31), .gMset 0 63 31, .gMrd 0 31 63, .gEsc 0 31 .moot, .gPring 0 31, .gProvOpen 0 3, .gProvConfirm 0 3,
    .gProvCancel 0 3, .gTallyB 0 31, .gTallyH 0 31, .gTallyW 0 31, .gTallyS 0 31, .gTallyR 0 31, .gTime 0 31, .gPost 0 31, .gSwap 0 31, .gHalt 0,
    .gAddr 0 31 31 15, .gAddr2 0 31 31 15] : List Instr).all
      (fun i => (gangerEncode i).isSome && i.wf && i.fetchCore.isSome) = true := by decide +kernel

theorem test_registers : (31 : Reg) ≠ 0 ∧ (1 : Reg) ≠ 31 ∧ (63 : Nat) < 64 := by decide

theorem test_due_arithmetic : ([.gAlu 0 3 4 4 .sub, .gAddi 0 3 4 0xFFFF, .gAndi 0 3 4 0xFFFF, .gOri 0 0 4 1, .gXori 0 31 4 0xFFFF,
    .gShi 0 4 4 .sra 63, .gSlti 0 3 4 0x8000, .gMovk 0 4 3 0xFFFF] : List Instr).all (isDue (prog (2 ^ 64 - 1))) = true := by decide +kernel

/-- The last bytes of the page. -/
theorem test_due_loads : ([(.gLdB 0 3 4 0xFFFF, 1), (.gLdH 0 3 4 0xFFFE, 2), (.gLdW 0 3 4 0xFFFC, 4), (.gLdD 0 3 4 0xFFF8, 8),
    (.gNld 0 7 4 0xFFC0, 64)] : List (Instr × Nat)).all (fun p =>
      let s := dueWith (prog hi) p.1
      isDue (prog hi) p.1 && s.gAccess 1 0 (hi - p.2) false == .ok && !s.poisonedVa 1 (hi - p.2) p.2 &&
        gAddress (prog hi) 4 (BitVec.ofNat 16 (2 ^ 16 - p.2)) p.2 == hi - p.2 && !nestBad (s.readVa 1 (hi - 64) 64)) = true := by decide +kernel

theorem test_due_stores : ([(.gStB 0 3 4 0xFFFF, 1), (.gStH 0 3 4 0xFFFE, 2), (.gStW 0 3 4 0xFFFC, 4), (.gStD 0 3 4 0xFFF8, 8)] : List (Instr × Nat)).all
    (fun p =>
      let s := dueWith (prog hi) p.1
      isDue (prog hi) p.1 && s.gAccess 1 0 (hi - p.2) true == .ok && s.tagMapHit 1 0 (hi - p.2) == none && !(prog hi).checked &&
        (s.paOf 1 (hi - p.2)).isSome && !s.poisonedRange ((s.paOf 1 (hi - p.2)).getD 0) p.2) = true := by decide +kernel

/-- The program with a second page: spilled, frozen, or the control page of the tag map. -/
def two (va : Nat) (j : Nat) (d : PageDesc) : Ctx := { prog va with pages := [(0, { frame := 0 }), (j, d)] }

/-- A store of VALID with a pitch of 0 to the last tag-map entry. -/
theorem test_refused_tag_map : let va := lo + 0x81800 + 32 * 7
    let x := { two va 8 { frame := 1 } with sregs := [(3, 1), (4, BitVec.ofNat 64 va)] }
    let s := dueWith x (.gStD 0 3 4 0)
    isDue x (.gStD 0 3 4 0) = true ∧ s.gAccess 1 0 va true = .ok ∧ x.checked = false ∧ s.tagMapHit 1 0 va = some 7 ∧
      s.tagMapRefused 1 0 x 7 (s.tagMapWord 1 0 7 va (leBytes 8 1)) = true := by decide +kernel

theorem test_due_control : let x := prog 4
    isDue x (.gBCc 0 .eq 4 0 1) = true ∧ ccHolds .eq (x.s 4) (x.s 0) = false ∧ isDue x (.gBCc 0 .ne 4 0 0x1FFF) = true ∧
      ccHolds .ne (x.s 4) (x.s 0) = true ∧ x.branchIllegal ((x.pc : Int) + 4 * (0x1FFF : BitVec 13).toInt) = false ∧
      isDue x (.gJ 0 1) = true ∧ x.branchIllegal ((x.pc : Int) + 4 * (1 : BitVec 26).toInt) = false ∧
      isDue x (.gLoop 0 4 2) = true ∧ x.loopFits (x.pc + 4 * 2) = true ∧ isDue x (.gLoop 0 0 0xFFFF) = true := by decide +kernel

theorem test_due_break : let x := { prog 4 with loops := [{ body := 0, stop := 8, left := 1 }] }
    isDue x (.gBrk 0) = true := by decide +kernel

theorem test_loops : let l : HwLoop := { body := 0, stop := 8, left := 2 }
    1 < l.left ∧ ({ l with left := 1 } : HwLoop).left ≤ 1 ∧ (4 : Nat) ≠ l.stop := by decide

/-- G.WAIT at both ends of its condition, and the reads and writes of marks. -/
theorem test_due_marks : let x := { prog 4 with marks := [(63, BitVec.ofNat 32 (2 ^ 31 - 1))] }
    let y := { prog 4 with marks := [(63, BitVec.ofNat 32 (2 ^ 31))] }
    isDue x (.gWait 0 63 (.imm 0)) = true ∧ (x.mark 63 - waitValue x (.imm 0)).toNat < 2 ^ 31 ∧ isDue y (.gWait 0 63 (.reg 0)) = true ∧
      2 ^ 31 ≤ (y.mark 63 - waitValue y (.reg 0)).toNat ∧ isDue x (.gMset 0 0 4) = true ∧ isDue x (.gMrd 0 4 63) = true := by decide +kernel

theorem test_due_status : ([.ganger, .lath, .skimmer, .trowel, .moot] : List Engine).all (fun e => isDue (prog 4) (.gEsc 0 4 e)) = true := by decide +kernel

theorem test_due_pass_ring : let good := fun (x : Ctx) (va : Nat) =>
      va % 2048 == 0 && decide (lo ≤ va) && decide (va < lo + windowSize) &&
        (dueWith x (.gPring 0 4)).allPages 1 va 2048 (fun _ d => d.w && !d.frozen && !d.draw)
    isDue (prog (hi - 2048)) (.gPring 0 4) = true ∧ good (prog (hi - 2048)) (hi - 2048) = true ∧ isDue (prog hi) (.gPring 0 4) = true ∧
      good (prog hi) hi = false := by decide +kernel

theorem test_due_epochs : let x := { prog 4 with epochs := [{ e := 3, serial := 9 }], epochSerial := 10 }
    isDue x (.gProvOpen 0 0) = true ∧ x.openEpoch 0 = none ∧ isDue x (.gProvConfirm 0 3) = true ∧ (x.openEpoch 3).isSome = true ∧
      isDue x (.gProvCancel 0 3) = true := by decide +kernel

theorem test_epoch_release : ([.confirmed, .cancelled] : List EpochState).all (fun st =>
    let x := { prog 4 with epochs := [{ e := 3, serial := 9, state := st }] }
    ((held x 0 0).ctx? 1 0).isSome &&
      (x.epochs.reverse.find? (fun g => g.e == (3 : BitVec 2).toNat && g.state != .opened && !x.epochBusy g.serial)).isSome) = true := by decide +kernel

theorem test_due_tally : ([.gTallyB 0 4, .gTallyH 0 4, .gTallyW 0 4, .gTallyS 0 4, .gTallyR 0 4] : List Instr).all (isDue (prog (2 ^ 56 - 1))) = true ∧
    ((prog (2 ^ 56 - 1)).s 4).toNat < 2 ^ 56 := by decide +kernel

theorem test_due_timer_and_halt : ([.gTime 0 4, .gHalt 0] : List Instr).all (isDue (prog 4)) = true := by decide +kernel

theorem test_due_post : let x := { prog 4 with cmd := some 7 }
    let s := (dueWith x (.gPost 0 4)).modAllot 1 (fun y =>
      { y with cmds := [(7, { stream := 0, cookie := 0, rseq := 0, core := 0, all := false, kind := .halt, todo := [] })] })
    (s.due 0).isSome = true ∧ x.current = some 7 ∧ ((s.allot 1).cmds.find 7).isSome = true ∧ (s.stream 1 0).waiting.length < 256 := by decide +kernel

theorem test_due_swap : let x := { prog 4 with banks := [(0, { len := 16 }), (1, { len := 8 })] }
    isDue x (.gSwap 0 4) = true ∧ x.src = .bank 0 ∧ (Tbl.get {} x.banks 1 : Bank).loading = false ∧ (x.s 4).toNat < (Tbl.get {} x.banks 1 : Bank).len := by
  decide +kernel

/-- With room for the entries and without, at the last address of the page and for a zero entry. -/
theorem test_due_addresses : let x := fun (n : Nat) => { prog lo with
      fifo := List.replicate n none, sregs := [(3, 0xFFFFFFFF0000FFFF), (4, BitVec.ofNat 64 lo)] }
    ([62, 63, 64] : List Nat).all (fun n => isDue (x n) (.gAddr 0 4 3 0) && isDue (x n) (.gAddr2 0 4 3 0) &&
      (dueWith (x n) (.gAddr 0 4 3 0)).fifoEntry 1 lo 0xFFFF 0 == some (some (lo + 0xFFFF)) &&
      (dueWith (x n) (.gAddr 0 4 3 0)).fifoEntry 1 lo 0xFFFFFFFF 0 == some none) = true := by decide +kernel

theorem test_due_stops : (held (prog 4) 4 0).due 0 = some (1, prog 4, .gangerIllegalWord 0) ∧
    (held { prog 4 with pc := 16 } 4 0).due 0 = some (1, { prog 4 with pc := 16 }, .bankFetchPastImage 0) ∧
    Instr.fetchCore (.gHalt 0) = some 0 ∧ State.reset.due 0 = none := by decide +kernel

theorem test_halt_completes : let x := { prog 4 with run := .stopping .ok }
    let s := held x 0 0
    s.resident 0 = some (1, x) ∧ x.quiet = true ∧ x.src ≠ .queue ∧ s.listedOn 0 = s.coreAllots 0 ∧ x.epochs = [] ∧
      ({ x with load := some { idx := 0, q := { w := 0, regs := [], nest := [] }, hoff := 0, fp := {} } } : Ctx).quiet = false := by decide +kernel

/-- An engine word of an engine and an operation. -/
def eword (opcode op : Nat) : W128 := BitVec.ofNat 128 (opcode * 2 ^ 26 + op * 2 ^ 20)

/-- Every engine instruction due, with room in its queue and without. -/
theorem test_due_engines : ([(0x3C, 1), (0x3C, 2), (0x3C, 3), (0x3C, 4), (0x3C, 5), (0x3D, 1), (0x3D, 2), (0x3D, 3), (0x3D, 4), (0x3D, 5), (0x3D, 6),
    (0x3E, 1), (0x3E, 2), (0x3E, 3), (0x3F, 1), (0x3F, 2)] : List (Nat × Nat)).all (fun e =>
      let w := eword e.1 e.2
      let q : QOp := { w := w, regs := [], nest := [] }
      ([63, 64] : List Nat).all (fun n =>
        let l := List.replicate n q
        let x := { prog 4 with lathQ := l, skimQ := l, mootQ := l, trowelQ := l }
        (held x 16 w.toNat).due 0 == some (1, x, engineDecode 0 w))) = true := by decide +kernel

/-- A Trowel instruction in an open epoch with room for its range and without. -/
theorem test_due_epoch_ranges : ([63, 64] : List Nat).all (fun n =>
      let w := BitVec.ofNat 128 (0x3E * 2 ^ 26 + 1 * 2 ^ 20 + 4 * 2 ^ 113 + 4 * 2 ^ 118 + 4 * 2 ^ 123)
      let x := { prog lo with epochs := [{ e := 0, serial := 0, ranges := List.replicate n { issue := 0, iter := 0, rng := vaRng lo 32 } }], epochSerial := 1 }
      let q : QOp := { x.entry w with epoch := some 0 }
      (held x 16 w.toNat).due 0 == some (1, x, .tCopy 0 w) && x.topEpoch.isSome && decide (q.tIterDst.length = 1) && decide (x.provUsed = n)) = true := by
  decide +kernel

/-! ### Engines -/

/-- The operation at the head of the Lath queue, or an empty one. -/
def noOp : QOp := { w := 0, regs := [], nest := [] }

/-- An engine word with fields at their lowest bits. -/
def fields (opcode op : Nat) (fs : List (Nat × Nat)) : W128 :=
  BitVec.ofNat 128 (fs.foldl (fun n e => n + e.2 * 2 ^ e.1) (opcode * 2 ^ 26 + op * 2 ^ 20))

/-- Scalar registers at issue: s4 and s5 addresses in the page, s6 a stride of 2, s7 the number 1, s8 the length 32. -/
def regs1 : Tbl W64 := [(4, BitVec.ofNat 64 lo), (5, BitVec.ofNat 64 (lo + 0x8000)), (6, 2), (7, 1), (8, 32)]

/-- An operation with those registers. -/
def qop (w : W128) : QOp := { w := w, regs := regs1, nest := nestIdle }

/-- The tile of one BF16 weight. -/
def oneTile : Tile := { fmt := .bf16, blk := .none, kt := 1, n := 1, image := [0x80, 0x3F] }

/-- A program with an operation at the head of its Lath queue. -/
def lath (q : QOp) : Ctx := { prog lo with hawkLen := 0x100000, active := [(0, oneTile)], shadow := [(0, .tile oneTile)], lathQ := [q] }

/-- Operations of the Lath: a load of one BF16 weight with mark 63, one of zero columns, a pass of one row, the same under SWAP, an
output-stationary pass of eight products, a split into 2x2. -/
def qLoad : QOp := qop (fields 0x3C 1 [(124, 2), (110, 1), (102, 1), (19, 1), (13, 63)])
def qBad : QOp := qop (fields 0x3C 2 [(124, 2), (110, 1), (19, 1), (13, 63)])
def qPass : QOp := qop (fields 0x3C 3 [(99, 2), (114, 1), (91, 4), (81, 6), (76, 7)])
def qSwap : QOp := qop (fields 0x3C 3 [(127, 1), (99, 2), (114, 1), (91, 4), (81, 6), (76, 7)])
def qOs : QOp := qop (fields 0x3C 4 [(85, 2), (78, 2), (108, 8), (100, 1), (67, 4), (57, 6), (52, 7)])
def qSplit : QOp := qop (fields 0x3C 5 [(126, 1)])

/-- With its head checked. -/
def ready (x : Ctx) : Ctx := { x with lathHead := some { table := [] } }

theorem test_lath_head : ([qLoad, qPass, qSwap, qOs, qSplit] : List QOp).all (fun q =>
      let s := held (lath q) 0 0
      s.onCore 0 == some (1, lath q) && (lath q).lathHead == none && !s.lathSpilled 1 0 (lath q) q && decide ((lath q).lathStarted < 192) &&
        !(lath q).mustWait q { reads := (lath q).headReads q } &&
        s.lathRefusal 1 0 (lath q) q (s.splitTable 1 0 (lath q) q) == none) = true ∧
    (let s := held (lath qBad) 0 0
     s.onCore 0 = some (1, lath qBad) ∧ s.lathSpilled 1 0 (lath qBad) qBad = false ∧
       (lath qBad).lathStarted < 192 ∧ (lath qBad).mustWait qBad { reads := (lath qBad).headReads qBad } = false ∧
       s.lathRefusal 1 0 (lath qBad) qBad (s.splitTable 1 0 (lath qBad) qBad) = some .shapeMismatch ∧ qBad.op = 2 ∧ qBad.mark = some 63 ∧
       qBad.loadSub < (lath qBad).q * (lath qBad).q) := by decide +kernel

theorem test_load_starts : let x := ready (lath qLoad)
    let s := held x 0 0
    s.lathReady 0 = some (1, x, qLoad, []) ∧ qLoad.op = 1 ∧ qLoad.loadTile.isSome = true ∧ (natOf qLoad.loadOff).isSome = true ∧ x.load = none ∧
      x.ringUse = false ∧ x.lathStarted < 192 ∧ x.mustWait qLoad { reads := qLoad.loadRng } = false ∧
      x.boardRoom (s.windowOf 1 0) { reads := qLoad.loadRng } = true := by decide +kernel

theorem test_load_runs : let x := { prog lo with load := some { idx := 0, q := qLoad, hoff := 0, fp := {} } }
    (held x 0 0).resident 0 = some (1, x) ∧ x.load.isSome = true ∧ qLoad.mark = some 63 := by decide +kernel

/-- With and without SWAP. -/
theorem test_pass_starts : ([(qPass, false), (qSwap, true)] : List (QOp × Bool)).all (fun e =>
    let x := ready (lath e.1)
    let s := held x 0 0
    s.lathReady 0 == some (1, x, e.1, []) && e.1.op == 3 && (match x.passShape e.1 [] with
      | .ok p => p.swap == e.2 && x.load == none && x.startedPasses.isEmpty && !x.ringUse && !x.mustWait e.1 (p.footprint x e.1) &&
        decide (x.lathStarted < 192) && x.boardRoom (s.windowOf 1 0) (p.footprint x e.1) &&
        !x.hazard (s.windowOf 1 0) .lath (p.footprint x e.1) && s.goneIn 1 (p.ents.flatMap (fun e => e.readRngs p.afmt p.ablk)) == none
      | .error _ => false)) = true := by decide +kernel

/-- A pass of the Tub element 5 that waits for its commit, and an output-stationary one that waits for a chunk. -/
def wetPass (q : QOp) (o : Option OsWork) : PassRun :=
  { idx := 0, pidx := 0, q := q, wet := [(5, { v := 1 })], passo := o.isSome, os := o }

theorem test_pass_commits : let p := wetPass qPass none
    let x := { prog lo with passes := [p] }
    let o := wetPass qOs (some { chunksLeft := 1, taken := [], acts := [], ctags := [] })
    (held x 0 0).resident 0 = some (1, x) ∧ p.final = some p ∧ p.status = none ∧ p.poisoned = false ∧ o.final = none ∧ p.wet.keys.Nodup ∧
      (p.wet.find 5).isSome = true ∧ p.wet.find 4 = none := by decide +kernel

theorem test_os_starts : let x := ready (lath qOs)
    let s := held x 0 0
    s.lathReady 0 = some (1, x, qOs, []) ∧ qOs.op = 4 ∧ x.startedPasses = [] ∧ x.load = none ∧ (match qOs.passoShape with
      | .ok p => !x.mustWait qOs p.footprint && s.goneIn 1 p.footprint.reads == none && x.boardRoom (s.windowOf 1 0) p.footprint && !x.hazard (s.windowOf 1 0) .lath p.footprint
      | .error _ => false) = true := by decide +kernel

/-- One byte short of a chunk, exactly one chunk, and none left to take. -/
theorem test_os_chunks : let size := chunkBytes qOs.osShape.2.1 qOs.osShape.2.2.1 qOs.osShape.2.2.2.2.2.1
    let p := wetPass qOs (some { chunksLeft := 1, taken := [], acts := [], ctags := [] })
    let x := fun (n : Nat) => { prog lo with hawkLen := 0x100000, passes := [p], rings := [(0, { fill := n, drain := 0 })] }
    (held (x size) 0 0).resident 0 = some (1, x size) ∧ (held (x size) 0 0).isGreen 1 = false ∧ p.q.osRings = [0] ∧ size ≠ 0 ∧
      size ≤ ((x size).ring 0).fill - ((x size).ring 0).drain ∧ ((x (size - 1)).ring 0).fill - ((x (size - 1)).ring 0).drain < size := by
  decide +kernel

theorem test_split_applies : let x := ready (lath qSplit)
    let y := { x with passes := [wetPass qPass none] }
    (held x 0 0).lathReady 0 = some (1, x, qSplit, []) ∧ qSplit.op = 5 ∧ x.startedPasses = [] ∧ x.load = none ∧ qSplit.mark = none ∧
      (held y 0 0).lathReady 0 = some (1, y, qSplit, []) ∧ y.startedPasses ≠ [] := by decide +kernel

/-- S.CVT of one binary32 element of tile 0 into tile 4. -/
def qCvt : QOp := qop (fields 0x3D 1 [(125, 1), (121, 4), (74, 1), (70, 4), (65, 4)])

theorem test_skimmer_starts : let x := { prog lo with skimQ := [qCvt] }
    let s := held x 0 0
    s.onCore 0 = some (1, x) ∧ s.isGreen 1 = false ∧ (match s.skPlan 1 qCvt, s.skCheck 1 0 x qCvt with
      | some p, .ok p' => p == p' && (loftRuns (p.footprint.reads ++ p.footprint.writes)).all (fun r => !s.spilledIn 1 r.1 (r.2 - r.1)) &&
        decide ((x.skims.filter (fun r => r.status == none)).length < 64) && !x.mustWait qCvt p.footprint && x.boardRoom (s.windowOf 1 0) p.footprint && !x.hazard (s.windowOf 1 0) .skimmer p.footprint
      | _, _ => false) = true := by decide +kernel

theorem test_skimmer_completes : let r : SkimRun := { idx := 0, q := qCvt }
    let x := { prog lo with skims := [r] }
    (held x 0 0).resident 0 = some (1, x) ∧ r.status = none ∧ (held x 0 0).skPoison 1 r.fp = none ∧ ((held x 0 0).skPlan 1 r.q).isSome = true := by
  decide +kernel

/-- T.COPY of 32 bytes within the page, T.GATHER and T.SCATTER of one row, and a copy to an unmapped page. -/
def qCopy : QOp := qop (fields 0x3E 1 [(123, 4), (118, 5), (113, 8)])
def qGather : QOp := qop (fields 0x3E 2 [(118, 5), (113, 7), (8, 1)])
def qScatter : QOp := qop (fields 0x3E 3 [(123, 4), (113, 7), (8, 1)])
def qDenied : QOp := qop (fields 0x3E 1 [(123, 4), (113, 8)])

theorem test_trowel_starts : ([(qCopy, true), (qGather, true), (qScatter, true), (qDenied, false)] : List (QOp × Bool)).all (fun e =>
    let x := { prog lo with trowelQ := [e.1] }
    let s := held x 0 0
    s.onCore 0 == some (1, x) && !s.trowelSpilled 1 e.1 && x.trowels.isEmpty && e.1.epoch == none && !e.1.tFabric &&
      (if e.2 then s.trowelCheck 1 0 x e.1 == .ok && !s.trowelWaits 1 0 x e.1 e.1.trowelFp && !x.hazard (s.windowOf 1 0) .trowel e.1.trowelFp
      else s.trowelCheck 1 0 x e.1 != .ok)) = true := by decide +kernel

/-- A copy to house 7, with a neighbour of that number on link 0 that is UP, and without one. -/
theorem test_fabric_starts : let va := 0x500000000000 + 7 * 2 ^ 35
    let q : QOp := { qop (fields 0x3E 1 [(123, 4), (118, 9), (113, 8)]) with regs := (9, BitVec.ofNat 64 va) :: regs1 }
    let x := { prog lo with trowelQ := [q] }
    let s := held x 0 0
    let near := ((((s.setReg 0x1100 2 3).setReg 0x2110 2 3).setReg 0x2110 3 7).setReg 0x2110 5 9)
    let t : State := { near with
      links := [(0, { nbr := some { digest := 9, house := 7, mode := 0, link := 5, epoch := 1 } })]
      topo := [{ digest := 9, house := 7, epoch := 1, links := [{ link := 5, neighbour := 3, neighbourLink := 0 }], assign := [] }] }
    ([s, t] : List State).all (fun u => u.onCore 0 == some (1, x) && !u.trowelSpilled 1 q && u.trowelCheck 1 0 x q == .ok &&
      !u.trowelWaits 1 0 x q q.trowelFp && !x.hazard (u.windowOf 1 0) .trowel q.trowelFp && q.tFabric && q.tMode == 0 && !u.isGreen 1 &&
      !(u.readP 1 lo q.tLen).any Prod.snd && u.fabricHouse q == some 7 && u.freeTag == some 0) = true ∧
      s.reachable 7 = false ∧ t.reachable 7 = true := by decide +kernel

/-- Without an entry, with a zero entry of a scatter, and with the last row of the page for a gather. -/
theorem test_rows_move : let g : TrowelRun := { idx := 0, q := qGather }
    let t : TrowelRun := { idx := 0, q := qScatter }
    let x := { prog lo with trowels := [g], fifo := [some (hi - 32)] }
    let s := held x 0 0
    let dst := (natOf qGather.tDst).getD (2 ^ 48)
    let y := { prog lo with trowels := [t], fifo := [none] }
    let z := { prog lo with trowels := [g] }
    s.oldestTrowel 1 0 = some (x, g, []) ∧ g.refused = none ∧ qGather.op = 2 ∧ g.rowsDone < qGather.tLen ∧ qGather.tDkind = 0 ∧ qGather.tMode = 0 ∧
      qGather.epoch = none ∧ qGather.f 127 123 = 0 ∧ s.isGreen 1 = false ∧ s.rowCheck 1 0 x g { src := some (hi - 32), dst := dst } = .ok ∧
      s.rowWaits 1 0 x g { src := some (hi - 32), dst := dst } = false ∧ qGather.tRowLen = 32 ∧
      (held y 0 0).oldestTrowel 1 0 = some (y, t, []) ∧ qScatter.op = 3 ∧ t.rowsDone < qScatter.tLen ∧
      (held z 0 0).oldestTrowel 1 0 = some (z, g, []) ∧ z.fifo = [] := by decide +kernel

theorem test_copy_completes : let t : TrowelRun := { idx := 0, q := qCopy }
    let x := { prog lo with trowels := [t] }
    (held x 0 0).oldestTrowel 1 0 = some (x, t, []) ∧ t.refused = none ∧ qCopy.op = 1 ∧ qCopy.tDkind = 0 ∧ qCopy.tFabric = false ∧ qCopy.tMode = 0 ∧
      qCopy.tExpand = false ∧ qCopy.overlaps = false ∧ qCopy.epoch = none ∧ qCopy.tRmk = false ∧ qCopy.mark = none := by decide +kernel

/-- A range that crosses a page boundary, with both pages mapped. -/
theorem test_pages_checked : let x := two lo 1 { frame := 1 }
    (held x 0 0).transferCheck 1 [⟨hi - 8, 16⟩] [⟨hi - 64, 16⟩] false = .ok ∧ (held (prog lo) 0 0).transferCheck 1 [⟨hi - 8, 16⟩] [] false ≠ .ok := by
  decide +kernel

/-! ### The Moot and the fabric -/

/-- Objects set one after the other. -/
def withRegs (s : State) (l : List (Nat × Nat × Nat)) : State := l.foldl (fun t e => t.setReg e.1 e.2.1 e.2.2) s

/-- Group slot g: owned by allotment 1, with two ranks, this device's rank r, state st, landing mark 5, eight slots. -/
def groupRegs (g r st : Nat) : List (Nat × Nat × Nat) :=
  [(0x4000 + g, 1, 1), (0x4000 + g, 2, 2), (0x4000 + g, 3, r), (0x4000 + g, 5, 0), (0x4000 + g, 6, 5), (0x4000 + g, 7, 0x1000000),
   (0x4000 + g, 8, 8), (0x4000 + g, 9, 0x800000), (0x4000 + g, 0x0A, st), (0x2100, 3, 4), (0x4040 + 4 * g, 1, 0x010004), (0x4040 + 4 * g, 2, 0x010007)]

/-- M.CONTRIB of 32 bytes to bucket 2, one that abstains, M.PUBLISH of bucket 2 and of bucket 1. -/
def qContrib : QOp := qop (fields 0x3F 1 [(124, 11), (119, 4), (114, 8), (109, 6), (104, 7)])
def qAbstain : QOp := qop (fields 0x3F 1 [(124, 11), (114, 8), (109, 6), (104, 7)])
def qPublish : QOp := qop (fields 0x3F 2 [(124, 11), (119, 4), (114, 8), (109, 6), (104, 7)])
def qOther : QOp := qop (fields 0x3F 2 [(124, 11), (119, 4), (114, 8), (109, 7), (104, 7)])

def mootAt (q : QOp) : State := withRegs (held { prog lo with mootQ := [q] } 0 0) (groupRegs 11 0 1)

theorem test_moot_head : ([qContrib, qAbstain, qPublish, qOther] : List QOp).all (fun q =>
    let x := { prog lo with mootQ := [q] }
    let s := mootAt q
    s.onCore 0 == some (1, x) && !s.spilledIn 1 ((natOf q.mAddr).getD 0) q.mLen && s.mootCheck 1 0 q == .ok && !x.mustWait q (s.mootFp q) && decide (s.mootStarted 0 < 64) &&
      x.boardRoom (s.windowOf 1 0) (s.mootFp q) && !x.hazard (s.windowOf 1 0) .moot (s.mootFp q)) = true ∧
    qContrib.isContrib = true ∧ qContrib.mAbstains = false ∧ qAbstain.isContrib = true ∧ qAbstain.mAbstains = true ∧ qPublish.isPublish = true ∧
    (mootAt qPublish).mOwns qPublish = true ∧ qOther.isPublish = true ∧ (mootAt qOther).mOwns qOther = false := by decide +kernel

/-- A bucket open at the reservation's limit, and one byte group beyond it. -/
theorem test_moot_budget : let s := fun (n : Nat) => { mootAt qContrib with buckets := [(bucketKey 11 3, { step := 1, bucket := 3, len := n, allot := 1, core := 0 })] }
    let sum := fun (n : Nat) => (((s n).openBuckets 11).map (fun e => 2 * e.2.len)).foldl (· + ·) 0 + 2 * qContrib.mLen
    (s 1).bucketAt 11 2 = none ∧ sum 134217696 ≤ 268435456 ∧ ¬sum 134217700 ≤ 268435456 := by decide +kernel

theorem test_publish_starts : let k : Bucket := { step := 1, bucket := 2, len := 32, allot := 1, core := 0, landed := true }
    let s := { mootAt qPublish with buckets := [(bucketKey 11 2, k)] }
    s.bucketAt 11 2 = some k ∧ k.step = qPublish.mStep ∧ (s.readP 1 ((natOf qPublish.mAddr).getD 0) qPublish.mLen).any Prod.snd = false ∧
      ({ k with landed := false } : Bucket).landed = false := by decide +kernel

theorem test_contrib_read : let r : MootRun := { idx := 0, q := qContrib, phase := .reading 11 2 }
    let x := { prog lo with moots := [r] }
    let s := withRegs (held x 0 0) (groupRegs 11 0 2)
    s.wardHeld 0 = false ∧ s.ctx? 1 0 = some x ∧ firstReading x.moots 0 = some (0, r, 11, 2) ∧
      (s.readP 1 ((natOf qContrib.mAddr).getD 0) qContrib.mLen).any Prod.snd = false := by decide +kernel

theorem test_children : let p : MPart := { roll := 1, samples := 2 ^ 64 - 1, data := [0x3F800000] }
    let q : MPart := { roll := 2, samples := 1, data := [0x3F800000] }
    p.roll ≠ 0 ∧ q.roll ≠ 0 ∧ (combine p q).1.data = [0x40000000] ∧ (combine p q).1.samples = 0 ∧ (({} : MPart).roll = 0) := by decide +kernel

/-- A node's deadline at its expiry and one nanosecond before. -/
theorem test_deadline : let k : Bucket := { step := 1, bucket := 2, len := 32, allot := 1, core := 0, deadline := some 100 }
    let s := fun (t : Nat) => ({ buckets := [(bucketKey 11 2, k)], timer := t } : State)
    (s 100).bucketAt 11 2 = some k ∧ (s 100).expiryOf 11 100 ≤ 100 ∧ (s 99).timer < (s 99).expiryOf 11 100 := by decide +kernel

theorem test_landing : let p : MPart := { roll := 3, data := [0x3F800000] }
    let k : Bucket := { step := 1, bucket := 2, len := 4, allot := 1, core := 0, reduced := some p }
    let s := withRegs { held (prog lo) 0 0 with buckets := [(bucketKey 11 2, k)] } (groupRegs 11 0 2)
    s.bucketAt 11 2 = some k ∧ s.landingSlots.find (s.landSlot 11 2) = none ∧
      (Tbl.find [(s.landSlot 11 10, 0)] (s.landSlot 11 2)).isSome = true ∧ s.coreAt (s.mOwner 11) (s.mReg 11 5) = some 0 := by decide +kernel

/-- A link that is UP, with the next header it takes. -/
def linkUp : List (Nat × Nat × Nat) := [(0x2110, 2, 3)]
def hdrIn (vc dest : Nat) : FlitHdr := { seq := 0, ack := 4095, cvc := 2, ccnt := 15, dest := dest, src := 7, vc := vc, household := 9 }

theorem test_moot_arrivals : let s := withRegs (held (prog lo) 0 0) (groupRegs 11 0 2 ++ linkUp ++ [(0x3101, 0x0F, 9)])
    let free := withRegs ({} : State) ((0x2100, 3, 4) :: linkUp)
    let m : MStream := { step := 1, bucket := 2, roll := 2, samples := 0, faulty := 0, length := 4 }
    let k : Bucket := { step := 1, bucket := 2, len := 4, allot := 1, core := 0 }
    let ctx : MootCtx := { pub := false, level := 1, bslot := 2 }
    let s2 : State := { s with groups := [(11, { streams := [(streamKey ctx, m)] })], buckets := [(bucketKey 11 2, k)] }
    (s.linkTake 0 (hdrIn 15 4) 6).isSome = true ∧ s.house = 4 ∧ s.mOwner 11 = 1 ∧ s.householdAllot 9 = some 1 ∧ s.mState 11 = 2 ∧ s.bucketAt 11 2 = none ∧
      (free.linkTake 0 (hdrIn 15 4) 6).isSome = true ∧ free.house = 4 ∧ free.mOwner 11 = 0 ∧ free.householdAllot 9 = none ∧
      (s2.linkTake 0 (hdrIn 15 4) 6).isSome = true ∧ (s2.group 11).streams.find (streamKey ctx) = some m ∧ 4 * 0 = m.bytes.length ∧
      s2.bucketAt 11 ctx.bslot = some k := by decide +kernel

theorem test_group_lost : let s := withRegs ({} : State) (groupRegs 11 0 2)
    s.mState 11 = 2 ∧ 1 < s.mRanks 11 ∧ 1 ≠ s.mRank 11 ∧ s.memberHouse 11 1 = 7 ∧ s.reachable 7 = false := by decide +kernel

/-- Flits that a link takes on every channel it carries, one with another number, and one for another house. -/
theorem test_flits_taken : let s := withRegs (held (prog lo) 0 0) ([(0x2100, 3, 4), (0x3101, 0x0F, 9), (0x2190, 1, lo)] ++ linkUp)
    ([0, 1, 2, 3, 4, 5, 6, 7] : List Nat).all (fun kind => (s.linkTake 0 (hdrIn 2 4) kind).isSome) = true ∧
      s.linkTake 0 { hdrIn 2 4 with seq := 1 } 4 = none ∧ s.house = 4 ∧ (hdrIn 2 5).dest ≠ s.house ∧ (s.receiveWindow 9).isSome = true := by
  decide +kernel

/-- A tag at the millisecond of its close, and one nanosecond before. -/
theorem test_tags : let y : Xfer := { allot := 1, core := 0, house := 7, gen := false, phase := .closed 5 }
    ({ xfers := [(1023, y)], timer := 1000005 } : State).xfers.find 1023 = some y ∧ 5 + 1000000 ≤ 1000005 ∧ ¬5 + 1000000 ≤ 1000004 := by decide +kernel

/-- Links in every state that a command starts from. -/
theorem test_link_states : let s := fun (st : Nat) => withRegs ({ timer := 1000000000 } : State) [(0x1300, 2, 7), (0x214F, 2, st)]
    (s 0).linksReleased = true ∧ (s 0).linkState 63 = 0 ∧ (s 0).linkEnabled 63 = true ∧ (s 1).linkState 63 = 1 ∧
      ((s 1).link 63).since + 50000000 ≤ (s 1).timer ∧ (s 5).linkState 63 = 5 ∧ ((s 5).link 63).since + 1000000000 ≤ (s 5).timer ∧
      (s 2).linkState 63 = 2 ∧ (s 4).linkState 63 = 4 ∧ ((s 2).link 63).heard + 30000 ≤ (s 2).timer ∧ (s 2).carries 63 0 = true ∧
      ((s 3).link 63).helloAt + 10000 ≤ (s 3).timer := by decide +kernel

def helloOf (house : Nat) : Hello := { digest := 9, house := house, mode := 0, link := 5, epoch := 1 }

/-- A neighbour that nothing stands against, and one of another house mode. -/
theorem test_hello : let s := withRegs ({ timer := 1 } : State) [(0x2110, 2, 2)]
    let judged := fun (h : Hello) (u : State) =>
      (((u.modLink 0 (fun k => { k with nbr := some h, heard := u.timer })).setReg 0x2110 0x03 h.house).setReg 0x2110 0x04 h.link).setReg 0x2110 0x05
        h.digest
    (s.linkTake 0 (hdrIn 0 511) 1).isSome = true ∧
      ([(helloOf 0xFFFF, true), ({ helloOf 0xFFFF with mode := 1 }, false)] : List (Hello × Bool)).all (fun e =>
        match s.linkTake 0 (hdrIn 0 511) 1 with
        | none => false
        | some t => decide (((judged e.1 (t.owe 0 0)).holdReason 0 e.1 = 0) ↔ e.2 = true) && (judged e.1 (t.owe 0 0)).linkState 0 == 2) = true := by
  decide +kernel

/-- Entries of another device, new, and as old as the one held. -/
theorem test_topology : let e : TopoEntry := { digest := 1, house := 0xFFFF, epoch := 3, links := [], assign := [] }
    let s := withRegs ({ topo := [e] } : State) linkUp
    (s.linkTake 0 (hdrIn 0 511) 2).isSome = true ∧ s.topo.find? (fun z => z.digest == 1) = some e ∧
      s.topo.find? (fun z => z.digest == 2) = none := by decide +kernel

theorem test_resend : let f : Flit := { kind := 4, vc := 2, dest := 7, src := 4, household := 9 }
    let w : WaitFlit := { since := 0, flit := f }
    let s := withRegs ({ links := [(0, { replay := [{ seq := 0, flit := f }] })], flitWait := [w], timer := 2000 } : State) linkUp
    (s.link 0).replay ≠ [] ∧ (s.link 0).ackAt + 82 ≤ s.timer ∧ ¬(s.link 0).ackAt + 82 ≤ 81 ∧ (w.flit.vc = 2 ∨ w.flit.vc = 3) ∧ s.carries 0 0 = true ∧ s.flitWait[0]? = some w ∧ w.since + 2000 ≤ s.timer ∧ s.flitLink w = none := by decide +kernel

/-! ### Commands, the Carter, the Green and shared cores -/

/-- A stream whose ring lies at the start of the Loft window, with one record rung. -/
def ringDesc : StreamDesc := { cqRaddr := 0, cqRkey := 0, cqQp := 0, cqLog2 := 4, ringVa := lo, ringLog2 := 4, carter := false }
def rung (x : Ctx) (w : Nat) : State :=
  (held x 64 w).modAllot 1 (fun y => { y with streams := [(0, { desc := some ringDesc, doorbell := 1 })] })

/-- Records of SEQ 0 and 1: no command at all, HALT for a core that the allotment has not, HALT for its core. -/
theorem test_records : let w := fun (r : Nat) => (rung (prog lo) r).recordAt 1 ringDesc ((rung (prog lo) r).stream 1 0).consumed
    ((rung (prog lo) 0).stream 1 0).left = 1 ∧ ((rung (prog lo) 0).stream 1 0).waiting.length < 256 ∧ ((rung (prog lo) 0).stream 1 0).head = none ∧
      ([0, 4, 3 + 2 ^ 20, 4 + 2 ^ 20] : List Nat).all (fun r => (rung (prog lo) r).streamDue == some (crierKey 1 0)) = true ∧
      ([0, 4 + 2 ^ 20] : List Nat).all (fun r => fld (w r) 63 48 == 0 && !((rung (prog lo) r).parseCommand 1 (w r)).2.isEmpty) = true ∧
      (rung (prog lo) 4).parseCommand 1 (w 4) = (.halt, []) ∧ (rung (prog lo) 4).namedCores 1 (w 4) = [0] ∧
      (rung (prog lo) 4).greenStream 1 0 = false ∧ fld (w (2 ^ 48)) 63 48 ≠ 0 ∧ (rung (prog lo) (2 ^ 48)).streamDue = none := by decide +kernel

/-- A command at the head of a stream for core 0. -/
def commanded (x : Ctx) (k : CmdKind) : State :=
  (held x 16 0).modAllot 1 (fun y =>
    { y with
      streams := [(0, { desc := some ringDesc, doorbell := 1, consumed := 1, head := some (.command 7) })]
      cmds := [(7, { stream := 0, cookie := 0, rseq := 0, core := 0, all := false, kind := k, todo := [0] })] })

/-- A halted program with an image of 16 bytes in bank 0. -/
def idle : Ctx := { prog lo with run := .halted }

theorem test_commands : ([(prog lo, .bankLoad 0 4 0), (idle, .bankLoad 0x1000 4 1), (idle, .start 0 16 1 2), (idle, .start 0 12 1 2), (idle, .stream [0, 0, 0, 0]),
    (idle, .halt), (prog lo, .halt)] : List (Ctx × CmdKind)).all (fun e =>
      (match (commanded e.1 e.2).cmdFor 1 0 0 with
        | some (id, k, x) => id == 7 && k.kind == e.2 && x == e.1
        | none => false)) = true ∧
    (prog lo).run ≠ .halted ∧ (prog lo).runsBank 0 = true ∧ idle.runsBank 1 = false ∧ badImage 4 = false ∧ badImage 5 = true ∧
      (Tbl.get {} idle.banks 1 : Bank).loading = false ∧
      ({ commanded idle (.bankLoad 0x1000 4 1) with hbmPages := [(hbmKey 1 0x1000, {})] } : State).readableHbm 1 0x1000 4 = true ∧
      (Tbl.get {} idle.banks 0 : Bank).len ≤ 16 ∧ 12 < (Tbl.get {} idle.banks 0 : Bank).len := by decide +kernel

theorem test_bank_fills : let x := { idle with banks := [(1, { loading := true })] }
    let s := (held x 0 0).modAllot 1 (fun y =>
      { y with cmds := [(7, { stream := 0, cookie := 0, rseq := 0, core := 0, all := false, kind := .bankLoad 0x1000 4 1, todo := [], live := [0] })] })
    s.ctx? 1 0 = some x ∧ s.bankFill 1 0 1 = some (7, 0x1000, 4) ∧ (Tbl.get {} x.banks 1 : Bank).loading = true ∧ s.wardHeld 0 = false ∧
      s.spilledIn 1 (s.windowOf 1 0 + 0x40000) 4 = false := by decide +kernel

/-- A Carter job over queue pair 3, one block that fetches and one that stores. -/
def jobOf (store : Bool) : JobRec :=
  { cookie := 0, raddr := 0, rkey := 0, qp := 3, lva := 0x200000, mva := 0x1000, len := 65536, seqb := 0, seqf := false, store := store }
def carting (store : Bool) : State :=
  { held (prog lo) 64 (3 * 2 ^ 336 + 2 ^ 200) with
    hbmPages := [(hbmKey 1 0x1000, { frame := 0 }), (hbmKey 1 0x200000, { frame := 1 })], qps := [(3, { allot := 1, port := 0, isProtected := false, rkey := 0 })]
    jobs := [(0, { allot := 1, stream := 0, rec' := jobOf store })] }

theorem test_carter : let d := { ringDesc with carter := true }
    let s := (carting false).modAllot 1 (fun y => { y with streams := [(0, { desc := some d, doorbell := 1 })] })
    let r := parseJob (s.recordAt 1 d (s.stream 1 0).consumed)
    (s.stream 1 0).left ≠ 0 ∧ s.jobStatus 1 r.1 r.2 = .ok ∧ ({ s with qps := [] } : State).jobStatus 1 r.1 r.2 ≠ .ok ∧
      ([false, true] : List Bool).all (fun b => (carting b).qpLive 1 3 && (carting b).blockCheck 1 (jobOf b) 0 == .ok &&
        !(carting b).poisonedVa 1 0x1000 4) = true ∧
      ([false, true] : List Bool).all (fun b =>
        match (carting b).fillCarters.jobs.find 0 with
        | some j => j.stop.isNone && decide (0 < j.flight) && ((carting b).fillCarters.translateBlock j).blockCheck 1 j.rec' j.blocks == .ok &&
          ((carting b).fillCarters.translateBlock j).qpLive 1 j.rec'.qp
        | none => false) = true ∧
      (carting true).poisonedVa 1 0x200000 65536 = false ∧ (jobOf false).blockLen 0 = 65536 ∧ (jobOf false).blocks ≤ 1 ∧
      ¬({ jobOf false with len := 65537 } : JobRec).blocks ≤ 1 := by decide +kernel

/-- A request of one row of 32 bytes from allotment 1, and the Green, allotment 2, with its rings mapped and n slots. -/
def request (va : Nat) : GreenReq :=
  { cookie := 0, inVa := va, outVa := va + 64, adapt := 0xFFFFFFFF, sequence := 0, inRows := 1, outRows := 1, rowLen := 32, rseq := 0, stream := 3 }
def greenState (n va : Nat) : State :=
  withRegs ({ held (prog lo) 0 0 with
    hbmPages := [(hbmKey 1 0x200000, {}), (hbmKey 2 admitRing, { frame := 1 }), (hbmKey 2 retireRing, { frame := 2 })]
    allots := [(1, { streams := [(3, { head := some (.green (request va)) })] })] })
    [(0x3000, 1, 2), (0x3000, 2, n), (0x3000, 3, 1), (0x3000, 4, 32), (0x3101, 0x0A, 3)]

theorem test_green : let chk := fun (va : Nat) => (greenState 1 va).transferCheck 1 [⟨va, 32⟩] [⟨va + 64, 32⟩] false
    ((greenState 1 0x200000).stream 1 3).head = some (.green (request 0x200000)) ∧ (request 0x200000).refused = none ∧
      (greenState 1 0x200000).bindable (request 0x200000) = true ∧ (greenState 1 0x200000).slotTooSmall 1 1 32 = false ∧
      (greenState 1 0x200000).slotTooSmall 2 1 32 = true ∧ (greenState 0 0x200000).slotTooSmall 1 1 32 = false ∧
      (greenState 1 0x200000).reg 0x3000 3 ≠ 0 ∧ chk 0x200000 = .ok ∧ chk 0x400000 ≠ .ok ∧ chk (0x400000 - 32) ≠ .ok ∧
      (greenState 1 0x200000).admitRoom = true ∧ lowestFree (greenState 1 0x200000).greenSlots.keys 0 < (greenState 1 0x200000).reg 0x3000 2 ∧
      (greenState 0 0x200000).reg 0x3000 2 ≤ lowestFree (greenState 0 0x200000).greenSlots.keys 0 := by decide +kernel

theorem test_retires : let s := greenState 1 0x200000
    let t := s.writeVa 2 retireRing [1]
    s.greenAllot ≠ 0 ∧ (s.pageOf 2 retireRing).isSome = true ∧ s.greenWord retireRing = s.greenWord (retireRing + 8) ∧
      t.greenWord retireRing ≠ t.greenWord (retireRing + 8) := by decide +kernel

/-- A store of an entry of two rows, with and without a pass that reads them. -/
theorem test_tag_map_store : let w := 1 + 32 * 2 ^ 49 + 2 * 2 ^ 65
    let x := { prog lo with tagStore := some w }
    let spans := [tagMapEnt w].map TagMapEnt.span
    let rd : PassRun := { wetPass qPass none with fp := { reads := [{ space := .va, base := (tagMapEnt w).base, len := 1 }] } }
    let y := { x with passes := [rd] }
    (held x 0 0).onCore 0 = some (1, x) ∧ bitAt (w % 2 ^ 256) 0 = true ∧ (spans.all (fun r => !(held x 0 0).readersOf 1 r.1 r.2)) = true ∧
      (held y 0 0).onCore 0 = some (1, y) := by decide +kernel

/-- Core 0 shared by allotments 1 and 2, allotment 1 in its turn; at the end of the turn and one nanosecond before. -/
def shared (phase : SwitchPhase) (t : Nat) (two' : Bool) : State :=
  { withRegs ({} : State) [(0x3101, 1, 1), (0x3102, 1, 1)] with
    timer := t
    cores := [(0, { resident := some 1, phase := phase })]
    ctxs := [(ctxKey 1 0, prog lo)] ++ (if two' then [(ctxKey 2 0, prog lo)] else [])
    allots := [(1, { shared := [0] }), (2, { shared := [0] })] }

theorem test_turns : let s := shared .idle 1000000 true
    s.sharedCore 0 = true ∧ (s.core 0).phase = .idle ∧ (s.core 0).resident = some 1 ∧ s.hasWork 1 0 = true ∧
      (s.core 0).turnStart + s.reg 0x3101 4 * 1000 ≤ s.timer ∧ ¬(s.core 0).turnStart + s.reg 0x3101 4 * 1000 ≤ (shared .idle 999999 true).timer ∧
      s.budgetHeld 1 = false ∧ s.nextTurn 0 (some 1) = some 2 ∧ (shared .idle 1000000 false).nextTurn 0 (some 1) = none ∧
      (s.setAllot 1 { s.allot 1 with held := true }).budgetHeld 1 = true := by decide +kernel

theorem test_switches : let s := shared (.leaving (some 2) .turnEnded) 5 true
    let t := shared (.restoring 2) 5 true
    (s.core 0).phase = .leaving (some 2) .turnEnded ∧ s.resident 0 = some (1, prog lo) ∧ (prog lo).passes = [] ∧ (prog lo).skims = [] ∧
      (prog lo).load.any LoadRun.behind = false ∧ (prog lo).run ≠ .stopping .watchdog ∧
      (t.core 0).phase = .restoring 2 ∧ t.ctx? 2 0 = some (prog lo) ∧ t.wardHeld 0 = false ∧ (prog lo).savePoison = false := by decide +kernel

theorem test_meters : let s := withRegs ({ shared .idle 60000000000 true with allots := [(1, { residency := 3000 })] } : State) [(0x3101, 5, 3)]
    s.reg 0x3101 5 ≠ 0 ∧ s.reg 0x3101 5 * 1000 ≤ (s.allot 1).residency ∧ s.budgetHeld 1 = false ∧ s.timer % 60000000000 = 0 ∧ s.metered 1 0 = true ∧
      Tbl.get 0 (s.allot 1).coreTicks 0 < s.timer / 1000 ∧ (s.allot 1).hbmTick < s.timer / 1000000 ∧ s.reg 0x3101 1 ≠ 0 := by decide +kernel

/-- A watchdog at its period and one nanosecond before. -/
theorem test_watchdog : let s := fun (t : Nat) => ({ held (prog lo) 0 0 with timer := t, allots := [(1, { wdSince := some 5 })] } : State)
    ((s 0).allot 1).wdSince = some 5 ∧ (s 0).reg 0x3101 0x0B ≠ 0 ∧ 5 + (s 0).reg 0x3101 0x0B * 1000 ≤ (s 1000000005).timer ∧
      ¬5 + (s 0).reg 0x3101 0x0B * 1000 ≤ (s 1000000004).timer ∧ (s 0).allotCores 1 = [0] := by decide +kernel

theorem test_pass_faults : let p : PassRun := { wetPass qPass none with fp := { reads := [{ space := .va, base := lo, len := 1 }] } }
    let x := { prog lo with passes := [p] }
    let s := held x 0 0
    s.ctx? 1 0 = some x ∧ (s.paOf 1 lo).isSome = true ∧ x.passes.find? (fun q => q.status.isNone && q.fp.readsVa lo 1) = some p ∧
      x.passes.find? (fun q => q.status.isNone && q.fp.readsVa (lo + 1) 1) = none := by decide +kernel

/-- A device that is up, with an operator's session. -/
def oper : Session := { path := .management, authed := true, keyDigest := 5, maker := false, oper := true }
def dev (l : List (Nat × Nat × Nat)) : State := withRegs ({ sessions := [(0, oper)] } : State) ((0x1300, 2, 7) :: l)

/-- A page of the operator's below the Well and the highest one that may be mapped. -/
theorem test_pages : let p : PageAttrs := { r := true, w := true, draw := false, frozen := false, tag := true, scrub := true }
    let s := dev [(0x3101, 1, 1), (0x3101, 7, 1)]
    let t : State := { s with hbmPages := [(hbmKey 1 0x3FFFFFE00000, {})] }
    s.answers = true ∧ s.actsOperator 0 = true ∧ s.reg 0x3101 1 = 1 ∧ s.mappable 1 0x3FFFFFE00000 = true ∧ s.mappable 1 0x7FFFFFC00000 = true ∧
      s.mappable 1 0x400000000000 = false ∧ s.attrsOk 1 p = true ∧ s.pageOf 1 0x3FFFFFE00000 = none ∧ s.pagesUsed 1 < s.reg 0x3101 7 ∧
      lowestFree s.hbmUsed 0 < hbmFrames ∧ (t.pageOf 1 0x3FFFFFE00000).isSome = true ∧ t.inUse 1 0x3FFFFFE00000 0x200000 = false ∧ t.removals = [] := by
  decide +kernel

/-- The places of a physical address of HBM (spec/09 R254, worked example). -/
theorem test_hbm_place : hbmPlace 0x1234567890 = { stack := 0, ward := 0, channel := 5, pseudo := 0, offset := 203613328 } := by decide

theorem test_removals : let r : Removal := { allot := 1, va := lo, len := 0x10000, kind := .page none }
    let s : State := { held (prog lo) 0 0 with removals := [r] }
    let busy : State := { held { prog lo with passes := [{ wetPass qPass none with fp := { reads := [vaRng lo 1] } }] } 0 0 with removals := [r] }
    s.activating = none ∧ s.removals[0]? = some r ∧ s.removalReady 0 r = true ∧ busy.removals[0]? = some r ∧ busy.removalReady 0 r = false := by
  decide +kernel

theorem test_spills : let s := held (two lo 2047 { spilled := true }) 0 0
    (s.ctx 1 0).pages.find 0 = some { frame := 0 } ∧ (s.ctx? 1 0).isSome = true ∧ (s.ctx 1 0).pages.find 2047 = some { spilled := true } := by
  decide +kernel

/-! ### Applies, the Larder and the Well -/

/-- The operator's session with pending values. -/
def pending (l : List (Nat × Nat × Nat)) : Session := { oper with pend := l.foldl (fun t e => t.set (objKey e.1 e.2.1) e.2.2) [] }
def asked (l m : List (Nat × Nat × Nat)) : State := { dev l with sessions := [(0, pending m)] }

/-- An operator may apply every setting; a session of role A may apply none. -/
theorem test_applies : (dev []).answers = true ∧
    ([(0x1200, 5), (0x20F0, 6), (0x2001, 0x0D), (0x2004, 0x0D), (0x1201, 4), (0x1204, 4), (0x1210, 0x0D), (0x2100, 9), (0x2184, 1), (0x2110, 0x0A),
      (0x214F, 0x0A), (0x3000, 5), (0x31FF, 0x1E), (0x31FF, 0x1F), (0x400B, 0x0E), (0x3201, 0x0A), (0x3202, 0x0A), (0x3301, 5),
      (0x1300, 1), (0x1102, 1), (0x1102, 3), (0x7F00, 4)] : List (Nat × Nat)).all (fun e => (dev []).mayApply 0 e.1 e.2) = true ∧
    ({ dev [] with sessions := [(0, { oper with oper := false })] } : State).mayApply 0 0x1200 5 = false := by decide +kernel

/-- Hold thresholds 5 °C above the onset and one thousandth less; a port kept enabled; a ward at its setpoint. -/
theorem test_settings : let s := fun (h : Nat) => asked [(0x2001, 2, 1)] [(0x1210, 5, 90000), (0x1210, 6, h), (0x2001, 1, 1), (0x1201, 1, 800), (0x1200, 1, 1000)]
    (s 95000).applying 0 0x1210 5 + 5000 ≤ (s 95000).applying 0 0x1210 6 ∧ (s 94999).applying 0 0x1210 6 < (s 94999).applying 0 0x1210 5 + 5000 ∧
      (s 95000).applying 0 0x2001 1 ≠ 0 ∧ (s 95000).portReg 0 2 ≠ 0 ∧ (s 95000).applying 0 0x1201 1 = 800 ∧ (s 95000).wardThrottled 0 = false ∧
      fld ((s 95000).reg 0x1200 4) 7 0 = 0 ∧ (s 95000).session 0 = some (pending [(0x1210, 5, 90000), (0x1210, 6, 95000), (0x2001, 1, 1), (0x1201, 1, 800),
        (0x1200, 1, 1000)]) := by decide +kernel

theorem test_households : (List.range 256).all (fun n => (dev []).reg (0x3100 + n) 0x0F == 0xFFFF) = true := by decide +kernel

/-- An enable of a link written, and a link that may train again. -/
theorem test_link_writes : let s := dev [(0x214F, 2, 4)]
    (s.writeObject 0 0x214F 1 0).2.1 = .ok ∧ (s.writeObject 0 0x214F 1 0).2.2 = 0 ∧ (s.writeObject 0 0x214F 1 1).2.2 = 1 ∧ s.linkState 63 = 4 := by
  decide +kernel

/-- No Green, and allotment 1 as the Green with exactly the pages that its geometry takes. -/
theorem test_green_applies : let s := asked [(0x3101, 1, 1), (0x3101, 7, 4)] [(0x3000, 1, 1), (0x3000, 2, 1), (0x3000, 3, 1), (0x3000, 4, 256)]
    let v := fun (i : Nat) => s.applying 0 0x3000 i
    (dev []).applying 0 0x3000 1 = 0 ∧ (dev []).greenSlots = [] ∧ s.mayApply 0 0x3000 5 = true ∧ v 1 = 1 ∧ s.greenAllot = 0 ∧
      v 2 * slotBytes (v 3) (v 4) ≤ 2 ^ 43 ∧ s.hbmUsed.length + (2 * regionPages (v 2) (v 3) (v 4) + 2) ≤ hbmFrames ∧ 2 * regionPages (v 2) (v 3) (v 4) + 2 + s.pagesUsed (v 1) = s.reg 0x3101 7 := by decide +kernel

/-- The route to the highest house. -/
theorem test_routes : objKey (0x2180 + 511 / 128) (511 % 128 + 1) = objKey 0x2183 128 ∧
    ({ oper with pend := [(objKey 0x2183 128, 5)] } : Session).pend = [(objKey 0x2183 128, 5)] := by decide +kernel

/-- Definitions that R285 accepts and refuses, and a group that R409 accepts and refuses. -/
theorem test_definitions : let s := fun (c : Nat) => asked [] [(0x31FF, 2, 1), (0x31FF, 3, 1), (0x31FF, 4, c)]
    let v := fun (c i : Nat) => if i = 3 then Nat.land 1 1 else if i = 0x0D then (s c).applying 0 0x31FF 0x0D else (s c).applying 0 0x31FF i
    (s 1000).reg 0x1100 1 = 2 ∧ (s 1000).defRefused 255 (v 1000) = false ∧ (s 1000).applying 0 0x31FF 0x0D = 0 ∧ Nat.land 1 1 = (s 1000).applying 0 0x31FF 3 ∧
      (asked [(0x1100, 1, 1)] []).reg 0x1100 1 ≠ 2 ∧ (dev [(0x31FF, 1, 1)]).reg 0x31FF 1 = 1 ∧ (dev []).reg 0x31FF 1 ≠ 1 ∧
      (dev [(0x31FF, 1, 2)]).reg 0x31FF 1 = 2 := by decide +kernel

theorem test_groups : let s := fun (n : Nat) => asked [] [(0x400B, 1, n)]
    let members := fun (n : Nat) => (List.range 512).map (fun r => (s n).applying 0 (0x4040 + 4 * 11 + r / 128) (r % 128 + 1))
    let changed := fun (n : Nat) => ((s n).groupFields 0 11).any (fun e => (s n).reg e.1 e.2.1 != e.2.2 && !(e.1 == 0x400B && e.2.1 == 4))
    (s 0).groupRefused 11 (fun i => (s 0).applying 0 0x400B i) (members 0) (changed 0) = false ∧
      (s 1).groupRefused 11 (fun i => (s 1).applying 0 0x400B i) (members 1) (changed 1) = true := by decide +kernel

theorem test_snapshot : (dev []).session 0 = some oper ∧ ((dev []).mayAccess oper 0x50FF 9 true).isSome = true := by decide +kernel

/-- A session that asks for an action of the Larder on adaptation 3 of allotment 1, as its tenant. -/
def tenant (action : Nat) : Session :=
  (((({ oper with bound := some 1, oper := false } : Session).setOwn 0x3301 1 1).setOwn 0x3301 2 3).setOwn 0x3301 3 action)
def entry (state : Nat) : LEntry := { state := state, owner := 1, adapt := 3, frames := [7], len := 256 }
def larder (action : Nat) (e : LEntry) : State := { dev [(0x1122, 1, 5)] with sessions := [(0, tenant action)], larder := [(16383, e)] }

theorem test_larder_actions : ([(1, 2), (1, 1), (2, 2), (4, 2), (5, 3), (6, 3), (8, 5)] : List (Nat × Nat)).all (fun e =>
      let s := larder e.1 (entry e.2)
      s.answers && s.session 0 == some (tenant e.1) && !(tenant e.1).waiting && !(tenant e.1).alone && s.mayApply 0 0x3301 5 &&
        s.larderMay 0 1 e.1 && larderFits e.1 e.2 && !s.isGreen 1 && s.entryOf 1 3 == some (16383, entry e.2) && !(entry e.2).checked &&
        (tenant e.1).ownVal 0x3301 3 == e.1 && (tenant e.1).ownVal 0x3301 1 == 1) = true ∧
    (let e := { entry 3 with tenantPin := true, checked := true }
     (larder 3 e).entryOf 1 3 = some (16383, e) ∧ (larder 5 e).entryOf 1 3 = some (16383, e) ∧ larderFits 3 3 = true) ∧
    larderFits 1 5 = false ∧ (entry 2).pinned = false ∧ ({ entry 2 with pins := 1 } : LEntry).pinned = true ∧
      ([3, 7] : List Nat).all (fun k => (larder k (entry 2)).session 0 == some (tenant k) && (tenant k).ownVal 0x3301 3 == k) = true := by decide +kernel

/-- An INSTALL of an absent entry, with and without room for it. -/
theorem test_installs : let s := { larder 7 (entry 2) with larder := [] }
    let t := s.setReg 0x3302 1 1
    s.entryOf 1 3 = none ∧ s.entryQuota 1 = 0 ∧ t.entryQuota 1 ≠ 0 ∧ (t.takeEntry 1 3 (.install 0) false [0]).2 = some 0 ∧ larderFits 7 0 = true := by
  decide +kernel

/-- Fills that go on, have landed and have failed; an INSTALL's entry and its job. -/
theorem test_fills : let e := { entry 1 with filling := some .fetch, frames := [] }
    let s := fun (o : Option Status) => larder 8 { e with ended := o }
    ([none, some .ok, some .tallyMismatch] : List (Option Status)).all (fun o =>
      (s o).larder.find 16383 == some { e with ended := o } && (s o).activating.isNone) = true ∧
    (let t := ({ larder 7 (entry 2) with larder := [] } : State).setReg 0x3302 1 1
     (t.askFill 0 1 3 (.install 0x200000) false).jobs.map (fun j => (j.1, j.2.larder)) = [(0, some (0, .header))]) := by decide +kernel

/-- A job that works for the entry 16383: its length, the blocks that it has done and its work. -/
def working (len blocks : Nat) (w : LarderWork) : Job :=
  { allot := 1, stream := 0, blocks := blocks, flight := 1, larder := some (16383, w),
    rec' := { larderRec 3 with qp := 5, lva := 0x200000, len := len } }

/-- An INSTALL of one projection of rank 32: its header gives 25,088 bytes, for which a page of the quota is taken, and the copy is next. -/
theorem test_install : let img := leBytes 256 (1 + 3 * 2 ^ 32 + 2 ^ 656 + 2 ^ 728 + 32 * 2 ^ 736 + 128 * 2 ^ 752)
    let e := { entry 1 with filling := some (.install 0x200000), frames := [], len := 0 }
    let s : State := { larder 8 e with
      hbmPages := [(hbmKey 1 0x200000, {})], quotaFrames := [(1, [9])], jobs := [(0, { working 256 0 .header with flight := 0 })] }
    let t := (s.setReg 0x3303 1 1).writeVa 1 0x200000 img
    (match exec (.carterBlockDone 0 []) t with
    | .next u => u.larder.find 16383 == some { e with frames := [9], len := 25088 } && (u.jobs.find 0).map Job.larder == some (some (16383, .copy))
    | _ => false) = true := by decide +kernel

/-- Blocks that come with and without their manifest word, over a live queue pair and a lost one; the first one judged by the header. -/
theorem test_fill_blocks : let word := adaptTally 1 3 1 (List.replicate 16 7)
    let e := { entry 1 with filling := some .fetch, manifest := [adaptTally 1 3 0 (List.replicate 16 7), word] }
    let s : State := { larder 8 e with qps := [(5, { allot := 1, port := 0, isProtected := false, rkey := 0 })] }
    let j := working 65552 1 .image
    let k := working 16 0 .image
    s.larder.find 16383 = some e ∧ s.qpLive 1 5 = true ∧ (larder 8 e).qpLive 1 5 = false ∧
      e.manifest[j.blocks]? = some word ∧ j.rec'.blockLen 1 = 16 ∧ s.headerStatus e (ofLe (List.replicate 16 7)) ≠ .ok ∧
      (s.workDone 0 j 16383 .image (List.replicate 16 7)).larder.find 16383 = some { e with ended := some .ok } ∧
      (s.workDone 0 j 16383 .image (List.replicate 16 8)).larder.find 16383 = some { e with ended := some .tallyMismatch } ∧
      (s.workDone 0 k 16383 .image (List.replicate 16 7)).larder.find 16383 = some { e with ended := some .shapeMismatch } := by decide +kernel

/-- A fetch whose record comes empty with its end: the fill fails and the entry is free; a recomputation brought to its end. -/
theorem test_fill_complete : let e := { entry 1 with filling := some .fetch, frames := [] }
    let s : State := { larder 8 e with qps := [(5, { allot := 1, port := 0, isProtected := false, rkey := 0 })], jobs := [(0, working 64 0 .record)] }
    let f := { entry 3 with len := 16, manifest := [adaptTally 1 3 0 (List.replicate 16 0)] }
    (match exec (.fillComplete 16383 [] [] []) s with | .next t => t.larder.find 16383 == none && t.jobs == [] | _ => false) = true ∧
      s.activating = none ∧ s.jobs.find? (fun p => p.2.larder.map Prod.fst == some 16383) = some (0, working 64 0 .record) ∧
      (match exec (.carryRecheckDone 16383) (larder 8 f) with
        | .next t => t.larder.find 16383 == some { f with checked := true }
        | _ => false) = true := by decide +kernel

/-- Larder jobs whose turn has come, and that wait for an instance. -/
theorem test_larder_jobs : let s : State := { larder 8 { entry 3 with ended := some .ok } with jobs := [(0, working 256 0 .recheck)] }
    let t : State := { larder 8 (entry 1) with
      jobs := (List.range 5).map (fun (i : Nat) => (i, ({ working 256 0 .copy with flight := if i = 4 then 0 else 1 } : Job))) }
    (s.fillCarters.jobs.find 0).map Job.flight = some 1 ∧ s.fillCarters.activating = none ∧ (t.fillCarters.jobs.find 4).map Job.flight = some 0 := by
  decide +kernel

theorem test_withdrawal : let e := { entry 5 with withdrawnAt := some 5 }
    let s := larder 8 e
    s.larder.find 16383 = some e ∧ ¬5 + s.reg 0x3300 4 * 1000 ≤ s.timer ∧ 5 + s.reg 0x3300 4 * 1000 ≤ 100000005 := by decide +kernel

/-- Carried entries whose recomputation has ended well and badly, under each policy, with and without an ACCEPT; a block that its manifest
word confirms. -/
theorem test_recheck : let e := fun (st : Status) => { entry 3 with ended := some st }
    (larder 8 (e .ok)).larder.find 16383 = some (e .ok) ∧ (larder 8 (e .tallyMismatch)).larder.find 16383 = some (e .tallyMismatch) ∧
      (e .ok).checked = false ∧ (larder 8 (e .ok)).reg 0x3305 1 = 0 ∧ ((larder 8 (e .ok)).setReg 0x3305 1 1).reg 0x3305 1 = 1 ∧
      ((larder 8 { e .ok with accepters := [0] }).setReg 0x3305 1 2).reg 0x3305 1 = 2 ∧ (larder 8 (entry 3)).nextRecheck = some 16383 ∧
    (let f := { entry 3 with len := 16, manifest := [adaptTally 1 3 0 (List.replicate 16 0)] }
     ((larder 8 f).workDone 0 (working 16 0 .recheck) 16383 .recheck []).larder.find 16383 = some { f with ended := some .ok }) := by decide +kernel

theorem test_well : let s := fun (a p : Nat) => asked [] [(0x3202, 9, a), (0x3202, 3, p)]
    (([0, 1, 2, 3, 4] : List Nat).all (fun a => (s a 1).applying 0 0x3202 9 == a) && (s 1 1).wellFits 1 1 1 && (s 1 0).wellFits 1 1 0 &&
      !(s 2 1).wellFits 1 2 1 && !(pending []).waiting && !(pending []).alone) = true := by decide +kernel

/-- Every action in a state that it fits. -/
theorem test_well_fits : ([(0, 0), (1, 0), (2, 1), (3, 2), (4, 2)] : List (Nat × Nat)).all (fun e =>
    let s := asked [(0x3202, 1, e.2), (0x3202, 3, 1), (0x3202, 4, 0x200000)] [(0x3202, 9, e.1)]
    let v := fun (i : Nat) => s.applying 0 0x3202 i
    s.mayApply 0 0x3202 0x0A && !s.wellBusy 1 && s.wellFits 1 (v 9) (v 3) && v 9 == e.1 && [3, 4, 5].all (fun i => v i == s.reg 0x3202 i) &&
      decide (1 ≤ v 4) && decide (v 4 ≤ v 3 * 0x200000)) = true := by decide +kernel

theorem test_well_ends : let s : State := { dev [] with wells := [(0, { frames := [7], sealing := true }), (1, { frames := [8], unmapped := true })] }
    (s.wellSlot 0).sealing = true ∧ (s.wellSlot 1).unmapped = true ∧ (s.wellSlot 1).sealing = false ∧ (s.wellSlot 0).unmapped = false := by decide +kernel

/-! ### Life cycle, sessions and LMP -/

/-- Every state of the life cycle; a strip nonce at its expiry and one nanosecond before; the first operator key and a second one. A token
that verifies rests on an opaque verification, and has no witness here. -/
theorem test_life_cycle : let s := fun (c : Nat) => dev [(0x1100, 1, c)]
    (s 2).mayApply 0 0x1102 1 = true ∧ (s 2).lifeCycle = 2 ∧ (s 3).lifeCycle ≠ 2 ∧ (s 0).lifeCycle = 0 ∧ (s 1).lifeCycle = 1 ∧
      (s 2).stripNonce = none ∧ (s 3).lifeCycle = 3 ∧ (s 3).reg 0x1100 3 < 3 ∧ 3 ≤ ((s 3).setReg 0x1100 3 3).reg 0x1100 3 ∧
      (dev [(0x1110, 4, 5)]).mayApply 0 0x1110 4 = true ∧ oper.path = .management ∧ (List.range 5).all (fun i => (s 2).reg 0x1110 i == 0) = true ∧ (dev [(0x1110, 4, 5)]).reg 0x1110 4 ≠ 0 ∧
      (({ dev [(0x1110, 4, 5)] with sessions := [(0, { oper with oper := false })] } : State).mayAccess { oper with oper := false } 0x1110 1
        true).isNone = true := by decide +kernel

theorem test_strip_nonce : ({ stripNonce := some (9, 5), timer := 5 } : State).stripNonce = some (9, 5) ∧ (5 : Nat) ≤ 5 ∧ ¬(5 : Nat) ≤ 4 := by decide

theorem test_requests : let req : Requester := { mutualAuth := true, keyDigest := 5, maker := false }
    let r : SignReq := { sess := none, path := .inBand 3, kind := .keyExchange req }
    let s : State := { dev [(0x2004, 2, 2)] with mgmtQps := [3] }
    s.heard .management = true ∧ s.heard (.inBand 3) = true ∧ s.activating = none ∧ s.transition = false ∧ s.sessionCount = 1 ∧ s.signQ.length < 16 ∧
      ({ s with signQ := List.replicate 16 r } : State).sessionCount < 512 ∧ ¬({ s with signQ := List.replicate 511 r } : State).sessionCount < 512 ∧
      16 ≤ (List.replicate 16 r).length := by decide +kernel

theorem test_reports : let x := { oper with scope := some 1 }
    let s := fun (st : Nat) => ({ dev [(0x3101, 1, st)] with sessions := [(0, x)] } : State)
    (s 1).session 0 = some x ∧ (s 1).up = true ∧ x.inScope = some 1 ∧ (s 1).reg 0x3101 1 ≠ 2 ∧ (s 2).reg 0x3101 1 = 2 ∧ (s 1).session 1 = none ∧
      ({ s 1 with activating := some 0 } : State).activating ≠ none := by decide +kernel

/-- A session that may claim allotment 255, one that keeps it, and one that another keeps. -/
theorem test_claims : let s := fun (d : Nat) => dev [(0x31FF, 1, 1), (0x1122, 255, d)]
    oper.authed = true ∧ (s 0).lifeCycle = 2 ∧ oper.bound = none ∧ (s 0).reg 0x31FF 1 = 1 ∧ (s 0).keeper 255 = 0 ∧ (s 5).keeper 255 = oper.keyDigest ∧
      (s 5).keeper 255 ≠ 0 ∧ (s 6).keeper 255 ≠ oper.keyDigest ∧ (tenant 0).bound = some 1 := by decide +kernel

theorem test_logs : let m : MLog := { count := 64, entries := List.replicate 64 [] }
    ((List.range 64).map (fun i => m.entryAt (1 + i))).all Option.isSome = true ∧ m.entryAt 0 = none ∧ m.entryAt 65 = none ∧
      (({ old := [(3, 5)] } : Macsec).old.find 3 = some 5) := by decide +kernel

/-- The firmware object's four actions on the runtime, in and out of a live activation. The version of an image is opaque. -/
theorem test_firmware : let g : Staged := { component := 3, digest := 0, svn := 1 }
    let s := fun (a : Nat) => ({ asked [] [(0x7F00, 2, a), (0x7F00, 1, 3), (0x7F00, 3, 4)] with staged := some g } : State)
    (([1, 2, 3, 4] : List Nat).all (fun a => (s a).hears && (s a).mayApply 0 0x7F00 4 && (s a).applying 0 0x7F00 1 == 3 &&
      (s a).applying 0 0x7F00 3 == 4 && (s a).applying 0 0x7F00 2 == a && (s a).up)) = true ∧ (s 2).staged = some g ∧ g.component = 3 ∧
      (s 2).activating = none ∧ ({ s 2 with activating := some 0, resetPending := true } : State).activating = some 0 := by decide +kernel

/-- The header of a datagram of a secured message with a sequence number. -/
def datagram (seq : Nat) : List Byte := leBytes 16 (0x4D4C + 2 ^ 16 + 2 * 2 ^ 24 + seq * 2 ^ 64)

theorem test_datagrams : let w := ofLe ((datagram 65).take 16)
    16 ≤ (datagram 65).length ∧ (datagram 65).length ≤ pathLimit .management ∧ fld w 15 0 = 0x4D4C ∧ fld w 23 16 = 1 ∧ fld w 63 32 = 0 ∧ fld w 31 24 = 2 ∧
      fld w 127 64 = 65 ∧ ({ oper with accepted := [129] } : Session).acceptsSeq 65 = true ∧ ({ oper with accepted := [130] } : Session).acceptsSeq 65 = false := by
  decide +kernel

/-- A message that reads one object, and one that names no operation. -/
def message (count : Nat) (body : List Byte) : List Byte := leBytes 8 (7 + count * 2 ^ 32) ++ body
def readOp : List Byte := leBytes 16 (2 ^ 32 + 0x1300 * 2 ^ 40 + 2 * 2 ^ 56 + 2 ^ 64 + 2 ^ 80)

theorem test_messages : let good := fun (m : List Byte) =>
      let h := ofLe (m.take 8)
      (parseOps (fld h 39 32) (m.drop 8)).2 && decide (1 ≤ fld h 39 32) && decide (fld h 39 32 ≤ 64) && fld h 63 40 == 0
    8 ≤ (message 0 []).length ∧ good (message 0 []) = false ∧ good (message 1 readOp) = true ∧ ofLe ((message 1 readOp).take 8) % 2 ^ 32 = 7 ∧
      oper.answers.find? (fun e => e.1 == 7) = none ∧ ({ oper with answers := [(7, [])] } : Session).answers.find? (fun e => e.1 == 7) = some (7, []) := by
  decide +kernel

/-- Objects with a pending copy, held in force at once, and held for the session; a value at its type's end and beyond. -/
theorem test_writes : let s := dev []
    ([(0x2001, 1, 1), (0x1200, 1, 2 ^ 16 - 1), (0x7000, 3, 2 ^ 64 - 1), (0x3300, 3, 8)] : List (Nat × Nat × Nat)).all (fun e =>
      plainObject e.1 e.2.1 && !s.recoveryBars e.1 && (s.mayAccess oper e.1 e.2.1 true).isSome &&
        (match objDef e.1 e.2.1 with
          | some d => decide (e.2.2 < 2 ^ (8 * d.ty.size))
          | none => false)) = true ∧
      (dev [(0x3202, 1, 2)]).sealedField 0x3202 3 = true ∧ perSession 0x7000 3 = true ∧ (applyOf 0x1200 1).isSome = true ∧ (applyOf 0x3300 3).isSome = false := by decide +kernel

/-! ### Host ports, power and reset -/

/-- A queue pair of allotment 1 on port 0, and a page of its own with a page beside it that is frozen. -/
def pair : Qp := { allot := 1, port := 0, isProtected := false, rkey := 2 ^ 32 - 1, cnpSent := some 0, cnpSeen := some 0 }
def hosted (t : Nat) : State :=
  { dev [(0x2001, 2, 2), (0x3101, 1, 1), (0x3101, 8, 2)] with
    timer := t, qps := [(4095, pair)], hbmPages := [(hbmKey 1 0x200000, {}), (hbmKey 1 0x400000, { frozen := true, frame := 1 })] }

theorem test_host_messages : let s := hosted 0
    s.liveQp 4095 = some pair ∧ (0 : W32).toNat ≠ pair.rkey ∧ (0xFFFFFFFF : W32).toNat = pair.rkey ∧ inBells 0x200000 1 = false ∧
      barred 0x200000 1 = false ∧ barred 0x4FFFFFFFFFFF 2 = true ∧ s.transferCheck 1 [] [⟨0x3FFFFF, 1⟩] false = .ok ∧
      s.transferCheck 1 [] [⟨0x3FFFFF, 2⟩] false ≠ .ok ∧ s.transferCheck 1 [⟨0x5FFFFF, 1⟩] [] false = .ok ∧ s.transferCheck 1 [⟨0x5FFFFF, 2⟩] [] false ≠ .ok ∧
      s.poisonedVa 1 0x5FFFFF 1 = false ∧ inBells 0x7FFFFFFF0000 8 = true ∧ inBells 0x7FFFFFFF0001 8 = true ∧ 0x7FFFFFFF0001 % 8 ≠ 0 := by decide +kernel

theorem test_doorbells : let s := (hosted 0).modAllot 1 (fun y => { y with streams := [(15, { desc := some ringDesc, doorbell := 1 })] })
    let far := fun (d : W64) => (d.toNat + 2 ^ 32 - (s.stream 1 15).consumed % 2 ^ 32) % 2 ^ 32
    (s.stream 1 15).desc = some ringDesc ∧ (s.stream 1 15).left ≠ 0 ∧ far 16 ≤ 2 ^ ringDesc.ringLog2 ∧ 2 ^ ringDesc.ringLog2 < far 17 ∧
      (2 : Nat) ^ 32 ≤ (0x100000000 : W64).toNat := by decide +kernel

theorem test_connections : let s := hosted 0
    s.portUp 0 = true ∧ (s.allot 1).macsec.keyed = false ∧ s.mayConnect 1 false = true ∧ s.mayConnect 2 false = false ∧ s.mayConnect 1 true = true ∧
      s.qps.find 4095 = some pair ∧ s.jobs = [] ∧ s.up = true ∧ 6 ≤ s.reg 0x1300 2 ∧ s.portReg 3 1 ≠ 0 := by decide +kernel

/-- A CNP at its interval and before; a rate's recovery at its timer and before. -/
theorem test_rates : ¬(hosted 50000).timer < 0 + 50000 ∧ (hosted 49999).timer < 0 + 50000 ∧ 0 + (hosted 0).portReg 0 0x0B * 1000 ≤ (hosted 55000).timer ∧
    ¬0 + (hosted 0).portReg 0 0x0B * 1000 ≤ (hosted 54999).timer ∧ (hosted 0).minRate 0 ≤ pair.rate ∧ pair.rate ≤ 200000 := by decide +kernel

/-- A boot flash that holds only what it keeps, the modes of power, and a commanded reset. -/
theorem test_resets : let s := dev []
    (∀ e ∈ [(objKey 0x1110 4, 5), (objKey 0x2183 128, 3), (objKey 0x2001 1, 1)], persistent (e.1 / 256) (e.1 % 256) = true ∨ isRoute e.1 = true) ∧
      s.power = .running ∧ ({ s with power := .off } : State).power = .off ∧ s.answers = true ∧ s.mayApply 0 0x1300 1 = true ∧ (110000 : Int) ≤ 110000 ∧
      ¬(110000 : Int) ≤ 109999 := by decide +kernel

theorem test_boot : ({ power := .clockHeld } : State).pending = [] ∧ State.reset.phase < 3 ∧ (withRegs {} [(0x1300, 2, 5)]).phase = 5 ∧
    7 ≤ (dev []).phase ∧ (([0, 1, 2] : List Nat).all (fun p =>
      (phaseComponents (p + 1)).all (fun i => decide (State.reset.reg 0x1101 i ≤ (State.reset.bootImage i).2)))) = true := by decide +kernel

/-- A ward at its setpoint, one below it that may rise, and samples at the ends of the hysteresis of its hold. -/
theorem test_wards : let s := dev [(0x1204, 2, 725), (0x1210, 9, 8)]
    s.wardHeld 3 = true ∧ s.wardHeld 0 = false ∧ decide (s.holdAt - 5000 < 95001) = true ∧ decide (s.holdAt - 5000 < 95000) = false ∧
      s.raisedAt.find 3 = none ∧ s.junction 3 + 2000 ≤ s.onset ∧ s.reg 0x1204 2 < s.reg 0x1204 1 := by decide +kernel

/-! ### Where commands wait, are refused or go another way -/

/-- The eight loads and stores at an address of register 4. -/
def accesses : List (Instr × Nat) :=
  [(.gLdB 0 3 4 0, 1), (.gLdH 0 3 4 0, 2), (.gLdW 0 3 4 0, 4), (.gLdD 0 3 4 0, 8), (.gStB 0 3 4 0, 1), (.gStH 0 3 4 0, 2), (.gStW 0 3 4 0, 4), (.gStD 0 3 4 0, 8)]

/-- Past the last page, on a spilled and on a frozen one, and in checked mode over what a started pass reads. -/
theorem test_accesses_stop : accesses.all (fun e =>
      let st := e.1 ∈ ([.gStB 0 3 4 0, .gStH 0 3 4 0, .gStW 0 3 4 0, .gStD 0 3 4 0] : List Instr)
      let w := two hi 1 { spilled := true }
      let f := two hi 1 { frozen := true, frame := 1 }
      let c := { prog (hi - 8) with checked := true, passes := [{ wetPass qPass none with fp := { reads := [vaRng (hi - 8) 1] } }] }
      isDue (prog hi) e.1 && (dueWith (prog hi) e.1).gAccess 1 0 hi st == .outside && isDue w e.1 && (dueWith w e.1).gAccess 1 0 hi st == .wait &&
        isDue f e.1 && (!decide st || (dueWith f e.1).gAccess 1 0 hi true == .frozen) &&
        isDue c e.1 && (dueWith c e.1).gAccess 1 0 (hi - 8) st == .ok && gAddress c 4 0 e.2 == hi - 8 &&
        rngsMeet [vaRng (hi - 8) e.2] ((engines.flatMap c.started).flatMap Footprint.reads)) = true := by decide +kernel

/-- A store that completes a VALID entry of one row of 32 bytes, by a tenant with one roster slot and by the Green with one slot. -/
theorem test_tag_map_accepted : let va := lo + 0x81800 + 32 * 7
    let x := { two va 8 { frame := 1 } with sregs := [(3, 1), (4, BitVec.ofNat 64 va)] }
    ([false, true] : List Bool).all (fun green =>
      let s1 := ((dueWith x (.gStD 0 3 4 0)).writeVa 1 (va + 8) (leBytes 8 (32 * 2 ^ 48))).writeVa 1 (va + 16) (leBytes 8 lo)
      let s := if green then (s1.setReg 0x3000 1 1).setReg 0x3000 2 1 else s1.setReg 0x3101 0x11 1
      s.due 0 == some (1, x, .gStD 0 3 4 0) && s.gAccess 1 0 va true == .ok && !x.checked && s.tagMapHit 1 0 va == some 7 && s.isGreen 1 == green &&
        !s.tagMapRefused 1 0 x 7 (s.tagMapWord 1 0 7 va (leBytes 8 1)) && tagMapEnt (s.tagMapWord 1 0 7 va (leBytes 8 1)) == { base := lo, pitch := 32, rows := 1, first := 0 }) =
      true := by decide +kernel

/-- A Trowel instruction of an open epoch that names no destination, and one for whose range earlier claims leave no room. -/
theorem test_issue_claims : let none' : QOp := qop (fields 0x3E 1 [(123, 4), (113, 8)])
    let x := { prog lo with epochs := [{ e := 0, serial := 0, ranges := List.replicate 63 { issue := 0, iter := 0, rng := vaRng lo 32 } }], trowelQ := [{ qCopy with epoch := some 0 }] }
    none'.tIterDst.length ≤ 1 ∧ 64 < x.provUsed + (held x 0 0).rangeClaims 1 0 x + 2 := by decide +kernel

/-- The Lath's head: on a spilled page, behind 192 started passes, and with its operand in a range that an open epoch holds. -/
theorem test_lath_waits : let w := { lath qOs with pages := [(0, { spilled := true })] }
    let n := fun (k : Nat) => { lath qPass with passes := List.replicate k (wetPass qPass none) }
    let r : ProvRng := { issue := 9, iter := 0, rng := { space := .hawk, base := 0, len := 64 } }
    let e := { lath qLoad with epochs := [{ e := 0, serial := 0, ranges := [r] }] }
    (held w 0 0).onCore 0 = some (1, w) ∧ (held w 0 0).lathSpilled 1 0 w qOs = true ∧ (n 191).lathStarted < 192 ∧ 192 ≤ (n 192).lathStarted ∧
      e.mustWait qLoad { reads := e.headRngs qLoad [] } = true ∧ e.lathHead = none ∧
      (lath qLoad).mustWait qLoad { reads := (lath qLoad).headRngs qLoad [] } = false := by decide +kernel

/-- Refused heads: a load, a pass of a reserved format and a reserved code, with and without a started pass or load before them. -/
def qPassBad : QOp := qop (fields 0x3C 3 [(99, 15), (114, 1), (13, 63)])
def qCodeBad : QOp := qop (fields 0x3C 9 [(13, 63)])
def loading : LoadRun := { idx := 0, q := qLoad, hoff := 0, fp := {} }

theorem test_lath_refused : ([qBad, qPassBad, qCodeBad] : List QOp).all (fun q =>
      let x := lath q
      let y := { lath q with load := some loading }
      (held x 0 0).lathRefusal 1 0 x q [] == some .shapeMismatch && x.lathTurn && (held y 0 0).lathRefusal 1 0 y q [] == some .shapeMismatch &&
        !y.lathTurn && !(held x 0 0).lathSpilled 1 0 x q && decide (y.lathStarted < 192) && !y.mustWait q { reads := y.headRngs q [] }) = true ∧
    qPassBad.op = 3 ∧ qCodeBad.op = 9 ∧ (lath qBad).passes = [] ∧ (wetPass qPass none).status = none ∧
    ({ lath qBad with lathHead := some { table := [], refused := some .shapeMismatch } } : Ctx).lathHead = some { table := [], refused := some .shapeMismatch } ∧
    (ready (lath qLoad)).lathHead = some { table := [], refused := none } := by decide +kernel

/-- A load behind another, and a pass behind an output-stationary one, in checked mode, and on a page that is gone. -/
theorem test_lath_held : let l := { ready (lath qLoad) with load := some loading }
    let o := wetPass qOs (some { chunksLeft := 1, taken := [], acts := [], ctags := [] })
    let p := { ready (lath qPass) with passes := [o] }
    let w := match (lath qPass).passShape qPass [] with
      | .ok b => (b.footprint (lath qPass) qPass).writes
      | .error _ => []
    let h := { ready (lath qPass) with checked := true, skims := [{ idx := 0, q := noOp, fp := { reads := w } }] }
    let g := { ready (lath qPass) with pages := [(0, { spilled := true })] }
    (held l 0 0).lathReady 0 = some (1, l, qLoad, []) ∧ l.load ≠ none ∧
      (held p 0 0).lathReady 0 = some (1, p, qPass, []) ∧ p.startedPasses.any (fun r => r.passo) = true ∧
      (match p.passShape qPass [], h.passShape qPass [], g.passShape qPass [] with
        | .ok _, .ok b, .ok c =>
          (held h 0 0).lathReady 0 == some (1, h, qPass, []) && h.hazard ((held h 0 0).windowOf 1 0) .lath (b.footprint h qPass) &&
            h.boardRoom ((held h 0 0).windowOf 1 0) (b.footprint h qPass) &&
            (held g 0 0).lathReady 0 == some (1, g, qPass, []) && ((held g 0 0).goneIn 1 (c.ents.flatMap (fun e => e.readRngs c.afmt c.ablk))).isSome
        | _, _, _ => false) = true := by decide +kernel

/-- The chains of dot: one product of floats, NaNs, and integers. -/
theorem test_dot : segLen .bf16 = 1 ∧ intChain .bf16 .bf16 = false ∧ isNan32 0x3F800000 = false ∧ isNan32 0x7FC00000 = true ∧
    intChain .int8 .int8 = true ∧ ([(.nan, .fin (Dy.ofInt 1))] : List (Val × Val)) ≠ [] ∧ (List.replicate 8 (Val.zero, Val.zero)).length ≤ 8 := by decide +kernel

/-- A pass behind a load, one that a poisoned word has touched, and the pages of a pass ring. -/
theorem test_pass_ends : let p := { wetPass qPass none with behindLoad := true }
    let z := { wetPass qPass none with poisoned := true }
    let w := fun (d : PageDesc) => { prog lo with pages := [(0, d)] }
    p.final = some p ∧ p.status = none ∧ z.final = some z ∧ z.behindLoad = false ∧ z.status = none ∧
      (w {}).pages.find 0 = some {} ∧ (w { spilled := true }).pages.find ((0 + 64 % 64 * 32) / 0x10000) = some { spilled := true } ∧
      (w { frozen := true }).pages.find 0 = some { frozen := true } ∧ (w {}).pages.find (0x10000 / 0x10000) = none := by decide +kernel

/-- A transposed pass of the Green whose next chunk lies in Hawk units that a Larder page owns, and one of no chunk. -/
def qOsTrans : QOp := qop (fields 0x3C 4 [(85, 2), (78, 2), (108, 8), (100, 1), (67, 4), (57, 6), (52, 7), (73, 1)])

theorem test_os_barred : let p := fun (n : Nat) => wetPass qOsTrans (some { chunksLeft := n, taken := [], acts := [], ctags := [] })
    let size := chunkBytes qOsTrans.osShape.2.1 qOsTrans.osShape.2.2.1 qOsTrans.osShape.2.2.2.2.2.1
    let x := { prog lo with hawkLen := 0x100000, passes := [p 1], rings := [(0, { fill := size, drain := 0 })] }
    let s := ((held x 0 0).setReg 0x3000 1 1).setCore 0 { resident := some 1, owners := [(0, 5)] }
    s.resident 0 = some (1, x) ∧ s.isGreen 1 = true ∧ qOsTrans.osShape.2.2.2.2.2.2.1 = true ∧ s.ringsOwned 0 x [0] (fun _ => 0) size = true ∧ (p 0).os.isSome = true := by
  decide +kernel

/-- The Skimmer's head: behind 64 others, in the Green behind one, refused, without room on the scoreboard, and against a started read. -/
def qSkimBad : QOp := qop (fields 0x3D 15 [(13, 63)])

theorem test_skimmer_held : let r : SkimRun := { idx := 0, q := qCvt }
    let x := fun (q : QOp) (n : Nat) => { prog lo with skimQ := [q], skims := List.replicate n r }
    let s := fun (q : QOp) (n : Nat) => held (x q n) 0 0
    let fp := (((s qCvt 0).skPlan 1 qCvt).map (fun p => p.footprint)).getD {}
    let full := { x qCvt 0 with
      checked := true
      trowels := [{ idx := 0, q := qCopy, fp := { reads := List.replicate 256 (vaRng lo 1) } }] }
    let meets := { x qCvt 0 with checked := true, passes := [{ wetPass qPass none with wet := [], fp := { reads := fp.writes } }] }
    (s qCvt 64).onCore 0 = some (1, x qCvt 64) ∧ 64 ≤ (x qCvt 64).skims.length ∧ ((s qCvt 1).setReg 0x3000 1 1).isGreen 1 = true ∧
      (x qCvt 1).skims.any (fun r => r.status == none) = true ∧
      (match (s qSkimBad 0).skCheck 1 0 (x qSkimBad 0) qSkimBad with | .error st => st == .shapeMismatch | .ok _ => false) = true ∧
      (match (held full 0 0).skCheck 1 0 full qCvt, (held meets 0 0).skCheck 1 0 meets qCvt with
        | .ok p, .ok p' => p.footprint == fp && p'.footprint == fp && !full.boardRoom ((held full 0 0).windowOf 1 0) fp &&
          meets.boardRoom ((held meets 0 0).windowOf 1 0) fp && !meets.mustWait qCvt fp && meets.hazard ((held meets 0 0).windowOf 1 0) .skimmer fp
        | _, _ => false) = true := by decide +kernel

/-- Values of the Skimmer's functions: a tie, an integer format, NaNs, and lists at their longest. -/
theorem test_skimmer_values : (0 : Nat) < 2 ∧ Fmt.int8.isInt = true ∧ Fmt.bf16.isInt = false ∧ (3 : Nat) < 4 ∧ (List.replicate 256 (1 : Int)).length ≤ 256 ∧
    roundUnits .rne 0 5 2 0 = 2 ∧ roundUnits .rtz 0 5 2 0 = 2 ∧ (convert .int8 .rne false 0 (.rat true 300 1)).1 = 128 := by decide +kernel

/-- The Trowel's head: on a spilled page, beyond 448, with its destination held by an epoch, and in checked mode. -/
theorem test_trowel_held : let x := { prog lo with trowelQ := [qCopy] }
    let r : TrowelRun := { idx := 0, q := qCopy }
    let n := fun (k : Nat) => { x with trowels := List.replicate k r }
    let w := { x with pages := [(0, { spilled := true })] }
    let e := { x with epochs := [{ e := 0, serial := 0, ranges := [{ issue := 9, iter := 0, rng := vaRng (lo + 0x8000) 1 }] }] }
    let c := { x with checked := true, passes := [{ wetPass qPass none with fp := { reads := [vaRng (lo + 0x8000) 1] } }] }
    (held w 0 0).trowelSpilled 1 qCopy = true ∧ ((held (n 447) 0 0).trowelsOn 0).length < 448 ∧ 448 ≤ ((held (n 448) 0 0).trowelsOn 0).length ∧
      (held e 0 0).trowelCheck 1 0 e qCopy = .ok ∧ (held e 0 0).trowelWaits 1 0 e qCopy qCopy.trowelFp = true ∧
      (held c 0 0).trowelCheck 1 0 c qCopy = .ok ∧ (held c 0 0).trowelWaits 1 0 c qCopy qCopy.trowelFp = false ∧
      c.hazard ((held c 0 0).windowOf 1 0) .trowel qCopy.trowelFp = true ∧ qDenied.epoch = none ∧ (qDenied.tRmk = false ∨ qDenied.tFabric = true) := by
  decide +kernel

/-- The Moot's head: beyond 64, on a spilled page, refused, over an open bucket and in checked mode. -/
theorem test_moot_held : let x := { prog lo with mootQ := [qContrib] }
    let at' := fun (y : Ctx) => withRegs (held y 0 0) (groupRegs 11 0 1)
    let n := fun (k : Nat) => { x with moots := List.replicate k { idx := 0, q := qContrib, phase := .reading 11 2 } }
    let w := { x with pages := [(0, { spilled := true })] }
    let lost := { x with mootQ := [{ qContrib with lost := true }] }
    let fp := (at' x).mootFp qOther
    let c := { x with mootQ := [qOther], checked := true, passes := [{ wetPass qPass none with fp := { reads := fp.writes } }] }
    (at' (n 63)).mootStarted 0 < 64 ∧ 64 ≤ (at' (n 64)).mootStarted 0 ∧ (at' w).spilledIn 1 ((natOf qContrib.mAddr).getD 0) qContrib.mLen = true ∧
      (at' lost).mootCheck 1 0 { qContrib with lost := true } = .memberLost ∧
      (at' (n 1)).onCore 0 = some (1, n 1) ∧ (∀ z, MootPhase.reading 11 2 ≠ .refused z ∧ MootPhase.reading 11 2 ≠ .done z) ∧
      (({ at' x with buckets := [(bucketKey 11 2, { step := 1, bucket := 2, len := 32, allot := 1, core := 0 })] } : State).bucketAt 11 2).isSome = true ∧
      (at' c).mootCheck 1 0 qOther = .ok ∧ c.mustWait qOther fp = false ∧ (at' c).mOwns qOther = false ∧ c.hazard ((at' c).windowOf 1 0) .moot fp = true := by
  refine ⟨by decide +kernel, by decide +kernel, by decide +kernel, by decide +kernel, by decide +kernel, fun z => ⟨by simp, by simp⟩, ?_⟩
  decide +kernel

/-- Headers that name a replaced number as their ACK or as their SEQ, and one that names none; a flit for another house; a transfer with and
without a receive window; a DONE of a transfer opened here, and one under a household that nobody here has. -/
theorem test_flits_strayed : let k : Link := { rx := 5, tx := 7, replay := [{ seq := 6, flit := { kind := 4, vc := 2, dest := 7, src := 4, household := 9 } }] }
    let h := fun (seq ack : Nat) => { hdrIn 2 4 with seq := seq, ack := ack }
    let s := withRegs (held (prog lo) 0 0) ([(0x2100, 3, 4), (0x3101, 0x0F, 9)] ++ linkUp)
    let u := s.owe 0 2
    let y : Xfer := { allot := 1, core := 0, house := 7, gen := false, phase := .opened }
    k.replaced (h 5 7) = false ∧ k.replaced (h 5 6) = false ∧ k.replaced (h 5 8) = true ∧ k.replaced (h 4 7) = true ∧ k.replaced (h 6 7) = false ∧
      k.replaced (h (4096 + 5 - 2048) 7) = true ∧ k.replaced (h (4096 + 5 - 2049) 7) = false ∧
      (s.linkTake 0 (hdrIn 2 5) 4).isSome = true ∧ (hdrIn 2 5).dest ≠ s.house ∧ (u.inboundOf 7 3 false 9).isSome = true ∧ u.receiveWindow 9 = none ∧
      ((s.setReg 0x2190 1 0x200000).receiveWindow 9) = some (1, 0x200000) ∧ (s.setReg 0x2190 1 0x200000).transferCheck 1 [] [⟨0x200000, 4⟩] false ≠ .ok ∧
      ({ s with inbound := [(inKey 7 3, { gen := false, household := 9, closed := true })] } : State).inboundOf 7 3 false 9 = none ∧
      ({ s with xfers := [(3, y)] } : State).xfers.find 3 = some y ∧ s.reg (0x3100 + y.allot) 0x0F = 9 ∧ s.householdAllot 9 = some 1 ∧
      s.householdAllot 8 = none := by decide +kernel

/-- A link with a flit resent eight times, and before its ACK has been silent long enough; one that is HELD, judged well and badly; entries
that join two fabrics, that replace an older one, and that give this device its number. -/
theorem test_links_judged : let f : Flit := { kind := 4, vc := 2, dest := 7, src := 4, household := 9 }
    let s := withRegs ({ links := [(0, { replay := [{ seq := 0, flit := f, resends := 8 }], ackAt := 1 })], timer := 82 } : State) linkUp
    let h := withRegs ({ links := [(0, { nbr := some (helloOf 0xFFFF) })], timer := 1 } : State) [(0x2110, 2, 4), (0x2110, 5, 9)]
    let e := fun (d house epoch : Nat) => ({ digest := d, house := house, epoch := epoch, links := [], assign := [] } : TopoEntry)
    let t : State := { withRegs ({} : State) [(0x2110, 2, 3), (0x2110, 5, 9), (0x1100, 2, 77)] with topo := [e 9 6 1] }
    let n := { e 1 6 3 with assign := [(t.digest, 2)] }
    (∃ x ∈ (s.link 0).replay, 8 ≤ x.resends) ∧ s.timer < (s.link 0).ackAt + 82 ∧ (s.link 0).replay ≠ [] ∧ s.carries 0 0 = true ∧
      h.linkState 0 = 4 ∧ h.holdReason 0 (helloOf 0xFFFF) = 0 ∧ h.holdReason 0 { helloOf 0xFFFF with mode := 1 } = 1 ∧ (h.linkTake 0 (hdrIn 0 511) 1).isSome = true ∧
      t.topoEntryOf 1 = none ∧ t.houseMode = 0 ∧ 1 ≠ t.nbrDigest 0 ∧ t.houseTaken 1 6 = true ∧ t.houseTaken 1 7 = false ∧ 1 ≠ t.digest ∧
      (t.takeNumber n).house = 2 ∧ t.house = 0xFFFF ∧ t.topoEntryOf 9 = some (e 9 6 1) ∧ (dev []).sessionIdle 0 = true := by decide +kernel

/-- Records of a stream below .09 and at it; of an allotment without cores. -/
theorem test_record_limits : let s := rung (prog lo) 0
    0 < s.reg 0x3101 9 ∧ s.reg 0x3101 9 ≤ 16 ∧ (s.setReg 0x3101 9 0).recordReady 1 0 = false ∧
      (let t := (rung (prog lo) (4 + 2 ^ 27)).setReg 0x3101 2 0
       t.listedCores 1 = 0 ∧ s.listedCores 1 = 1) := by decide +kernel

/-- A STREAM for a streaming program with room, without, on its way to its halt, and for a program in a bank; START on a running core and on a
bank that is LOADING, as BANK_LOAD. -/
theorem test_commands_wait : let full := fun (n : Nat) => List.replicate n ({ cmd := 6, base := 0, bytes := List.replicate 64 0 } : SBlock)
    let k : List (Ctx × CmdKind) := [({ prog lo with src := .queue, iq := full 63 }, .stream [0, 0, 0, 0]),
      ({ prog lo with src := .queue, iq := full 64 }, .stream [0, 0, 0, 0]),
      ({ prog lo with src := .queue, run := .stopping .ok }, .stream [0, 0, 0, 0]), (prog lo, .stream [0, 0, 0, 0]), (prog lo, .start 0 0 1 2),
      ({ idle with banks := [(1, { len := 16, loading := true })] }, .start 1 0 1 2), ({ idle with banks := [(1, { loading := true })] }, .bankLoad 0x1000 4 1)]
    let sum := fun (n : Nat) => ((full n).map (fun b => b.bytes.length)).foldl (· + ·) 0
    k.all (fun e => match (commanded e.1 e.2).cmdFor 1 0 0 with
      | some (id, c, x) => id == 7 && c.kind == e.2 && x.iq.length == e.1.iq.length && x.run == e.1.run
      | none => false) = true ∧ sum 63 + 4 ≤ 4096 ∧ 4096 < sum 64 + 4 := by decide +kernel

/-- Jobs that stop, that rest without a block in flight and over a channel on which nothing crosses, and that go on; a fetch that comes short and
one whose manifest word is poisoned. -/
theorem test_job_states : let s := carting false
    let j : Job := { allot := 1, stream := 0, rec' := jobOf false, flight := 1 }
    let keyed := s.modAllot 1 (fun y => { y with macsec := { y.macsec with keyed := true, sent := [(0, 2 ^ 64 - 2 ^ 32)] } })
    let up : State := { keyed with qps := [(3, { allot := 1, port := 0, isProtected := true, rkey := 0 })] }
    ({ j with stop := some .watchdog } : Job).stop = some .watchdog ∧ s.jobRests j = false ∧ s.jobRests { j with flight := 0 } = true ∧
      up.qpLive 1 3 = true ∧ up.crosses 3 = false ∧ up.jobRests j = true ∧ s.crosses 3 = true ∧
      ({ s with poison := [0x1000] } : State).poisonedVa 1 0x1000 4 = true ∧ ([0] : List Byte).length < (jobOf false).blockLen 0 := by
  decide +kernel

/-- A holder that its budget holds, one without work, a core without a holder, and what holds a switch up. -/
theorem test_turns_more : let s := fun (run : RunState) => { shared .idle 5 true with ctxs := [(ctxKey 1 0, { prog lo with run := run }), (ctxKey 2 0, prog lo)] }
    let held := { s .running with allots := [(1, { shared := [0], held := true }), (2, { shared := [0] })] }
    let free : State := { s .running with cores := [(0, {})] }
    held.budgetHeld 1 = true ∧ held.hasWork 1 0 = true ∧ held.nextTurn 0 (some 1) = some 2 ∧ (s .halted).hasWork 1 0 = false ∧ (s .halted).budgetHeld 1 = false ∧
      (s .halted).nextTurn 0 (some 1) = some 2 ∧ free.sharedCore 0 = true ∧ (free.core 0).phase = .idle ∧ (free.core 0).resident = none ∧
      free.nextTurn 0 none = some 1 ∧ (shared .idle 5 false).nextTurn 0 (some 1) = none ∧
      ({ prog lo with run := .stopping .ok, wdStop := true } : Ctx).wdStop = true := by decide +kernel

/-- A watchdog's core in a held ward and not, and programs in every state of their run. -/
theorem test_watchdog_cores : let s := fun (run : RunState) => held { prog lo with run := run } 0 0
    ([.halted, .running, .stopping .hazard] : List RunState).all (fun r => decide ((s r).ctx? 1 0 = some { prog lo with run := r })) = true ∧
      ((s .running).setReg 0x1210 9 1).wardHeld (0 / 32) = true ∧ (s .running).wardHeld (0 / 32) = false ∧ (RunState.running ≠ .halted) := by
  decide +kernel

/-- Changes of a page's attributes: by whom they may not be made, at once, and behind a use and an earlier request. -/
theorem test_page_changes : let p : PageAttrs := { r := true, w := false, draw := false, frozen := false, tag := true, scrub := true }
    let s : State := { dev [(0x3101, 1, 1), (0x3101, 7, 1), (0x1122, 1, 5)] with hbmPages := [(hbmKey 1 0x200000, {})], sessions := [(0, tenant 0)] }
    let r : Removal := { allot := 1, va := 0x200000, len := 0x200000, kind := .page none }
    s.pageOf 1 0x200000 = some {} ∧ s.mayChange 0 1 0x200000 = true ∧ s.attrsOk 1 p = true ∧ takesRight {} p = true ∧ s.inUse 1 0x200000 0x200000 = false ∧
      s.removals = [] ∧ ({ s with removals := [r] } : State).removals.any (fun r => r.allot == 1 && r.va == 0x200000) = true ∧
      s.mayChange 0 1 0x400000000000 = false ∧ s.pageOf 1 0x400000 = none ∧ (s.session 0).isSome = true := by decide +kernel

/-- A host port that an apply disables, while it is on and dark, and enables before and from phase 6 on; a session without any right. -/
theorem test_port_applies : let s := fun (v st ph : Nat) => withRegs (asked [(0x2004, 2, st)] [(0x2004, 1, v)]) [(0x1300, 2, ph)]
    (s 0 2 7).mayApply 0 0x2004 0x0D = true ∧ (s 0 2 7).applying 0 0x2004 1 = 0 ∧ (s 0 2 7).portReg 3 2 ≠ 0 ∧ (s 0 0 7).portReg 3 2 = 0 ∧
      (s 1 0 5).answers = true ∧ (s 1 0 5).applying 0 0x2004 1 ≠ 0 ∧ (s 1 0 5).reg 0x1300 2 < 6 ∧ 6 ≤ (s 1 0 6).reg 0x1300 2 ∧
      (s 1 0 5).sessionIdle 0 = true ∧
      (let t : State := { dev [] with sessions := [(0, { oper with oper := false })] }
       ([(0x1200, 5), (0x20F0, 6), (0x1210, 0x0D), (0x2100, 9), (0x2184, 1), (0x2001, 0x0D), (0x2004, 0x0D), (0x1201, 4), (0x1204, 4)] : List (Nat × Nat)).all
         (fun e => !t.mayApply 0 e.1 e.2) && (t.session 0).isSome) = true := by decide +kernel

/-- A slot that is sealed or cleared while an earlier seal or clear is under way, and one whose .03 to .05 are fixed. -/
theorem test_well_joins : let s : State := { asked [(0x3202, 1, 1)] [] with wells := [(1, { frames := [7], sealers := [(0, .ok)], clearers := [(0, .ok)] })] }
    (s.wellSlot 1).sealers ≠ [] ∧ ((dev []).wellSlot 1).sealers = [] ∧ s.wellBusy 1 = true ∧ (dev []).wellBusy 1 = false ∧ s.wellFixed 1 = false ∧
      (dev [(0x3202, 1, 2)]).wellFixed 1 = true := by decide +kernel

/-- A write that would clear the only operator key, a token under no nonce, and a device without power. -/
theorem test_life_cycle_more : let s := dev [(0x1110, 4, 5), (0x1100, 1, 2)]
    s.session 0 = some oper ∧ s.mayApply 0 0x1110 4 = true ∧ s.reg 0x1110 4 ≠ 0 ∧ ([1, 2, 3] : List Nat).all (fun i => s.reg 0x1110 i == 0) = true ∧
      s.stripNonce = none ∧ s.mayApply 0 0x1102 3 = true ∧ s.sessionIdle 0 = true ∧ ({ s with power := .off } : State).power ≠ .running ∧
      ({ s with transition := true } : State).transition = true := by decide +kernel

/-- Sessions that answer, and that another operation waits on; power off; a session with a report's snapshot in an allotment under reset. -/
theorem test_sessions_more : let s := dev []
    s.talks = true ∧ ({ s with power := .off } : State).talks = false ∧ (dev [(0x1300, 2, 1)]).talks = false ∧ (dev [(0x1300, 2, 2)]).talks = true ∧
      s.up = true ∧ ({ s with sessions := [(0, { oper with alone := true })] } : State).sessionIdle 0 = false ∧ s.sessionIdle 0 = true ∧
      s.hears = true ∧ (dev [(0x1300, 2, 0xEE)]).hears = true ∧ s.heard .management = true := by decide +kernel

/-- Claims by sessions that are bound elsewhere, that have no authentication, and on a device that is not Finished; a scope of a session that is no
operator's; a channel's key before and after the first one, at the last association number. -/
theorem test_lych_more : (tenant 0).bound = some 1 ∧ (1 : Nat) ≠ 2 ∧ ({ oper with authed := false } : Session).authed = false ∧ (dev [(0x1100, 1, 1)]).lifeCycle ≠ 2 ∧
    ({ oper with oper := false } : Session).oper = false ∧ ({} : Macsec).keyed = false ∧ ({ keyed := true, an := 3 } : Macsec).an < 4 ∧
    ((3 + 1) % 4 = 0) := by decide +kernel

/-- A message beyond 65,536 bytes, a TXID under way, a value that its object clamps, and a field of a sealed slot. -/
theorem test_messages_more : let s := dev []
    maxSpdmMessage < 65537 ∧ (∃ m ∈ ({ oper with msgs := [{ txid := 7, todo := [], ready := [] }] } : Session).msgs, m.txid = 7) ∧
      plainObject 0x1200 1 = true ∧ s.mayAccess oper 0x1200 1 true = some .o ∧
      (match objDef 0x1200 1 with
        | some d => s.clampWrite oper .o d 0x1200 1 0 != 0 && decide (0 < 2 ^ (8 * d.ty.size))
        | none => false) = true ∧ s.mayAccess oper 0x1300 2 true = none ∧ (dev [(0x3202, 1, 2)]).sealedField 0x3202 4 = true := by decide +kernel

/-- Pairs that are lost, and packets on a port with a receive buffer that pauses; protected pairs of a keyed channel, with packet numbers left and
used up. -/
theorem test_port_packets : let q : Qp := { pair with isProtected := true, mtu := 256 }
    let m := fun (n : Nat) => ({ keyed := true, an := 3, sent := [(0, n)], old := [(2, 9)] } : Macsec)
    let s := fun (n : Nat) => ({ hosted 0 with qps := [(4095, q)] } : State).modAllot 1 (fun y => { y with macsec := m n })
    (hosted 0).liveQp 4094 = none ∧ (hosted 0).qps.find 4094 = none ∧ ({ hosted 0 with qps := [(4095, { pair with error := true })] } : State).liveQp 4095 = none ∧
      ({ hosted 0 with qps := [(4095, q)] } : State).liveQp 4095 = none ∧ ((s 0).setReg 0x2001 2 0).portUp 0 = false ∧
      (hosted 0).portReg 0 6 = 0 ∧ ((hosted 0).setReg 0x2001 6 1).portReg 0 6 ≠ 0 ∧
      (s (2 ^ 64 - 2 ^ 32 - 1)).qps.find 4095 = some q ∧ Tbl.get 0 ((s (2 ^ 64 - 2 ^ 32 - 1)).allot 1).macsec.sent 0 < 2 ^ 64 - 2 ^ 32 ∧
      2 ^ 64 - 2 ^ 32 ≤ Tbl.get 0 ((s (2 ^ 64 - 2 ^ 32)).allot 1).macsec.sent 0 ∧ ((s 0).allot 1).macsec.old.find 2 = some 9 ∧ (s 0).timer < 9 ∧
      (s 0).dropCode (.onChannel 0x101 2) = none ∧ (s 0).dropCode (.onChannel 0x101 1) = some (0x02, 1) ∧ (s 0).dropCode (.onChannel 0x102 3) = some (0x04, 2) ∧
      (s 0).dropCode .unsupported = some (0x05, 0) := by decide +kernel

/-- A frame at the port's own address, one of 4,224 bytes and one longer; a Carter job on a pair of a port that goes dark. -/
theorem test_port_frames : let f : NonRoce := { kind := .arp, target := (hosted 0).portReg 0 4, bytes := 4224 }
    f.bytes ≤ 4224 ∧ f.target = (hosted 0).portReg 0 (if f.kind = .arp ∨ f.kind = .icmpEcho then 4 else 5) ∧ ¬({ f with bytes := 4225 } : NonRoce).bytes ≤ 4224 ∧
      (let j : Job := { allot := 1, stream := 0, rec' := { jobOf false with qp := 4095 } }
       let s : State := { hosted 0 with jobs := [(0, j)] }
       j.larder = none ∧ j.rec'.qp ∈ (s.qps.filter (fun e => e.2.port == 0)).map Prod.fst) := by decide +kernel

/-- Evaluations 100 µs after the last and one nanosecond before; a phase that enables ports; a trip from both modes of power. -/
theorem test_power_more : let s := fun (t : Nat) => ({ dev [] with timer := t, throttleAt := some 5 } : State)
    (s 100004).timer < 5 + 100000 ∧ 5 + 100000 ≤ (s 100005).timer ∧ (s 0).power = .running ∧ (withRegs {} [(0x1300, 2, 5)]).phase = 5 ∧
      (withRegs {} [(0x1300, 2, 0)]).phase = 0 ∧ ({ s 0 with power := .clockHeld } : State).power = .clockHeld ∧ ([0, 0, 0, 0] : List Nat).length = 4 := by
  decide +kernel


/-! ### Statements and their witnesses

StepTakesFront, EmptyQueueTicks: test_tick. EveryStepAnswers, StepKeepsMemoryForm: test_step_answers. MemoryReadWrite: test_memory_form.
GangerWordRoundTrip: test_encode_fits. ScalarRegisters: test_registers. GangerArithmetic: test_due_arithmetic. GangerLoads: test_due_loads.
GangerStores: test_due_stores, test_accesses_stop, test_refused_tag_map, test_tag_map_accepted. GangerControl: test_due_control,
test_due_break, test_loops. GangerMarks: test_due_marks. GangerStatusRead: test_due_status. GangerPassRing: test_due_pass_ring.
GangerEpochs: test_due_epochs, test_epoch_release. GangerTally: test_due_tally. GangerTimerPostSwapHalt: test_due_timer_and_halt,
test_due_post, test_due_swap. GangerAddressFifo: test_due_addresses. GangerStops: test_due_stops, test_halt_completes. EngineIssue:
test_due_engines, test_due_epoch_ranges, test_issue_claims. LathLoads: test_lath_head, test_lath_waits, test_lath_refused, test_load_starts,
test_load_runs, test_lath_held. PassStarts: test_lath_head, test_pass_starts, test_lath_held, test_dot. PassCommits: test_pass_commits,
test_pass_ends. OutputStationary: test_os_starts, test_os_chunks, test_os_barred, test_split_applies. SkimmerOperations:
test_skimmer_starts, test_skimmer_held, test_skimmer_completes, test_skimmer_values. TrowelStarts: test_trowel_starts, test_trowel_held,
test_fabric_starts. TrowelMoves: test_rows_move, test_copy_completes. EveryPageChecked: test_pages_checked. MootOperations: test_moot_head,
test_moot_held, test_moot_budget, test_publish_starts. MootReduction: test_contrib_read, test_children, test_deadline, test_landing.
MootArrivals: test_moot_arrivals, test_group_lost. FabricTransfers: test_flits_taken, test_flits_strayed, test_tags. LinkStates:
test_link_states, test_hello, test_topology, test_resend, test_links_judged, test_applies, test_link_writes. CrierTakesRecords:
test_records, test_record_limits. CrierCommands: test_commands, test_commands_wait, test_bank_fills. CarterJobs: test_carter,
test_job_states. GreenRequests: test_green, test_retires, test_tag_map_store, test_green_applies. SharedTurns: test_turns, test_turns_more,
test_switches, test_meters. WatchdogAndFault: test_watchdog, test_watchdog_cores, test_pass_faults. PageCommands: test_pages,
test_page_changes, test_removals, test_spills. SettingsApply: test_applies, test_settings, test_port_applies, test_households, test_routes.
DefinitionsApply: test_applies, test_definitions, test_groups. CounterSnapshot: test_snapshot. LarderActions: test_larder_actions,
test_installs. LarderUpkeep: test_fills, test_install, test_fill_blocks, test_fill_complete, test_larder_jobs, test_withdrawal,
test_recheck. WellActions: test_applies, test_well, test_well_fits, test_well_joins, test_well_ends. LifeCycle: test_applies,
test_life_cycle, test_life_cycle_more, test_strip_nonce. SessionsAndReports: test_requests, test_reports, test_sessions_more. LychGate:
test_claims, test_lych_more, test_logs. FirmwareUpdates: test_firmware. LmpMessages: test_datagrams, test_messages, test_messages_more,
test_writes. RdmaRefused, RdmaServed: test_host_messages, test_doorbells, test_port_packets. HostPorts: test_connections, test_rates,
test_port_packets, test_port_frames. ResetKinds: test_resets. ClockLossAndBringUp: test_boot. ThrottlesAndHolds: test_wards,
test_power_more. ResetState, StatusChoice and GangerWordSamples have no hypotheses. -/

end Sys2Proof.Tests
end

section
/-! The statements of the scope: every step answers a next state, and the status that R9 reports. -/

namespace Sys2Proof.Machine

/-! ### Every step answers -/

/-- The outcome is a next state, neither a fault nor a refusal. -/
def IsNext (r : Res) : Prop := ∃ t, r = .next t

theorem isNext_next (t : State) : IsNext (.next t) := ⟨t, rfl⟩

section
variable (s : State) (sess : Nat)

/-! What the rows share answers a next state, when the row's own part does. -/

theorem ganger_isNext (c : Nat) (i : Instr) (f : Nat → Ctx → State) : IsNext (s.ganger c i f) := by
  fun_cases State.ganger s c i f <;> exact isNext_next _

theorem arrive_isNext (l : Nat) (h : FlitHdr) (kind ctx : Nat) (body : FlitBody) (here : State → State) :
    IsNext (s.arrive l h kind ctx body here) := by
  fun_cases State.arrive s l h kind ctx body here <;> exact isNext_next _

theorem lychOn_isNext (f : Session → State) : IsNext (s.lychOn sess f) := by
  fun_cases State.lychOn s sess f <;> exact isNext_next _

theorem askedAlone_isNext (r : State × Option Status) (idx sub : Nat) : IsNext (State.askedAlone r sess idx sub) := by
  fun_cases State.askedAlone r sess idx sub <;> exact isNext_next _

variable {s sess}

theorem onSession_isNext {r : Res} (h : IsNext r) : IsNext (s.onSession sess r) := by
  fun_cases State.onSession s sess r
  · exact isNext_next _
  · exact h

theorem rowOf_isNext {idx sub : Nat} {r : Res} (h : IsNext r) : IsNext (s.rowOf sess idx sub r) := by
  fun_cases State.rowOf s sess idx sub r
  · exact onSession_isNext h
  · exact isNext_next _
  · exact onSession_isNext (isNext_next _)
  · exact isNext_next _

variable (s sess)

theorem larderRow_isNext (k : Nat) : IsNext (s.larderRow sess k) := by
  apply rowOf_isNext
  repeat' split
  · exact isNext_next _
  · exact askedAlone_isNext ..
  · exact isNext_next _

theorem wellRow_isNext (slot k : Nat) : IsNext (s.wellRow sess slot k) := by
  apply rowOf_isNext
  repeat' split
  · exact isNext_next _
  · exact askedAlone_isNext ..
  · exact isNext_next _

theorem quotaRow_isNext (idx n v : Nat) : IsNext (s.quotaRow sess idx n v) := by
  apply rowOf_isNext
  split <;> exact isNext_next _

theorem fwApplied_isNext (k : Nat) : IsNext (s.fwApplied sess k) := by
  unfold State.fwApplied
  split
  · apply onSession_isNext
    split <;> exact isNext_next _
  · exact isNext_next _

/-! The rows that call one of these, or another row, in a branch of their own. -/

theorem execEndSession_isNext : IsNext (execEndSession sess s) := by
  unfold execEndSession
  split
  · exact onSession_isNext (isNext_next _)
  · exact isNext_next _

theorem execRegisterWrite_isNext (index : W16) (sub : Byte) (value : Nat) : IsNext (execRegisterWrite sess index sub value s) := by
  unfold execRegisterWrite
  split
  · apply onSession_isNext
    repeat' split
    all_goals exact isNext_next _
  · exact isNext_next _

theorem execCompletionConsumedWrite_isNext (qp stream : Nat) (n : W64) : IsNext (execCompletionConsumedWrite qp stream n s) := by
  fun_cases execCompletionConsumedWrite qp stream n s <;> exact isNext_next _

/-- A remote write of a count of consumed completions is that row's (spec/17 R496); every other branch is the row's own. -/
theorem execRdmaWriteInbound_isNext (qp : Nat) (rkey : W32) (va : W64) (data : List Byte) :
    IsNext (execRdmaWriteInbound qp rkey va data s) := by
  fun_cases execRdmaWriteInbound qp rkey va data s
  case case5 => exact execCompletionConsumedWrite_isNext ..
  all_goals exact isNext_next _

end

/-- Every command answers a next state. A row is a use of a shared operation, or every branch of its own ends in a next state: a command
that is not due leaves the state (log entry 3), and an illegal use of the Ganger hangs it (log entry 14). -/
theorem exec_isNext (i : Instr) (s : State) : IsNext (exec i s) := by
  cases i with
  | gAlu | gAddi | gAndi | gOri | gXori | gShi | gSlti | gMovk | gLdB | gLdH | gLdW | gLdD | gStB | gStH | gStW | gStD | gNld | gBCc | gJ | gLoop
  | gBrk | gWait | gMset | gMrd | gEsc | gPring | gProvOpen | gProvConfirm | gProvCancel | gTallyB | gTallyH | gTallyW | gTallyS | gTallyR
  | gTime | gPost | gSwap | gHalt | gAddr | gAddr2 | gangerIllegalWord | bankFetchPastImage | lLoad | lLoadT | lPass | lPasso | lSplit | sCvt
  | sFma | sExp | sSmax | sTopk | sRed | tCopy | tGather | tScatter | mContrib | mPublish =>
    exact ganger_isNext ..
  | partialCloseArrival | shardArrival | failFlitArrival | helloReceive | topologyReceive | openFlit | dataFlit | doneFlit | mootFlitOpen
  | mootFlitData | idleFlit =>
    dsimp only [exec, execPartialCloseArrival, execShardArrival, execFailFlitArrival, execHelloReceive, execTopologyReceive, execOpenFlit,
      execDataFlit, execDoneFlit, execMootFlitOpen, execMootFlitData, execIdleFlit]
    exact arrive_isNext ..
  | mootGroupApply | greenApply | allotmentApply | allotmentReset | pageAttributeRequest | counterSnapshot | fabricApply | routesApply
  | linkRetrain | linkEnableWrite | stripArm | stripToken | operatorKeyWrite | hostPortApply | commandedReset | powerApply | setpointApply
  | thermalApply | mgmtPortApply =>
    exact rowOf_isNext (isNext_next _)
  | larderPrefetch | larderPin | larderUnpin | larderEvict | larderAccept | larderWithdraw | larderInstall | larderQuery =>
    exact larderRow_isNext ..
  | wellFill | wellSeal | wellSwitch | wellClear | wellGeometryApply => exact wellRow_isNext ..
  | entryQuotaWrite | pageQuotaWrite => exact quotaRow_isNext ..
  | fwStage | fwActivate | fwCommit | fwDiscard => exact fwApplied_isNext ..
  | lychClaim | lychScope | lychKey | lychLog | lychRelease => exact lychOn_isNext ..
  | crierTakeRecord | doorbellWrite | submit | rightRemovalApply | flitBad | heartbeatMissed | oldAnExpiry | nonRoceFrame | powerOnReset
  | clockLoss | vergerFaultReset | powerLoss | thermalTrip | referenceClocksReturn | wellSealDigestRecorded | wellClearZeroingEnds =>
    exact isNext_next _
  | endSession => exact execEndSession_isNext ..
  | registerWrite => exact execRegisterWrite_isNext ..
  | completionConsumedWrite => exact execCompletionConsumedWrite_isNext ..
  | rdmaWriteInbound => exact execRdmaWriteInbound_isNext ..
  -- The other rows: a split along the branches of each.
  | _ =>
    dsimp only [exec, execLathQueueHead, execLoadStart, execLoadDone, execPassStart, execPassCommit, execSplitApply, execPassoStart,
      execOsChunkReady, execSkimmerQueueHead, execSkimmerOpComplete, execTransferCheck, execGatherRowMove, execTrowelOpComplete,
      execProvRangesRelease, execMootQueueHead, execContribReadDone, execNodeDeadlineExpiry, execBucketLanding, execDeferredLanding,
      execPublishStart, execGroupLost, execBankLoad, execBankLoadComplete, execStart, execStream, execHalt, execCoreHaltComplete, execCarterJob,
      execCarterBlockDone, execRetirePoll, execTagMapStoreApply, execTurnEnd, execSwitchOut, execSwitchRestore, execBudgetReached, execBudgetWindow,
      execWatchdogExpiry, execFault, execCoreMeterTick, execHbmMeterTick, execPageSpill, execPageReturn, execAllotmentResetDone, execFillComplete,
      execWithdrawalGraceExpiry, execCarryRecheckDone, execLinkSignalDetect, execLinkFecLock, execTrainingTimeout, execDownRetrainTimer,
      execLinkDown, execHelloTimer, execFlitReserved, execReplayTimeout, execEscapeTimeout, execTransferTagReuse, execStripNonceExpiry,
      execMakerDebugToken, execTestStationTransition, execKeyExchange, execChallenge, execGetMeasurements, execReportSigned, execLiveActivationDone,
      execLmpDatagram, execLmpAccessMessage, execRdmaCmConnect, execQpDisconnect, execRdmaReadInbound, execAtomicRequest, execUnacceptedFrame,
      execEcnMarkedPacket, execCnpReceived, execRateRecoveryTimer, execPfcPauseReceived, execHostPortDark, execHostPortLinkUp, execPinReset,
      execThrottleEval, execThermalSample, execStepRateMeasure, execBootPhaseComplete]
    repeat' split
    all_goals exact isNext_next _

theorem step_isNext (s : State) : IsNext (step s) := by
  fun_cases step s
  · exact isNext_next _
  · exact exec_isNext ..

/-- Settles O3: a step is a tick of the timer, or the effect of the command at the front of the queue. -/
theorem everyStepAnswers : Obligations.EveryStepAnswers := step_isNext

/-! ### The status reported (spec/00 R9) -/

/-- What stPick compares: the class first, then the code. -/
def stKey (st : Status) : Nat := stRank st * 16 + stCode st

theorem stPick_eq_ite (a b : Status) : stPick a b = if stKey a ≤ stKey b then a else b := rfl

theorem stCode_lt (st : Status) : stCode st < 16 := by cases st <;> decide

theorem stOfCode_stCode (st : Status) : stOfCode (stCode st) = some st := by cases st <;> rfl

/-- The order of the keys is the order of R9, since a code is less than 16. -/
theorem stKey_le_iff (a b : Status) : stKey a ≤ stKey b ↔ stRank a < stRank b ∨ (stRank a = stRank b ∧ stCode a ≤ stCode b) := by
  have ha := stCode_lt a
  have hb := stCode_lt b
  unfold stKey
  omega

/-- A fold of stPick gives its start or an element of the list. -/
theorem foldl_stPick_mem (l : List Status) (a : Status) : l.foldl stPick a ∈ a :: l := by
  induction l generalizing a with
  | nil => simp
  | cons b l ih =>
    rw [List.foldl_cons, stPick_eq_ite]
    split
    · exact List.cons_subset_cons a (List.subset_cons_self b l) (ih a)
    · exact List.mem_cons_of_mem a (ih b)

/-- A fold of stPick has the least key of its start and the list. -/
theorem stKey_foldl_stPick_le (l : List Status) (a : Status) : ∀ st ∈ a :: l, stKey (l.foldl stPick a) ≤ stKey st := by
  induction l generalizing a with
  | nil => simp
  | cons b l ih =>
    have h := ih (stPick a b)
    have hpick := h _ List.mem_cons_self
    have hab : stKey (stPick a b) ≤ stKey a ∧ stKey (stPick a b) ≤ stKey b := by
      rw [stPick_eq_ite]
      split <;> omega
    simp only [List.mem_cons, List.foldl_cons, forall_eq_or_imp] at h ⊢
    exact ⟨by omega, by omega, h.2⟩

/-- Settles O7: OK, the start of the fold, has the last class, so the least key among OK and the list is that of R9. -/
theorem statusChoice : Obligations.StatusChoice := by
  intro l
  refine ⟨List.mem_cons.mp (foldl_stPick_mem l .ok), fun st hst => ?_, stOfCode_stCode⟩
  exact (stKey_le_iff _ _).mp (stKey_foldl_stPick_le l .ok st (List.mem_cons_of_mem _ hst))

end Sys2Proof.Machine
end

section
/-! Organisation: a step on the empty queue is a tick of the device timer. -/

namespace Sys2Proof.Machine

/-! ### The device reset -/

/-- t differs from s in nothing but the objects and the routes. -/
def ObjectsFrame (s t : State) : Prop := t = { s with regs := t.regs, routes := t.routes }

theorem ObjectsFrame.refl (s : State) : ObjectsFrame s s := rfl

theorem ObjectsFrame.trans {s t u : State} (h : ObjectsFrame s t) (k : ObjectsFrame t u) : ObjectsFrame s u := by
  unfold ObjectsFrame at *
  rw [k, h]

theorem ObjectsFrame.ite {s t : State} (c : Prop) [Decidable c] (h : ObjectsFrame s t) : ObjectsFrame s (if c then t else s) := by
  split
  · exact h
  · exact .refl s

theorem setReg_objectsFrame (s : State) (idx sub v : Nat) : ObjectsFrame s (s.setReg idx sub v) := rfl

theorem foldl_setReg_objectsFrame {β : Type} (idx sub v : β → Nat) (l : List β) (s : State) :
    ObjectsFrame s (l.foldl (fun t e => t.setReg (idx e) (sub e) (v e)) s) := by
  induction l generalizing s with
  | nil => exact .refl s
  | cons e l ih => exact (setReg_objectsFrame s ..).trans (ih _)

theorem showStaged_objectsFrame (s : State) : ObjectsFrame s s.showStaged := rfl

/-- Apart from the objects and the routes, a reset leaves what it carries over, as the end of a transition and the settling of the boot flash
leave it, and every other field as it is after power-on (spec/18 R521, R522). -/
theorem deviceReset_eq (s : State) (mode : PowerMode) (cause : Nat) :
    let s1 := s.endTransition.settleFlash
    let t := s.deviceReset mode cause
    t = { pending := s1.pending, freeCtr := s1.freeCtr, out := s1.out, nextSess := s1.nextSess, power := mode, flash := s1.flash,
          components := s1.components, staged := s1.staged, seed := s1.seed, deviceCert := s1.deviceCert,
          regs := t.regs, routes := t.routes } := by
  have hboot (base : State) : ObjectsFrame base
      (if base.reg 0x2100 0x01 = 1 then base.setReg 0x2100 0x03 (base.reg 0x2100 0x02) else base) := .ite _ (setReg_objectsFrame ..)
  have hroutes (b : State) : ObjectsFrame b (if b.reg 0x2100 0x04 = 1 then
      b.routes.foldl (fun t e => t.setReg (0x2180 + e.1 / 128) (e.1 % 128 + 1) e.2) b else b) := .ite _ (foldl_setReg_objectsFrame ..)
  exact (((hboot _).trans (hroutes _)).trans (showStaged_objectsFrame _)).trans (setReg_objectsFrame _ 0x1300 0x03 cause)

theorem reg_cause_deviceReset (s : State) (mode : PowerMode) (cause : Nat) : (s.deviceReset mode cause).reg 0x1300 0x03 = cause :=
  State.reg_setReg_self ..

/-! ### The counts of waiting steps -/

/-- t differs from s in nothing but the counts of waiting steps of some allotments (spec/16 R468, .03 and .07) and what of them is hidden. -/
def WaitsFrame (s t : State) : Prop :=
  t = { s with regs := t.regs, perfHidden := t.perfHidden } ∧
    ∀ k, (∀ a, k ≠ objKey (0x6000 + a) 3 ∧ k ≠ objKey (0x6000 + a) 7) → t.regs.find k = s.regs.find k

theorem WaitsFrame.refl (s : State) : WaitsFrame s s := ⟨rfl, fun _ _ => rfl⟩

theorem WaitsFrame.trans {s t u : State} (h : WaitsFrame s t) (k : WaitsFrame t u) : WaitsFrame s u := by
  obtain ⟨ht, htregs⟩ := h
  obtain ⟨hu, huregs⟩ := k
  exact ⟨by rw [hu, ht], fun i hi => (huregs i hi).trans (htregs i hi)⟩

/-- A performance counter raised is one object changed, and for a confidential allotment what of it is hidden (spec/15 R458). -/
theorem perf_spec (s : State) (a sub n : Nat) :
    (s.perf a sub n).regs = s.regs.set (objKey (0x6000 + a) sub) ((s.reg (0x6000 + a) sub + n) % 2 ^ 64) ∧
      s.perf a sub n = { s with regs := (s.perf a sub n).regs, perfHidden := (s.perf a sub n).perfHidden } := by
  fun_cases State.perf s a sub n <;> exact ⟨rfl, rfl⟩

theorem perf_waitsFrame (s : State) (a n : Nat) {sub : Nat} (h : sub = 3 ∨ sub = 7) : WaitsFrame s (s.perf a sub n) := by
  obtain ⟨hregs, heq⟩ := perf_spec s a sub n
  refine ⟨heq, fun k hk => ?_⟩
  obtain ⟨h3, h7⟩ := hk a
  have hne : k ≠ objKey (0x6000 + a) sub := by
    rcases h with rfl | rfl
    · exact h3
    · exact h7
  rw [hregs, Tbl.find_set_ne _ _ hne]

/-- One core's part in the counts of waiting steps of a tick. -/
def State.countWaitsOf (s t : State) (e : Nat × Core) : State :=
  match e.2.resident with
  | none => t
  | some a => (t.perf a 3 (Config.waitSteps s.timer e.1 3)).perf a 7 (Config.waitSteps s.timer e.1 7)

theorem countWaits_eq_foldl (s : State) : s.countWaits = s.cores.foldl s.countWaitsOf s := rfl

theorem countWaitsOf_waitsFrame (s t : State) (e : Nat × Core) : WaitsFrame t (s.countWaitsOf t e) := by
  unfold State.countWaitsOf
  split
  · exact .refl t
  · exact (perf_waitsFrame t _ _ (.inl rfl)).trans (perf_waitsFrame _ _ _ (.inr rfl))

theorem foldl_countWaitsOf_waitsFrame (s : State) (l : Tbl Core) (t : State) : WaitsFrame t (l.foldl s.countWaitsOf t) := by
  induction l generalizing t with
  | nil => exact .refl t
  | cons e l ih => exact (countWaitsOf_waitsFrame s t e).trans (ih _)

theorem countWaits_waitsFrame (s : State) : WaitsFrame s s.countWaits := foldl_countWaitsOf_waitsFrame s s.cores s

/-- Without a resident allotment no core counts. -/
theorem foldl_countWaitsOf_eq_self (s t : State) (l : Tbl Core) (h : ∀ e ∈ l, e.2.resident = none) : l.foldl s.countWaitsOf t = t := by
  induction l with
  | nil => rfl
  | cons e l ih =>
    obtain ⟨he, hl⟩ := List.forall_mem_cons.mp h
    have hskip : s.countWaitsOf t e = t := by rw [State.countWaitsOf, he]
    rw [List.foldl_cons, hskip, ih hl]

theorem countWaits_eq_self (s : State) (h : ∀ e ∈ s.cores, e.2.resident = none) : s.countWaits = s :=
  foldl_countWaitsOf_eq_self s s s.cores h

theorem countWaits_transition (s : State) : s.countWaits.transition = s.transition := by rw [(countWaits_waitsFrame s).1]

/-! ### The tick -/

theorem step_of_pending_nil {s : State} (h : s.pending = []) : step s = .next s.tick := by rw [step, h]

theorem tick_of_not_running {s : State} (h : s.power ≠ .running) : s.tick = s := if_pos h

theorem tick_of_running {s : State} (h : s.power = .running) (ht : s.transition = false) :
    s.tick = ({ s with timer := s.timer + 1 } : State).countWaits := by
  simp [State.tick, h, countWaits_transition, ht]

theorem tick_of_transition {s : State} (h : s.power = .running) (ht : s.transition = true) :
    s.tick = (({ s with timer := s.timer + 1 } : State).countWaits).deviceReset .running 0x05 := by
  simp [State.tick, h, countWaits_transition, ht]

/-- Settles O2: the step is the tick, which while the device runs counts waiting steps alone, or ends a transition in a reset. -/
theorem emptyQueueTicks : Obligations.EmptyQueueTicks := by
  intro s hq
  rw [step_of_pending_nil hq]
  refine ⟨fun hp => ?_, fun hp ht => ?_, fun hp ht => ?_⟩
  · rw [tick_of_not_running hp]
  · rw [tick_of_running hp ht]
    obtain ⟨hframe, hregs⟩ := countWaits_waitsFrame { s with timer := s.timer + 1 }
    refine ⟨_, rfl, hframe, hregs, fun hres => ?_⟩
    rw [countWaits_eq_self { s with timer := s.timer + 1 } hres]
  · rw [tick_of_transition hp ht]
    refine ⟨_, rfl, ?_, reg_cause_deviceReset .., ?_, ?_, ?_⟩ <;> rw [deviceReset_eq]

end Sys2Proof.Machine
end

section
/-! The Skimmer: the head of its queue, the completion of an operation, and what its functions give (spec/02, spec/06). -/

namespace Sys2Proof.Machine

/-! ### Started operations that end -/

/-- t differs from s in nothing but the contexts and the allotments' own state. -/
def CtxFrame (s t : State) : Prop := t = { s with ctxs := t.ctxs, allots := t.allots }

theorem CtxFrame.refl (s : State) : CtxFrame s s := rfl

theorem CtxFrame.trans {s t u : State} (h : CtxFrame s t) (k : CtxFrame t u) : CtxFrame s u := by
  unfold CtxFrame at *
  rw [k, h]

theorem CtxFrame.mem {s t : State} (h : CtxFrame s t) : t.mem = s.mem := by rw [h]

theorem CtxFrame.poison {s t : State} (h : CtxFrame s t) : t.poison = s.poison := by rw [h]

theorem setCtx_ctxFrame (s : State) (a c : Nat) (x : Ctx) : CtxFrame s (s.setCtx a c x) := rfl

/-- The oldest started operation r, with those behind it, leaves the list and completes with a status. -/
def State.endSkim (s : State) (a c : Nat) (r : SkimRun) (rest : List SkimRun) (st : Status) : State :=
  (s.modCtx a c (fun x => { x with skims := rest })).engineDone a c .skimmer r.idx st r.q.mark

theorem endSkim_ctxFrame (s : State) (a c : Nat) (r : SkimRun) (rest : List SkimRun) (st : Status) :
    CtxFrame s (s.endSkim a c r rest st) := rfl

theorem ctx_endSkim (s : State) (a c : Nat) (r : SkimRun) (rest : List SkimRun) (st : Status) :
    (s.endSkim a c r rest st).ctx a c = (({ s.ctx a c with skims := rest } : Ctx).note .skimmer st r.idx).bumpMark r.q.mark := by
  change ((s.modCtx a c _).modCtx a c (fun x => (x.note .skimmer st r.idx).bumpMark r.q.mark)).ctx a c = _
  rw [State.modCtx, ctx_setCtx_self, State.modCtx, ctx_setCtx_self]

theorem drainSkims_ctxFrame (a c fuel : Nat) (s : State) : CtxFrame s (s.drainSkims a c fuel) := by
  induction fuel generalizing s with
  | zero => exact .refl s
  | succ fuel ih =>
    unfold State.drainSkims
    split
    · split
      · exact (endSkim_ctxFrame s a c ..).trans (ih _)
      · exact .refl s
    · exact .refl s

theorem perf_mem_poison (s : State) (a sub n : Nat) : (s.perf a sub n).mem = s.mem ∧ (s.perf a sub n).poison = s.poison := by
  rw [(perf_spec s a sub n).2]
  exact ⟨rfl, rfl⟩

/-- Nothing ends behind a running operation (spec/07 R202). -/
theorem drainSkims_of_running {s : State} {a c : Nat} {r : SkimRun} {rs : List SkimRun} (h : (s.ctx a c).skims = r :: rs)
    (hr : r.status = none) (fuel : Nat) : s.drainSkims a c fuel = s := by
  cases fuel <;> simp [State.drainSkims, h, hr]

/-- A refused operation that stands alone ends at once. -/
theorem drainSkims_of_refused {s : State} {a c : Nat} {r : SkimRun} {st : Status} (h : (s.ctx a c).skims = [r]) (hr : r.status = some st) :
    s.drainSkims a c 1 = s.endSkim a c r [] st := by
  simp [State.drainSkims, State.endSkim, h, hr]

/-- A completion changes nothing but the mark that it names, by one (spec/07 R210). -/
theorem Ctx.bumpMark_spec (x : Ctx) (m : Option Nat) :
    x.bumpMark m = { x with marks := (x.bumpMark m).marks } ∧ (∀ k, m = some k → (x.bumpMark m).mark k = x.mark k + 1) ∧
      (m = none → x.bumpMark m = x) := by
  cases m with
  | none => simp [Ctx.bumpMark]
  | some k => simp [Ctx.bumpMark, Ctx.setMark, Ctx.mark]

/-! ### The head of the queue (spec/06 R162) -/

/-- What the head of the Skimmer queue waits for before its checks: a free place, spilled pages, and in the Green the operations before
it. -/
def State.skimHeadWaits (s : State) (a : Nat) (x : Ctx) (q : QOp) : Bool :=
  decide (64 ≤ x.skims.length) ||
    (s.skPlan a q).any (fun p => (loftRuns (p.footprint.reads ++ p.footprint.writes)).any (fun r => s.spilledIn a r.1 (r.2 - r.1))) ||
    (s.isGreen a && x.skims.any (fun r => r.status == none))

/-- The state after a refusal of the head: it leaves the queue for its place in order, and completes once nothing stands before it. -/
def State.refuseSkim (s : State) (a c : Nat) (x : Ctx) (q : QOp) (st : Status) : State :=
  (s.setCtx a c (x.takeSkim q (some st) {})).drainSkims a c (x.skims.length + 1)

/-- The state after an accepted head of a footprint: it waits, is refused by checked mode, or starts. -/
def State.startSkim (s : State) (a c : Nat) (x : Ctx) (q : QOp) (fp : Footprint) : State :=
  if x.mustWait q fp || !x.boardRoom (s.windowOf a c) fp then s
  else if x.hazard (s.windowOf a c) .skimmer fp then (s.noteHazard a c).refuseSkim a c x q .hazard
  else (s.translate a c fp).setCtx a c (x.takeSkim q none fp)

section
variable {s : State} {core a : Nat} {x : Ctx} {q : QOp} {rest : List QOp}

/-- The row of the head, with its three ways named. -/
theorem execSkimmerQueueHead_cases (ho : s.onCore core = some (a, x)) (hq : x.skimQ = q :: rest) :
    (s.skimHeadWaits a x q = true → exec (.skimmerQueueHead core) s = .next s) ∧
    (s.skimHeadWaits a x q = false →
      (∀ st, s.skCheck a core x q = .error st → exec (.skimmerQueueHead core) s = .next (s.refuseSkim a core x q st)) ∧
      ∀ p, s.skCheck a core x q = .ok p → exec (.skimmerQueueHead core) s = .next (s.startSkim a core x q p.footprint)) := by
  -- The row writes its waits with a match and a filter.
  have hwaits : s.skimHeadWaits a x q = (decide (64 ≤ x.skims.length) ||
      (match s.skPlan a q with
        | none => false
        | some p => (loftRuns (p.footprint.reads ++ p.footprint.writes)).any (fun r => s.spilledIn a r.1 (r.2 - r.1))) ||
      (s.isGreen a && !(x.skims.filter (fun r => r.status == none)).isEmpty)) := by
    have hstarted : (!(x.skims.filter (fun r => r.status == none)).isEmpty) = x.skims.any (fun r => r.status == none) := by
      rw [Bool.eq_iff_iff]
      simp
    rw [hstarted, State.skimHeadWaits]
    cases s.skPlan a q <;> rfl
  change (_ → execSkimmerQueueHead core s = _) ∧
    (_ → (∀ st, _ → execSkimmerQueueHead core s = _) ∧ ∀ p, _ → execSkimmerQueueHead core s = _)
  unfold execSkimmerQueueHead
  rw [ho]
  dsimp only
  rw [hq]
  dsimp only
  refine ⟨fun hw => if_pos (hwaits ▸ hw), fun hw => ?_⟩
  have hgo := Bool.eq_false_iff.mp (hwaits ▸ hw)
  refine ⟨fun st hc => (if_neg hgo).trans ?_, fun p hc => (if_neg hgo).trans ?_⟩
  · rw [hc]
    rfl
  · rw [hc, State.startSkim]
    dsimp only
    split
    · rfl
    · split <;> rfl

/-- A refusal behind a running operation stands in the list of started ones. -/
theorem refuseSkim_of_running {r : SkimRun} {rs : List SkimRun} (h : x.skims = r :: rs) (hr : r.status = none) (st : Status) :
    s.refuseSkim a core x q st = s.setCtx a core (x.takeSkim q (some st) {}) := by
  apply drainSkims_of_running (r := r) (rs := rs ++ [{ idx := x.nextIndex .skimmer, q := q, status := some st, fp := {} }]) _ hr
  rw [ctx_setCtx_self, Ctx.takeSkim, h]
  rfl

/-- The context after a refusal that stands alone. -/
theorem ctx_refuseSkim_of_nil (h : x.skims = []) (st : Status) :
    (s.refuseSkim a core x q st).ctx a core =
      (({ x.takeIndex .skimmer with skimQ := takeIter x.skimQ, skims := [] } : Ctx).note .skimmer st
        (x.nextIndex .skimmer)).bumpMark q.mark := by
  have hone : ((s.setCtx a core (x.takeSkim q (some st) {})).ctx a core).skims =
      [{ idx := x.nextIndex .skimmer, q := q, status := some st, fp := {} }] := by
    rw [ctx_setCtx_self, Ctx.takeSkim, h]
    rfl
  rw [State.refuseSkim, h, List.length_nil, drainSkims_of_refused hone rfl, ctx_endSkim, ctx_setCtx_self]
  rfl

end

theorem refuseSkim_ctxFrame (s : State) (a c : Nat) (x : Ctx) (q : QOp) (st : Status) : CtxFrame s (s.refuseSkim a c x q st) :=
  (setCtx_ctxFrame s a c _).trans (drainSkims_ctxFrame a c _ _)

/-- t is u after the head q of the context x has been refused with a status while nothing was started (spec/07 R202, R210, R216). -/
def RefusedSkim (u t : State) (a core : Nat) (x : Ctx) (q : QOp) (st : Status) : Prop :=
  t.mem = u.mem ∧ t.poison = u.poison ∧ t.cores = u.cores ∧ t.regs = u.regs ∧
    (t.ctx a core).tub = x.tub ∧ (t.ctx a core).tiles = x.tiles ∧ (t.ctx a core).skims = [] ∧ (t.ctx a core).skimQ = takeIter x.skimQ ∧
    (t.ctx a core).est .skimmer = (x.est .skimmer).note st (x.nextIndex .skimmer) ∧
    (t.ctx a core).nextIndex .skimmer = (x.nextIndex .skimmer + 1) % 2 ^ 24 ∧
    (∀ m, q.mark = some m → (t.ctx a core).mark m = x.mark m + 1) ∧ (q.mark = none → (t.ctx a core).marks = x.marks)

theorem refuseSkim_of_nil (u : State) (a core : Nat) {x : Ctx} (q : QOp) (h : x.skims = []) (st : Status) :
    RefusedSkim u (u.refuseSkim a core x q st) a core x q st := by
  unfold RefusedSkim
  rw [ctx_refuseSkim_of_nil h, refuseSkim_ctxFrame u a core x q st]
  obtain ⟨hframe, hsome, hnone⟩ := Ctx.bumpMark_spec
    (({ x.takeIndex .skimmer with skimQ := takeIter x.skimQ, skims := [] } : Ctx).note .skimmer st (x.nextIndex .skimmer)) q.mark
  rw [hframe]
  refine ⟨rfl, rfl, rfl, rfl, rfl, rfl, rfl, rfl, Tbl.get_set_self .., Tbl.get_set_self .., hsome, fun hm => ?_⟩
  rw [hnone hm]
  rfl

/-- A row that answers with a refusal of the head: behind a running operation it waits its turn, alone it completes at once. -/
theorem exec_refuseSkim {s u : State} {core a : Nat} {x : Ctx} {q : QOp} {st : Status}
    (h : exec (.skimmerQueueHead core) s = .next (u.refuseSkim a core x q st)) :
    (∀ r0 rs, x.skims = r0 :: rs → r0.status = none →
      exec (.skimmerQueueHead core) s = .next (u.setCtx a core (x.takeSkim q (some st) {}))) ∧
    (x.skims = [] → ∃ t, exec (.skimmerQueueHead core) s = .next t ∧ RefusedSkim u t a core x q st) :=
  ⟨fun _ _ hs hr => by rw [h, refuseSkim_of_running hs hr], fun hs => ⟨_, h, refuseSkim_of_nil u a core q hs st⟩⟩

/-! ### Completion (spec/06 R156, R183) -/

/-- The oldest started operation completes with the writes of its result. -/
theorem exec_skimmerOpComplete {s : State} {core a : Nat} {x : Ctx} {r : SkimRun} {rest : List SkimRun} {p : SkPlan}
    (hres : s.resident core = some (a, x)) (hs : x.skims = r :: rest) (hr : r.status = none) (hpo : s.skPoison a r.fp = none)
    (hp : s.skPlan a r.q = some p) :
    exec (.skimmerOpComplete core) s =
      .next ((((s.skSteps a core (s.skRun a core x r.q p).steps).perf a 4 (32 * p.w)).endSkim a core r rest
        (if (s.skRun a core x r.q p).ev.tagRefusals = 0 then .ok else .tagRefused)).drainSkims a core rest.length) := by
  simp [exec, execSkimmerOpComplete, State.endSkim, hres, hs, hr, hpo, hp]

/-! ### Rounding (spec/02 R46, R57) -/

/-- Rounding to the nearest multiple: the distance is at most half a unit, and a tie goes to the even multiple. -/
theorem roundUnits_rne_nearest (r24 num den : Nat) (q : Int) (hden : 0 < den) :
    let u := num * pow2Den q
    let v := den * pow2Num q
    let n := roundUnits .rne r24 num den q
    2 * (n * v) ≤ 2 * u + v ∧ 2 * u ≤ 2 * (n * v) + v ∧ ((2 * (n * v) = 2 * u + v ∨ 2 * u = 2 * (n * v) + v) → n % 2 = 0) := by
  intro u v n
  have hv : 0 < v := Nat.mul_pos hden (Nat.two_pow_pos _)
  have hlt : u % v < v := Nat.mod_lt u hv
  have hdiv : u / v * v + u % v = u := Nat.div_add_mod' u v
  have hn : n = if v < 2 * (u % v) ∨ 2 * (u % v) = v ∧ u / v % 2 = 1 then u / v + 1 else u / v := by
    simp [n, u, v, roundUnits]
  clear_value u v n
  split at hn
  · rw [hn, add_one_mul]
    omega
  · rw [hn]
    omega

/-- Rounding towards zero: the largest multiple that does not exceed the value. -/
theorem roundUnits_rtz_floor (r24 num den : Nat) (q : Int) (hden : 0 < den) :
    let u := num * pow2Den q
    let v := den * pow2Num q
    let z := roundUnits .rtz r24 num den q
    z * v ≤ u ∧ u < (z + 1) * v :=
  have hv : 0 < den * pow2Num q := Nat.mul_pos hden (Nat.two_pow_pos _)
  ⟨Nat.div_mul_le_self .., (Nat.div_lt_iff_lt_mul hv).mp (Nat.lt_succ_self _)⟩

theorem placeInt_saturates (f : Fmt) (i : Int) :
    (placeInt f false i).1 = wrapNat f.bits (max (-(2 ^ (f.bits - 1))) (min (2 ^ (f.bits - 1) - 1) i)) := by
  have htop : (0 : Int) < 2 ^ (f.bits - 1) := by positivity
  unfold placeInt
  push_cast
  generalize (2 : Int) ^ (f.bits - 1) = top at *
  split
  · exact congrArg (wrapNat f.bits) (by omega)
  · split
    · exact congrArg (wrapNat f.bits) (by omega)
    · exact congrArg (wrapNat f.bits) (by omega)

theorem placeInt_wraps (f : Fmt) (i : Int) : (placeInt f true i).1 = wrapNat f.bits i := rfl

theorem convert_rat_of_isInt {f : Fmt} (hf : f.isInt = true) (m : RMode) (w : Bool) (r24 : Nat) (neg : Bool) (num den : Nat) :
    convert f m w r24 (.rat neg num den) =
      placeInt f w (if neg then -(roundUnits m r24 num den 0 : Nat) else (roundUnits m r24 num den 0 : Nat)) := by
  simp [convert, hf]

theorem convert_nan_of_isInt {f : Fmt} (hf : f.isInt = true) (m : RMode) (w : Bool) (r24 : Nat) : (convert f m w r24 .nan).1 = 0 := by
  simp [convert, hf]

theorem convert_nan_of_isFloat {f : Fmt} (hf : f.isInt = false) (m : RMode) (w : Bool) (r24 : Nat) :
    (convert f m w r24 .nan).1 = f.canonNan := by simp [convert, hf]

/-! ### Exact values and S.FMA (spec/06 R172, R173) -/

theorem Dy.units_exp (d : Dy) : d.units d.exp = if d.neg then -(d.mag : Int) else d.mag := by simp [Dy.units]

theorem Dy.units_ofUnits (z : Bool) (i e : Int) : (Dy.ofUnits z i e).units e = i := by
  refine (Dy.units_exp (Dy.ofUnits z i e)).trans ?_
  by_cases hi : i = 0
  · simp [Dy.ofUnits, hi]
  · simp only [Dy.ofUnits, hi, if_false, decide_eq_true_eq]
    split <;> omega

theorem Dy.units_mul (d e : Dy) : (d.mul e).units (d.exp + e.exp) = d.units d.exp * e.units e.exp := by
  refine (Dy.units_exp (d.mul e)).trans ?_
  rw [Dy.units_exp, Dy.units_exp]
  cases hd : d.neg <;> cases he : e.neg <;> simp [Dy.mul, hd, he]

theorem Dy.units_add (d e : Dy) : (d.add e).units (min d.exp e.exp) = d.units (min d.exp e.exp) + e.units (min d.exp e.exp) :=
  Dy.units_ofUnits ..

theorem exactOr_true (o : Option Val) : (exactOr true o).1 = .nan := by cases o <;> rfl

/-- The four functions of sums and products give a NaN for a NaN operand. -/
theorem fmaFn_nan (k : Nat) (u v w : Val) (hk : k < 4) (h : u = .nan ∨ v = .nan ∨ (k = 0 ∧ w = .nan)) : (fmaFn k u v w).1 = .nan := by
  have hnan : (u.isNan || v.isNan || (decide (k = 0) && w.isNan)) = true := by
    rcases h with rfl | rfl | ⟨rfl, rfl⟩ <;> simp [Val.isNan]
  match k with
  | 0 =>
    have : (u.isNan || v.isNan || w.isNan) = true := by simpa using hnan
    simp [fmaFn, this, nanProp]
  | 1 | 2 | 3 =>
    have : (u.isNan || v.isNan) = true := by simpa using hnan
    simp [fmaFn, this, exactOr_true]

/-! ### ISUM (spec/06 R176, R177) -/

theorem wrapNat_eq_of_modEq {n : Nat} {a b : Int} (h : a ≡ b [ZMOD (2 ^ n : Nat)]) : wrapNat n a = wrapNat n b := congrArg Int.toNat h

theorem sext_modEq (n x : Nat) : sext n x ≡ x [ZMOD (2 ^ n : Nat)] := by
  have hmod : ((x % 2 ^ n : Nat) : Int) ≡ x [ZMOD (2 ^ n : Nat)] := by
    rw [Int.natCast_mod]
    exact Int.mod_modEq _ _
  unfold sext
  split
  · exact hmod
  · simpa using hmod.sub_right ((2 ^ n : Nat) : Int)

theorem wrapNat_modEq (n : Nat) (i : Int) : (wrapNat n i : Int) ≡ i [ZMOD (2 ^ n : Nat)] := by
  rw [wrapNat, Int.toNat_of_nonneg (Int.emod_nonneg _ (by positivity))]
  exact Int.mod_modEq _ _

theorem Val.toInt_fin_ofInt (i : Int) : (Val.fin (Dy.ofInt i)).toInt = i := Dy.units_ofUnits false i 0

/-- A node of ISUM under the wrap policy adds modulo 2^32. -/
theorem redNode_isum_modEq (u v : Val) : (redNode .isum true u v).1.toInt ≡ u.toInt + v.toInt [ZMOD (2 ^ 32 : Nat)] := by
  have hnode : (redNode .isum true u v).1 = .fin (Dy.ofInt (sext 32 (wrapNat 32 (u.toInt + v.toInt)))) := rfl
  rw [hnode, Val.toInt_fin_ofInt]
  exact (sext_modEq 32 _).trans (wrapNat_modEq 32 _)

theorem length_pairUp (f : Val → Val → Val × Ev) (l : List Val) : (pairUp f l).1.length = (l.length + 1) / 2 := by
  fun_induction pairUp f l with
  | case1 u v t r q ih =>
    simp only [q, List.length_cons, ih]
    omega
  | case2 l hl =>
    match l with
    | [] => rfl
    | [_] => simp
    | u :: v :: t => exact absurd rfl (hl u v t)

section
variable {f : Val → Val → Val × Ev} {m : Int} (hf : ∀ u v, (f u v).1.toInt ≡ u.toInt + v.toInt [ZMOD m])
include hf

theorem sum_pairUp_modEq (l : List Val) : ((pairUp f l).1.map Val.toInt).sum ≡ (l.map Val.toInt).sum [ZMOD m] := by
  fun_induction pairUp f l with
  | case1 u v t r q ih => simpa [q, add_assoc] using (hf u v).add ih
  | case2 l hl => exact .refl _

/-- A tree of nodes that add modulo m gives the sum of its leaves modulo m, when its levels reach them all. -/
theorem treeLevels_modEq (fuel : Nat) (l : List Val) (hl : l.length ≤ 2 ^ fuel) :
    (treeLevels f fuel l).1.toInt ≡ (l.map Val.toInt).sum [ZMOD m] := by
  induction fuel generalizing l with
  | zero =>
    match l with
    | [] => rfl
    | [v] => simp [treeLevels]
    | u :: v :: t => simp at hl
  | succ fuel ih =>
    match l with
    | [] => rfl
    | [v] => simp [treeLevels]
    | u :: v :: t =>
      have hpairs : (pairUp f (u :: v :: t)).1.length ≤ 2 ^ fuel := by
        rw [length_pairUp]
        rw [pow_succ] at hl
        omega
      exact (ih _ hpairs).trans (sum_pairUp_modEq hf _)

end

theorem map_redLeaf_isum (l : List Val) : (l.map (redLeaf .isum)).map Prod.fst = l := by
  rw [List.map_map]
  exact List.map_id l

theorem redTree_isum_modEq (is : List Int) (hlen : is.length ≤ 256) :
    (redTree .isum true none (is.map (fun i => Val.fin (Dy.ofInt i)))).1.toInt ≡ is.foldl (· + ·) 0 [ZMOD (2 ^ 32 : Nat)] := by
  have htree := treeLevels_modEq redNode_isum_modEq 8 (is.map (fun i => Val.fin (Dy.ofInt i))) (by simpa using hlen)
  have hsum : ((is.map (fun i => Val.fin (Dy.ofInt i))).map Val.toInt).sum = is.foldl (· + ·) 0 := by
    rw [List.map_map, ← List.sum_eq_foldl, show Val.toInt ∘ (fun i => Val.fin (Dy.ofInt i)) = id from funext Val.toInt_fin_ofInt,
      List.map_id]
  rw [hsum] at htree
  simpa only [redTree, map_redLeaf_isum] using htree

/-! ### S.TOPK (spec/06 R178) -/

/-- The rational number that a dyadic value is. -/
def Dy.toRat (d : Dy) : ℚ := (if d.neg then -(d.mag : ℚ) else d.mag) * 2 ^ d.exp

theorem Dy.units_mul_pow (d : Dy) {e : Int} (h : e ≤ d.exp) : (d.units e : ℚ) * 2 ^ e = d.toRat := by
  have hexp : (2 : ℚ) ^ d.exp = 2 ^ (d.exp - e).toNat * 2 ^ e := by
    rw [← zpow_natCast, ← zpow_add₀ (by norm_num), Int.toNat_of_nonneg (by omega), sub_add_cancel]
  rw [Dy.toRat, hexp, Dy.units]
  cases d.neg <;> push_cast <;> simp [mul_assoc]

theorem Dy.lt_iff (d e : Dy) : d.lt e = true ↔ d.toRat < e.toRat := by
  rw [← d.units_mul_pow (min_le_left d.exp e.exp), ← e.units_mul_pow (min_le_right d.exp e.exp),
    mul_lt_mul_iff_of_pos_right (by positivity), Int.cast_lt]
  simp [Dy.lt]

/-- The order of ranks: NaN lowest, then minus infinity, the finite values, and plus infinity. -/
def rankKey : Val → ℕ ×ₗ ℚ
  | .nan => toLex (0, 0)
  | .inf neg => toLex (if neg then 1 else 3, 0)
  | .fin d => toLex (2, d.toRat)

/-- A value ranks before another when its key is larger: the ranks are a linear preorder, in which +0 and -0 are equal. -/
theorem ranksBefore_iff (u v : Val) : ranksBefore u v = true ↔ rankKey v < rankKey u := by
  cases u with
  | nan => cases v <;> simp [ranksBefore, Val.isNan, rankKey, Prod.Lex.toLex_lt_toLex]
  | inf n => cases n <;> rcases v with _ | (_ | _) | _ <;> simp [ranksBefore, Val.isNan, Val.lt, rankKey, Prod.Lex.toLex_lt_toLex]
  | fin d =>
    rcases v with _ | (_ | _) | e <;> simp [ranksBefore, Val.isNan, Val.lt, rankKey, Prod.Lex.toLex_lt_toLex, Dy.lt_iff]

theorem ranksBefore_eq_false_iff (u v : Val) : ranksBefore u v = false ↔ rankKey u ≤ rankKey v := by
  rw [← not_lt, ← ranksBefore_iff, Bool.not_eq_true]

/-- No value of the list ranks before one that stands ahead of it. -/
def Ranked (l : List (Val × Nat)) : Prop := l.Pairwise (fun u v => ranksBefore v.1 u.1 = false)

theorem rankIn_perm (v : Val × Nat) (l : List (Val × Nat)) : (rankIn v l).Perm (v :: l) := by
  induction l with
  | nil => exact .refl _
  | cons w t ih =>
    unfold rankIn
    split
    · exact .refl _
    · exact (ih.cons w).trans (.swap v w t)

theorem rankIn_ranked (v : Val × Nat) {l : List (Val × Nat)} (h : Ranked l) : Ranked (rankIn v l) := by
  induction l with
  | nil => exact List.pairwise_singleton _ _
  | cons w t ih =>
    obtain ⟨hw, ht⟩ := List.pairwise_cons.mp h
    unfold rankIn
    split
    · next hvw =>
      rw [ranksBefore_iff] at hvw
      refine List.pairwise_cons.mpr ⟨fun z hz => ?_, h⟩
      rw [ranksBefore_eq_false_iff]
      rcases List.mem_cons.mp hz with rfl | hz
      · exact hvw.le
      · exact ((ranksBefore_eq_false_iff _ _).mp (hw z hz)).trans hvw.le
    · next hvw =>
      refine List.pairwise_cons.mpr ⟨fun z hz => ?_, ih ht⟩
      rcases List.mem_cons.mp ((rankIn_perm v t).mem_iff.mp hz) with rfl | hz
      · exact Bool.eq_false_of_not_eq_true hvw
      · exact hw z hz

/-- The whole row in rank order, with the columns. -/
def rankRow (row : List Val) : List (Val × Nat) := (row.zip (List.range row.length)).foldl (fun l v => rankIn v l) []

theorem topK_eq_take (k : Nat) (row : List Val) : topK k row = (rankRow row).take k := rfl

theorem foldl_rankIn_spec (vs l : List (Val × Nat)) (h : Ranked l) :
    (vs.foldl (fun l v => rankIn v l) l).Perm (vs ++ l) ∧ Ranked (vs.foldl (fun l v => rankIn v l) l) := by
  induction vs generalizing l with
  | nil => exact ⟨.refl _, h⟩
  | cons v vs ih =>
    obtain ⟨hperm, hranked⟩ := ih (rankIn v l) (rankIn_ranked v h)
    exact ⟨hperm.trans (((rankIn_perm v l).append_left vs).trans List.perm_middle), hranked⟩

theorem rankRow_perm (row : List Val) : (rankRow row).Perm row.zipIdx := by
  rw [rankRow, List.range_eq_range', ← List.zipIdx_eq_zip_range']
  simpa using (foldl_rankIn_spec row.zipIdx [] .nil).1

theorem rankRow_ranked (row : List Val) : Ranked (rankRow row) := (foldl_rankIn_spec _ [] .nil).2

theorem mem_rankRow (row : List Val) (e : Val × Nat) : e ∈ rankRow row ↔ row[e.2]? = some e.1 := by
  rw [(rankRow_perm row).mem_iff, List.mem_zipIdx_iff_getElem?]

/-- An element that is not taken ranks before none that is. -/
theorem topK_ranks_first (k : Nat) (row : List Val) {e : Val × Nat} (he : e ∈ topK k row) {i : Nat} {v : Val} (hv : row[i]? = some v)
    (hout : (v, i) ∉ topK k row) : ranksBefore v e.1 = false := by
  have hmem : (v, i) ∈ (rankRow row).take k ++ (rankRow row).drop k := by
    rw [List.take_append_drop]
    exact (mem_rankRow row (v, i)).mpr hv
  have hdrop : (v, i) ∈ (rankRow row).drop k := (List.mem_append.mp hmem).resolve_left hout
  have hranked : Ranked ((rankRow row).take k ++ (rankRow row).drop k) := by
    rw [List.take_append_drop]
    exact rankRow_ranked row
  obtain ⟨-, -, hacross⟩ := List.pairwise_append.mp hranked
  exact hacross e he (v, i) hdrop

theorem topK_spec (k : Nat) (row : List Val) :
    (topK k row).length = min k row.length ∧ (∀ e ∈ topK k row, row[e.2]? = some e.1) ∧ Ranked (topK k row) ∧
      (∀ e ∈ topK k row, ∀ i v, row[i]? = some v → (v, i) ∉ topK k row → ranksBefore v e.1 = false) := by
  refine ⟨?_, fun e he => ?_, (rankRow_ranked row).take, fun e he i v hv hout => topK_ranks_first k row he hv hout⟩
  · rw [topK_eq_take, List.length_take, (rankRow_perm row).length_eq, List.length_zipIdx]
  · exact (mem_rankRow row e).mp (List.mem_of_mem_take he)

/-! ### The softmax row (spec/06 R181) -/

section
variable {f : Val → Val → Val × Ev} {v : Val} (hf : (f v v).1 = v)
include hf

theorem pairUp_replicate : ∀ n : Nat, (pairUp f (List.replicate n v)).1 = List.replicate ((n + 1) / 2) v
  | 0 => rfl
  | 1 => rfl
  | n + 2 => by
    rw [show (n + 2 + 1) / 2 = (n + 1) / 2 + 1 by omega, List.replicate_succ, List.replicate_succ, pairUp, List.replicate_succ, hf,
      pairUp_replicate n]

/-- A tree over equal leaves that its node keeps gives that leaf. -/
theorem treeLevels_replicate (fuel n : Nat) : (treeLevels f fuel (List.replicate (n + 1) v)).1 = v := by
  induction fuel generalizing n with
  | zero => rfl
  | succ fuel ih =>
    match n with
    | 0 => rfl
    | n + 1 =>
      change (treeLevels f fuel (pairUp f (List.replicate (n + 2) v)).1).1 = v
      rw [pairUp_replicate hf, show (n + 2 + 1) / 2 = (n + 1) / 2 + 1 by omega, ih]

end

/-- The largest of two minus infinities, rounded, is minus infinity. -/
theorem redNode_max_ninf : (redNode .max false (.inf true) (.inf true)).1 = .inf true := by decide

theorem redTree_max_replicate_ninf (n : Nat) : (redTree .max false none (List.replicate (n + 1) (.inf true))).1 = .inf true := by
  have hleaves : ((List.replicate (n + 1) (Val.inf true)).map (redLeaf .max)).map Prod.fst = List.replicate (n + 1) (.inf true) := by
    simp [redLeaf]
  simpa only [redTree, hleaves] using treeLevels_replicate redNode_max_ninf 8 n

/-- A row without an admissible score: the maximum stays minus infinity, the sum stays, and every element is zero. -/
theorem smaxRow_none (n : Nat) (scale l : Val) :
    let r := smaxRow (List.replicate (n + 1) none) scale (.inf true) l false
    r.m = .inf true ∧ r.l = l ∧ r.c = Val.one ∧ r.p = List.replicate (n + 1) Val.zero.exact := by
  have hm : (minMax true (.inf true) (redTree .max false none (List.replicate (n + 1) (.inf true))).1).1 = .inf true := by
    rw [redTree_max_replicate_ninf]
    rfl
  simp [smaxRow, hm]

/-- Settles O28: the row's ways at the head and at completion, and the values that its functions give. -/
theorem skimmerOperations : Obligations.SkimmerOperations := by
  refine ⟨fun s core a x q rest ho hq => ?_, fun s core a x r rest p hres hs hr hpo hp => ?_, fun r24 num den q hden => ?_,
    fun f m r24 num den neg hf => ?_, fun f m w r24 hf => convert_nan_of_isFloat hf m w r24, fun d e g c => ?_, fmaFn_nan,
    fun is hlen => wrapNat_eq_of_modEq (redTree_isum_modEq is hlen), topK_spec, fun n scale l hn _ => ?_⟩
  · obtain ⟨hwait, hgo⟩ := execSkimmerQueueHead_cases ho hq
    refine ⟨hwait, fun st hw hc => exec_refuseSkim ((hgo hw).1 st hc), fun p hw hc => ?_⟩
    have hstart := (hgo hw).2 p hc
    refine ⟨fun hheld => ?_, fun hheld hz => exec_refuseSkim ?_, fun hheld hz => ⟨?_, rfl, rfl, rfl, rfl⟩⟩
    · rw [hstart, State.startSkim, if_pos hheld]
    · rw [hstart, State.startSkim, if_neg (Bool.eq_false_iff.mp hheld), if_pos hz]
    · rw [hstart, State.startSkim, if_neg (Bool.eq_false_iff.mp hheld), if_neg (Bool.eq_false_iff.mp hz)]
  · obtain ⟨hmem, hpoison⟩ := perf_mem_poison (s.skSteps a core (s.skRun a core x r.q p).steps) a 4 (32 * p.w)
    have hframe (u : State) (st : Status) : CtxFrame u ((u.endSkim a core r rest st).drainSkims a core rest.length) :=
      (endSkim_ctxFrame u a core r rest st).trans (drainSkims_ctxFrame a core _ _)
    exact ⟨_, exec_skimmerOpComplete hres hs hr hpo hp, (hframe _ _).mem.trans hmem, (hframe _ _).poison.trans hpoison, rfl⟩
  · exact ⟨roundUnits_rne_nearest r24 num den q hden, roundUnits_rtz_floor r24 num den q hden⟩
  · refine ⟨?_, ?_, fun w => convert_nan_of_isInt hf m w r24⟩
    · rw [convert_rat_of_isInt hf, placeInt_saturates]
    · rw [convert_rat_of_isInt hf, placeInt_wraps]
  · exact ⟨Dy.units_mul d e, Dy.units_add d e, rfl, rfl, rfl⟩
  · obtain ⟨n, rfl⟩ := Nat.exists_eq_add_of_lt hn
    rw [Nat.zero_add]
    exact smaxRow_none n scale l

end Sys2Proof.Machine
end

section
/-! The dot product of one output element: integer chains, and float chains with a NaN or of one product (spec/03). -/

namespace Sys2Proof.Machine

/-! ### Segments of a chain (spec/03 R66) -/

theorem segLen_pos (w : Fmt) : 0 < segLen w := by cases w <;> decide

theorem segLen_of_intChain {w f : Fmt} (h : intChain w f = true) : segLen w = 8 := by
  have hw : w.isInt = true := (Bool.and_eq_true_iff.mp h).1
  revert hw
  cases w <;> decide

section
variable {α : Type} {l : Nat}

theorem groups_nil (fuel : Nat) : groups l fuel ([] : List α) = [] := by cases fuel <;> rfl

/-- The segments, put together again, are the chain. -/
theorem flatten_groups (hl : 0 < l) {fuel : Nat} {ps : List α} (h : ps.length ≤ fuel) : (groups l fuel ps).flatten = ps := by
  induction fuel generalizing ps with
  | zero => rw [List.length_eq_zero_iff.mp (Nat.le_zero.mp h), groups_nil, List.flatten_nil]
  | succ fuel ih =>
    cases ps with
    | nil => rfl
    | cons p ps =>
      have hrest : ((p :: ps).drop l).length ≤ fuel := by
        rw [List.length_drop]
        omega
      rw [groups, List.flatten_cons, ih hrest, List.take_append_drop]

/-- A chain of at most one segment's length is one segment. -/
theorem groups_of_length_le {ps : List α} (hps : ps ≠ []) (h : ps.length ≤ l) : groups l ps.length ps = [ps] := by
  cases ps with
  | nil => exact absurd rfl hps
  | cons p ps => rw [List.length_cons, groups, List.take_of_length_le h, List.drop_of_length_le h, groups_nil]

theorem groups_ne_nil {ps : List α} (hps : ps ≠ []) : groups l ps.length ps ≠ [] := by
  cases ps with
  | nil => exact absurd rfl hps
  | cons p ps => exact List.cons_ne_nil _ _

end

/-- What every step of a fold keeps, and the step at one of its elements brings about, holds at its end. -/
theorem foldl_of_mem {α β : Type} {P : β → Prop} {f : β → α → β} {l : List α} {a : α} (hmem : a ∈ l) (ha : ∀ b, P (f b a))
    (hkeep : ∀ b c, P b → P (f b c)) (b : β) : P (l.foldl f b) := by
  obtain ⟨before, after, rfl⟩ := List.append_of_mem hmem
  rw [List.foldl_append, List.foldl_cons]
  exact List.foldlRecOn after f (ha _) (fun c hc d _ => hkeep c d hc)

theorem dot_nil (w f : Fmt) (wrap : Bool) (init : W32) : (dot w f wrap init []).acc = init := by
  unfold dot
  rw [List.length_nil, groups_nil]
  split <;> rfl

/-! ### Integer chains (spec/03 R73) -/

/-- The exact sum of the products of operand values. -/
def prodSum (ps : List (Val × Val)) : Int := (ps.map (fun p => p.1.toInt * p.2.toInt)).sum

theorem segInt_toInt (ps : List (Val × Val)) : segInt (ps.map (fun p => (p.1.toInt, p.2.toInt))) = prodSum ps := by
  rw [segInt, List.map_map, ← List.sum_eq_foldl]
  rfl

theorem prodSum_append (ps qs : List (Val × Val)) : prodSum (ps ++ qs) = prodSum ps + prodSum qs := by simp [prodSum]

theorem dot_of_intChain {w f : Fmt} (h : intChain w f = true) (wrap : Bool) (init : W32) (ps : List (Val × Val)) :
    dot w f wrap init ps = (groups 8 ps.length ps).foldl (fun o seg => intStep wrap o (prodSum seg)) ⟨init, .plain, 0, 0, false⟩ := by
  rw [dot, if_pos h, segLen_of_intChain h]
  simp only [segInt_toInt]

theorem ofNat_wrapNat (n : Nat) (i : Int) : BitVec.ofNat n (wrapNat n i) = BitVec.ofInt n i := by
  apply BitVec.eq_of_toInt_eq
  rw [BitVec.toInt_ofNat', BitVec.toInt_ofInt, ← Int.emod_bmod, (wrapNat_modEq n i).eq, Int.emod_bmod]

theorem acc_intStep_wrap (o : DotOut) (seg : Int) : (intStep true o seg).acc = o.acc + BitVec.ofInt 32 seg := by
  calc (intStep true o seg).acc = BitVec.ofNat 32 (wrapNat 32 (o.acc.toInt + seg)) := rfl
    _ = BitVec.ofInt 32 (o.acc.toInt + seg) := ofNat_wrapNat ..
    _ = o.acc + BitVec.ofInt 32 seg := by rw [BitVec.ofInt_add, BitVec.ofInt_toInt]

/-- The value saturates at the ends of INT32. -/
theorem toInt_acc_intStep_saturate (o : DotOut) (seg : Int) :
    (intStep false o seg).acc.toInt = max (-2147483648) (min 2147483647 (o.acc.toInt + seg)) := by
  have hacc : (intStep false o seg).acc = BitVec.ofInt 32 (max (-2147483648) (min 2147483647 (o.acc.toInt + seg))) := by
    rw [← ofNat_wrapNat]
    exact congrArg (BitVec.ofNat 32) (placeInt_saturates .int32 (o.acc.toInt + seg))
  rw [hacc]
  exact BitVec.toInt_ofInt_eq_self (by decide) (by omega) (by omega)

theorem acc_foldl_intStep_wrap (segs : List (List (Val × Val))) (o : DotOut) :
    (segs.foldl (fun o seg => intStep true o (prodSum seg)) o).acc = o.acc + BitVec.ofInt 32 (prodSum segs.flatten) := by
  induction segs generalizing o with
  | nil => simp [prodSum]
  | cons seg segs ih =>
    rw [List.foldl_cons, ih, acc_intStep_wrap, List.flatten_cons, prodSum_append, BitVec.ofInt_add, BitVec.add_assoc]

theorem acc_dot_wrap {w f : Fmt} (h : intChain w f = true) (init : W32) (ps : List (Val × Val)) :
    (dot w f true init ps).acc = init + BitVec.ofInt 32 (prodSum ps) := by
  rw [dot_of_intChain h, acc_foldl_intStep_wrap, flatten_groups (by decide) (le_refl _)]

theorem toInt_acc_dot_saturate {w f : Fmt} (h : intChain w f = true) (init : W32) {ps : List (Val × Val)} (hps : ps.length ≤ 8) :
    (dot w f false init ps).acc.toInt = max (-2147483648) (min 2147483647 (init.toInt + prodSum ps)) := by
  rcases eq_or_ne ps [] with rfl | hne
  · have hlo := BitVec.le_toInt init
    have hhi := BitVec.toInt_lt (x := init)
    rw [dot_nil, prodSum, List.map_nil, List.sum_nil]
    omega
  · rw [dot_of_intChain h, groups_of_length_le hne hps]
    exact toInt_acc_intStep_saturate ..

/-! ### Float chains (spec/03 R65, R68, R69, R74) -/

theorem isNan32_nan32 : isNan32 nan32 = true := by decide

theorem Seg.addProduct_nan (u v : Val) : Seg.addProduct .nan u v = .nan := rfl

theorem Seg.addProduct_of_nan (seg : Seg) {u v : Val} (h : u = .nan ∨ v = .nan) : seg.addProduct u v = .nan := by
  have hprod : u.mulE v = some .nan := by
    rcases h with rfl | rfl
    · rfl
    · cases u <;> rfl
  cases seg <;> simp [Seg.addProduct, hprod]

/-- A NaN among a segment's operands makes the segment NaN, before an invalid product too. -/
theorem segOf_of_nan {ps : List (Val × Val)} {p : Val × Val} (hp : p ∈ ps) (h : p.1 = .nan ∨ p.2 = .nan) : segOf ps = .nan := by
  fun_cases segOf ps with
  | case1 => exact absurd hp List.not_mem_nil
  | case2 u v =>
    rw [List.mem_singleton.mp hp] at h
    exact Seg.addProduct_of_nan _ h
  | case3 =>
    exact foldl_of_mem (P := (· = Seg.nan)) hp (fun seg => Seg.addProduct_of_nan seg h)
      (fun seg q hseg => hseg ▸ Seg.addProduct_nan q.1 q.2) _

theorem acc_floatStep_of_isNan (l : Nat) {o : DotOut} (h : isNan32 o.acc = true) (seg : Seg) : (floatStep l o seg).acc = nan32 := by
  unfold floatStep
  rw [if_pos h]
  cases seg <;> rfl

theorem acc_floatStep_nan (l : Nat) (o : DotOut) : (floatStep l o .nan).acc = nan32 := by
  unfold floatStep
  split <;> rfl

/-- The canonical NaN stays. -/
theorem acc_floatStep_keeps_nan (l : Nat) (o : DotOut) (seg : Seg) (h : o.acc = nan32) : (floatStep l o seg).acc = nan32 :=
  acc_floatStep_of_isNan l (h ▸ isNan32_nan32) seg

theorem dot_of_floatChain {w f : Fmt} (h : intChain w f = false) (wrap : Bool) (init : W32) (ps : List (Val × Val)) :
    dot w f wrap init ps =
      (groups (segLen w) ps.length ps).foldl (fun o seg => floatStep (segLen w) o (segOf seg)) ⟨init, .plain, 0, 0, false⟩ :=
  if_neg (Bool.eq_false_iff.mp h)

theorem acc_dot_of_init_nan {w f : Fmt} (h : intChain w f = false) (wrap : Bool) {init : W32} (hinit : isNan32 init = true)
    {ps : List (Val × Val)} (hps : ps ≠ []) : (dot w f wrap init ps).acc = nan32 := by
  obtain ⟨seg, segs, hsegs⟩ := List.exists_cons_of_ne_nil (groups_ne_nil (l := segLen w) hps)
  rw [dot_of_floatChain h, hsegs, List.foldl_cons]
  exact List.foldlRecOn (motive := fun o => DotOut.acc o = nan32) segs _ (acc_floatStep_of_isNan _ hinit _)
    (fun o ho s _ => acc_floatStep_keeps_nan _ o (segOf s) ho)

theorem acc_dot_of_nan {w f : Fmt} (h : intChain w f = false) (wrap : Bool) (init : W32) {ps : List (Val × Val)}
    (hps : ∃ p ∈ ps, p.1 = .nan ∨ p.2 = .nan) : (dot w f wrap init ps).acc = nan32 := by
  obtain ⟨p, hp, hnan⟩ := hps
  rw [← flatten_groups (segLen_pos w) (le_refl ps.length)] at hp
  obtain ⟨seg, hseg, hpseg⟩ := List.mem_flatten.mp hp
  rw [dot_of_floatChain h]
  refine foldl_of_mem (P := fun o => DotOut.acc o = nan32) hseg (fun o => ?_) (fun o s => acc_floatStep_keeps_nan _ o (segOf s)) _
  rw [segOf_of_nan hpseg hnan]
  exact acc_floatStep_nan ..

/-- A dyadic value taken apart into smaller units and formed again keeps its sign, of a zero too. -/
theorem Dy.ofUnits_units (d : Dy) (e : Int) : Dy.ofUnits d.neg (d.units e) e = ⟨d.neg, d.mag * 2 ^ (d.exp - e).toNat, e⟩ := by
  rw [Dy.ofUnits, Dy.units]
  generalize d.mag * 2 ^ (d.exp - e).toNat = m
  cases d.neg
  · simp
  · simpa using m.eq_zero_or_pos

theorem Dy.negZero_add (d : Dy) : Dy.add ⟨true, 0, 0⟩ d = ⟨d.neg, d.mag * 2 ^ d.exp.toNat, min 0 d.exp⟩ := by
  have hzero (e : Int) : Dy.units ⟨true, 0, 0⟩ e = 0 := by simp [Dy.units]
  have hexp : (d.exp - min 0 d.exp).toNat = d.exp.toNat := by omega
  rw [Dy.add, hzero, Int.zero_add, Bool.true_and, Dy.ofUnits_units, hexp]

/-- Minus zero, at which a segment of one product starts, leaves the product's rounding and its sign of zero. -/
theorem segRound_negZero_add (d : Dy) : segRound 1 (Dy.add ⟨true, 0, 0⟩ d) = segRound 1 d := by
  have hexact : (Val.fin ⟨d.neg, d.mag * 2 ^ d.exp.toNat, min 0 d.exp⟩).exact = (Val.fin d).exact := by
    have hnum : (min 0 d.exp).toNat = 0 := by omega
    have hden : (-min 0 d.exp).toNat = (-d.exp).toNat := by omega
    simp only [Val.exact, pow2Num, pow2Den, hnum, hden, pow_zero, mul_one]
  have hmag : d.mag * 2 ^ d.exp.toNat = 0 ↔ d.mag = 0 := by simp
  simp only [Dy.negZero_add, segRound, toF32, hexact, hmag]

theorem acc_dot_one {w f : Fmt} (h : intChain w f = false) (wrap : Bool) {init : W32} (hlen : segLen w = 1)
    (hinit : isNan32 init = false) (d e : Dy) :
    (dot w f wrap init [(.fin d, .fin e)]).acc = (addF32 init (segRound 1 (d.mul e)).1).1 := by
  rw [dot_of_floatChain h, hlen, ← segRound_negZero_add]
  change (floatStep 1 ⟨init, .plain, 0, 0, false⟩ (.sum (Dy.add ⟨true, 0, 0⟩ (d.mul e)))).acc = _
  rw [floatStep, if_neg (Bool.eq_false_iff.mp hinit)]

end Sys2Proof.Machine
end

section
/-! The Lath: the start of a pass, its wet face and the elements of a stream (spec/04, spec/05). -/

namespace Sys2Proof.Machine

/-! ### The wet face (spec/04 R103) -/

/-- The last result of a key stands in a table; a key without a result keeps its entry. -/
theorem find_foldl_set_elem (outs : List ElemOut) (t : Tbl TubElem) (k : Nat) :
    (outs.foldl (fun t o => t.set o.key o.elem) t).find k =
      ((outs.reverse.find? (fun o => o.key == k)).map ElemOut.elem).or (t.find k) := by
  induction outs using List.reverseRecOn with
  | nil => rfl
  | append_singleton outs o ih =>
    rw [List.foldl_append, List.foldl_cons, List.foldl_nil, Tbl.find_set, List.reverse_append, List.reverse_singleton,
      List.singleton_append, List.find?_cons, ih]
    by_cases hk : k = o.key
    · simp [hk]
    · simp [hk, beq_false_of_ne (Ne.symm hk)]

/-- A stream has a result for each of its rows and output columns. -/
theorem exists_mem_entOuts (s : State) (core a : Nat) (x : Ctx) (p : PassPlan) (e : PEnt) {m n : Nat} (hm : m < e.m) (hn : n < e.tile.n) :
    ∃ o ∈ s.entOuts a core x p e, o.key = tubKey e.lath (e.base + m / e.fold) (e.col0 + m % e.fold * (128 / e.fold) + n) ∧
      o.elem.v = (dot e.tile.fmt p.afmt p.wrap (if p.clear then 0 else (x.forwarded o.key).v)
        ((actVals p.afmt (s.actRow a core x p.afmt p.ablk e m).1).zip ((List.range e.k).map (fun k => e.tile.val k n)))).acc := by
  refine ⟨_, List.mem_flatMap.mpr ⟨m, List.mem_range.mpr hm, List.mem_map.mpr ⟨n, List.mem_range.mpr hn, rfl⟩⟩, rfl, ?_⟩
  have hcolumn : ((List.range e.tile.n).map (fun n => (List.range e.k).map (fun k => e.tile.val k n))).getD n [] =
      (List.range e.k).map (fun k => e.tile.val k n) := by simp [hn]
  dsimp only [elemOut]
  rw [hcolumn]

/-! ### The start of a pass (spec/04 R97, R102) -/

section
variable (s : State) (core a : Nat) (x : Ctx) (q : QOp) (table : List Byte) (p : PassPlan) (chainWait : Bool)

/-- What the start of a pass waits for: the load that its swap needs, an output-stationary pass, slower passes ahead, ring use, a free
place, held ranges and room on the scoreboard. -/
def State.passHeld : Bool :=
  (p.swap && x.load != none) || x.startedPasses.any (fun r => r.passo) ||
    (decide (p.dEff < x.lastDEff) && !x.startedPasses.isEmpty) || (p.hawkFed && x.ringUse) || decide (192 ≤ x.lathStarted) ||
    x.mustWait q (p.footprint x q) || !x.boardRoom (s.windowOf a core) (p.footprint x q)

/-- A pass as it starts, before its operands are read. -/
def State.bareRun : PassRun :=
  { x.newPass q false table with
    steps := if p.used.isEmpty then 0 else x.q * maxRows p.ents * p.dEff
    clear := p.clear, chainWait := chainWait, throttled := s.wardThrottled (core / 32), dEff := p.dEff, fp := p.footprint x q }

/-- The results of a pass: those of the streams that run, and of those with rows and K = 0. -/
def State.passOuts : List ElemOut :=
  p.used.flatMap (s.entOuts a core x p) ++ (p.ents.filter (fun e => e.m != 0 && e.k == 0)).flatMap (s.entOuts a core x p)

/-- A started pass with its wet face. -/
def State.wetRun : PassRun :=
  ({ s.bareRun core x q table p chainWait with
      poisoned := s.passPoisoned a core x p
      poisonAt := (s.firstPoison a (p.footprint x q).reads).getD 0 } : PassRun).take (s.passOuts core a x p) (maskCol x p.ents)

/-- The context after a start: the pass stands behind the started ones, over the swapped weights. -/
def State.startPass : Ctx :=
  { x.takeLath.takePass.swapWeights p.swap with
    passes := x.passes ++ [s.wetRun core a x q table p chainWait]
    lastDEff := p.dEff
    swapAhead := x.swapAhead || (p.swap && !x.shadow.isEmpty) }

/-- The first page of a pass's operands that is spilled or no longer mapped. -/
def State.passGone : Option Nat := s.goneIn a (p.ents.flatMap (fun e => e.readRngs p.afmt p.ablk))

variable {s core a x q table p}

/-- The swap and the taking of the head and of the pass index change different fields. -/
theorem Ctx.swapWeights_takePass (x : Ctx) (swap : Bool) : x.takeLath.takePass.swapWeights swap =
    { x.takeLath.takePass with active := (x.swapWeights swap).active, shadow := (x.swapWeights swap).shadow } := by
  cases swap <;> rfl

theorem startPass_eq : s.startPass core a x q table p chainWait =
    { x.takeLath.takePass with
      active := (x.swapWeights p.swap).active
      shadow := (x.swapWeights p.swap).shadow
      passes := x.passes ++ [s.wetRun core a x q table p chainWait]
      lastDEff := p.dEff
      swapAhead := x.swapAhead || (p.swap && !x.shadow.isEmpty) } := by
  rw [State.startPass, Ctx.swapWeights_takePass]

/-- The row of a pass, with its four ways named: it waits, ends with HAZARD, takes the fault, or starts. -/
theorem execPassStart_cases (hready : s.lathReady core = some (a, x, q, table)) (hop : q.op = 3) (hshape : x.passShape q table = .ok p) :
    (s.passHeld core a x q p = true → exec (.passStart core chainWait) s = .next s) ∧
    (s.passHeld core a x q p = false →
      (x.hazard (s.windowOf a core) .lath (p.footprint x q) = true →
        exec (.passStart core chainWait) s = .next (s.refusePass a core x q false table .hazard)) ∧
      (x.hazard (s.windowOf a core) .lath (p.footprint x q) = false →
        (∀ va, s.passGone a p = some va →
          exec (.passStart core chainWait) s = .next (s.faultAtStart a core x (s.bareRun core x q table p chainWait) va)) ∧
        (s.passGone a p = none → exec (.passStart core chainWait) s =
          .next ((s.translate a core (p.footprint x q)).setCtx a core (s.startPass core a x q table p chainWait))))) := by
  have hexec : exec (.passStart core chainWait) s =
      if s.passHeld core a x q p then .next s
      else if x.hazard (s.windowOf a core) .lath (p.footprint x q) then .next (s.refusePass a core x q false table .hazard)
      else match s.passGone a p with
        | some va => .next (s.faultAtStart a core x (s.bareRun core x q table p chainWait) va)
        | none => .next ((s.translate a core (p.footprint x q)).setCtx a core (s.startPass core a x q table p chainWait)) := by
    change execPassStart core chainWait s = _
    unfold execPassStart
    rw [hready]
    dsimp only
    rw [if_neg (not_not.mpr hop), hshape]
    rfl
  rw [hexec]
  refine ⟨fun h => if_pos h, fun h => ?_⟩
  rw [if_neg (Bool.eq_false_iff.mp h)]
  refine ⟨fun hz => if_pos hz, fun hz => ?_⟩
  rw [if_neg (Bool.eq_false_iff.mp hz)]
  exact ⟨fun va hgone => by rw [hgone], fun hgone => by rw [hgone]⟩

end

theorem Ev.zero_add (e : Ev) : Ev.add {} e = e := by simp [Ev.add]

/-- Settles O25: the ways of the row, what stands after a start, and the values that dot gives. -/
theorem passStarts : Obligations.PassStarts := by
  refine ⟨fun s core a x q table p chainWait hready hop hshape => ?_, fun s core a x p e => ⟨fun run outs col k => ?_, fun m n hm hn => ?_⟩,
    fun w f init ps => ?_⟩
  · obtain ⟨hwait, hgo⟩ := execPassStart_cases chainWait hready hop hshape
    refine ⟨hwait, fun hheld hz => (hgo hheld).1 hz, fun va hheld hz hgone => ⟨_, ((hgo hheld).2 hz).1 va hgone, rfl, rfl⟩,
      fun hheld hz hgone => ⟨_, s.wetRun core a x q table p chainWait, ((hgo hheld).2 hz).2 hgone, ?_⟩⟩
    rw [startPass_eq]
    refine ⟨rfl, rfl, rfl, Ev.zero_add _, Nat.zero_add _, rfl, rfl, rfl, rfl, rfl, rfl, rfl, rfl, rfl, rfl, rfl, rfl, rfl, fun hswap => ?_,
      fun hswap => ?_, rfl, rfl, rfl⟩
    · rw [hswap]
      exact ⟨rfl, rfl⟩
    · rw [hswap]
      rfl
  · refine (find_foldl_set_elem outs run.wet k).trans ?_
    cases outs.reverse.find? (fun o => o.key == k) <;> rfl
  · exact exists_mem_entOuts s core a x p e hm hn
  · rw [← List.sum_eq_foldl]
    exact ⟨fun wrap => dot_nil w f wrap init, fun h => acc_dot_wrap h init ps, fun h hps => toInt_acc_dot_saturate h init hps,
      fun wrap h hinit hps => acc_dot_of_init_nan h wrap hinit hps, fun wrap h hnan => acc_dot_of_nan h wrap init hnan,
      fun wrap d e hlen h hinit => acc_dot_one h wrap hlen hinit d e⟩

end Sys2Proof.Machine
end

section
/-! The Lath queue: its head, what a refusal leaves, and weight loads from start to mark (spec/04, spec/05, spec/07). -/

namespace Sys2Proof.Machine

/-- A second value set for an entry replaces the first. -/
theorem Tbl.set_set {α : Type} (t : Tbl α) (a : Nat) (v w : α) : (t.set a v).set a w = t.set a w := by
  induction t with
  | nil => simp [Tbl.set]
  | cons e t ih =>
    obtain ⟨k, u⟩ := e
    by_cases hlt : a < k
    · simp [Tbl.set, hlt]
    · by_cases heq : k = a
      · simp [Tbl.set, heq]
      · simp [Tbl.set, hlt, heq, ih]

theorem State.setCtx_setCtx (s : State) (a c : Nat) (x y : Ctx) : (s.setCtx a c x).setCtx a c y = s.setCtx a c y := by
  simp only [State.setCtx, Tbl.set_set]

/-! ### The head of the queue (spec/04 R100, spec/07 R202) -/

section
variable {s : State} {core a : Nat} {x : Ctx} {q : QOp} {rest : List QOp}

/-- A head that is not checked yet waits, is accepted, or is refused. -/
theorem execLathQueueHead_unchecked (ho : s.onCore core = some (a, x)) (hq : x.lathQ = q :: rest) (hh : x.lathHead = none) :
    (s.lathHeld a core x q = true → exec (.lathQueueHead core) s = .next s) ∧
    (s.lathHeld a core x q = false →
      (s.lathRefusal a core x q (s.splitTable a core x q) = none → exec (.lathQueueHead core) s =
        .next ((s.translate a core { reads := x.headReads q }).setCtx a core { x with lathHead := some { table := s.splitTable a core x q } })) ∧
      ∀ st, s.lathRefusal a core x q (s.splitTable a core x q) = some st → exec (.lathQueueHead core) s =
        .next ((s.translate a core { reads := x.headReads q }).refuseHead a core x q (s.splitTable a core x q) st)) := by
  change (_ → execLathQueueHead core s = _) ∧ (_ → (_ → execLathQueueHead core s = _) ∧ ∀ st, _ → execLathQueueHead core s = _)
  unfold execLathQueueHead
  rw [ho]
  dsimp only
  rw [hq]
  dsimp only
  rw [hh]
  dsimp only
  refine ⟨fun hheld => if_pos hheld, fun hheld => ?_⟩
  rw [if_neg (Bool.eq_false_iff.mp hheld)]
  exact ⟨fun hr => by rw [hr], fun st hr => by rw [hr]⟩

/-- A head that has been checked waits: for its start, or, refused, for its place. -/
theorem execLathQueueHead_checked {h : LathHead} (ho : s.onCore core = some (a, x)) (hq : x.lathQ = q :: rest)
    (hh : x.lathHead = some h) :
    (h.refused = none → exec (.lathQueueHead core) s = .next s) ∧
    ∀ st, h.refused = some st → exec (.lathQueueHead core) s =
      if x.lathTurn then .next (s.refuseLath a core x q h.table st) else .next s := by
  change (_ → execLathQueueHead core s = _) ∧ ∀ st, _ → execLathQueueHead core s = _
  unfold execLathQueueHead
  rw [ho]
  dsimp only
  rw [hq]
  dsimp only
  rw [hh]
  dsimp only
  exact ⟨fun hr => by rw [hr], fun st hr => by rw [hr]⟩

/-- The three reasons for which the checks of the head wait. -/
theorem lathHeld_eq_true_iff : s.lathHeld a core x q = true ↔
    s.lathSpilled a core x q = true ∨ 192 ≤ x.lathStarted ∨ x.mustWait q { reads := x.headRngs q (s.splitTable a core x q) } = true := by
  simp [State.lathHeld, or_assoc]

end

/-! ### What a refusal leaves (spec/04 R96, R112, R113) -/

/-- The marking of a refused load shows on the sub-array that it names (spec/04 R96). -/
theorem find_shadow_markShadow (x : Ctx) {sub : Nat} (st : Status) (h : sub < x.q * x.q) :
    (x.markShadow sub st).shadow.find sub = some (.invalid st) := by simp [Ctx.markShadow, h]

/-- The context after a load is refused: the head taken, its shadow marked, its status noted and its mark incremented. -/
def Ctx.refusedLoad (x : Ctx) (q : QOp) (st : Status) : Ctx :=
  ((x.takeLath.markShadow q.loadSub st).note .lath st (x.nextIndex .lath)).bumpMark q.mark

/-- The context after a split or a reserved operation is refused. -/
def Ctx.refusedOther (x : Ctx) (q : QOp) (st : Status) : Ctx := (x.takeLath.note .lath st (x.nextIndex .lath)).bumpMark q.mark

theorem Ctx.refusedLoad_eq (x : Ctx) (q : QOp) (st : Status) : x.refusedLoad q st =
    { x.takeLath with
      shadow := (x.markShadow q.loadSub st).shadow
      estat := x.estat.set (engineNo .lath) ((x.est .lath).note st (x.nextIndex .lath))
      marks := (x.bumpMark q.mark).marks } := by
  have hshadow : x.takeLath.markShadow q.loadSub st = { x.takeLath with shadow := (x.markShadow q.loadSub st).shadow } := rfl
  rw [Ctx.refusedLoad, hshadow]
  cases q.mark <;> rfl

theorem Ctx.refusedOther_eq (x : Ctx) (q : QOp) (st : Status) : x.refusedOther q st =
    { x.takeLath with
      estat := x.estat.set (engineNo .lath) ((x.est .lath).note st (x.nextIndex .lath))
      marks := (x.bumpMark q.mark).marks } := by
  rw [Ctx.refusedOther]
  cases q.mark <;> rfl

/-- The marks after a completion: the one named is incremented by one, and without one they stay (spec/07 R210). -/
theorem Ctx.marks_bumpMark (x : Ctx) (m : Option Nat) :
    (∀ k, m = some k → Tbl.get 0 (x.bumpMark m).marks k = x.mark k + 1) ∧ (m = none → (x.bumpMark m).marks = x.marks) := by
  obtain ⟨-, hbump, hkeep⟩ := x.bumpMark_spec m
  exact ⟨hbump, fun h => congrArg Ctx.marks (hkeep h)⟩

section
variable (s : State) (a c : Nat) (x : Ctx) {q : QOp} (table : List Byte) {st : Status}

theorem refuseLath_load (hop : q.op = 1 ∨ q.op = 2) (hst : st ≠ .hazard) :
    s.refuseLath a c x q table st = (s.setCtx a c (x.refusedLoad q st)).petWatchdog a := by
  have hload : s.refuseLath a c x q table st = s.refuseLoad a c x q st := by
    rcases hop with h | h <;> rw [State.refuseLath, h] <;> rfl
  rw [hload, State.refuseLoad, if_neg hst]
  rfl

theorem refuseLath_pass (hop : q.op = 3 ∨ q.op = 4) :
    s.refuseLath a c x q table st = s.refusePass a c x q (q.op == 4) table st := by
  rcases hop with h | h <;> rw [State.refuseLath, h] <;> rfl

theorem refuseLath_other (h1 : q.op ≠ 1) (h2 : q.op ≠ 2) (h3 : q.op ≠ 3) (h4 : q.op ≠ 4) :
    s.refuseLath a c x q table st = (s.setCtx a c (x.refusedOther q st)).petWatchdog a := by
  rw [State.refuseLath]
  split
  · contradiction
  · contradiction
  · contradiction
  · contradiction
  · rfl

end

/-- Nothing completes behind a started pass (spec/07 R202). -/
theorem drainPasses_of_started {s : State} {a c : Nat} {p : PassRun} {ps : List PassRun} (h : (s.ctx a c).passes = p :: ps)
    (hp : p.status = none) (fuel : Nat) : s.drainPasses a c fuel = s := by
  cases fuel <;> simp [State.drainPasses, h, hp]

/-- A refused pass that stands alone, with no load ahead of it, writes its record and increments its mark (spec/04 R112). -/
theorem drainPasses_of_refused {s : State} {a c : Nat} {p : PassRun} {st : Status} (h : (s.ctx a c).passes = [p])
    (hp : p.status = some st) (hl : p.behindLoad = false) :
    s.drainPasses a c 1 = ((s.modCtx a c (fun x => { x with passes := [] })).writeRecord a c p st p.q.mark).petWatchdog a := by
  simp [State.drainPasses, h, hp, hl]

section
variable (s : State) (a c : Nat) (x : Ctx) (q : QOp) (passo : Bool) (table : List Byte) {st : Status}

/-- A pass that is refused, as it waits for its place in pass order. -/
def Ctx.refusedRun (st : Status) : PassRun := { x.newPass q passo table with status := some st }

/-- The context after a pass is refused: it stands behind those that have started. -/
def Ctx.refusedPass (st : Status) : Ctx := { x.takeLath.takePass with passes := x.passes ++ [x.refusedRun q passo table st] }

theorem refusePass_eq (hst : st ≠ .hazard) : s.refusePass a c x q passo table st =
    (s.setCtx a c (x.refusedPass q passo table st)).drainPasses a c (x.passes.length + 1) := by
  rw [State.refusePass, if_neg hst]
  dsimp only
  rw [List.length_append]
  rfl

/-- A pass that is refused behind a started one waits for its place. -/
theorem refusePass_of_started {p : PassRun} {ps : List PassRun} (hst : st ≠ .hazard) (h : x.passes = p :: ps) (hp : p.status = none) :
    s.refusePass a c x q passo table st = s.setCtx a c (x.refusedPass q passo table st) := by
  rw [refusePass_eq s a c x q passo table hst]
  refine drainPasses_of_started (p := p) (ps := ps ++ [x.refusedRun q passo table st]) ?_ hp _
  rw [ctx_setCtx_self, Ctx.refusedPass, h]
  rfl

/-- A pass that is refused when nothing runs ahead of it completes at once. -/
theorem refusePass_of_nil (hst : st ≠ .hazard) (h : x.passes = []) (hl : x.load = none) :
    s.refusePass a c x q passo table st =
      ((s.setCtx a c { x.refusedPass q passo table st with passes := [] }).writeRecord a c (x.refusedRun q passo table st) st
        q.mark).petWatchdog a := by
  have hone : ((s.setCtx a c (x.refusedPass q passo table st)).ctx a c).passes = [x.refusedRun q passo table st] := by
    rw [ctx_setCtx_self, Ctx.refusedPass, h]
    rfl
  have hahead : (x.refusedRun q passo table st).behindLoad = false := by
    change x.load.isSome = false
    rw [hl]
    rfl
  rw [refusePass_eq s a c x q passo table hst, h, List.length_nil, drainPasses_of_refused hone rfl hahead, State.modCtx,
    ctx_setCtx_self, State.setCtx_setCtx]
  rfl

end

/-! ### Weight loads (spec/04 R91 to R95) -/

/-- What the start of a load waits for: another load, ring use, a free place, held ranges and room on the scoreboard. -/
def State.loadHeld (s : State) (core a : Nat) (x : Ctx) (q : QOp) : Bool :=
  x.load != none || x.ringUse || decide (192 ≤ x.lathStarted) || x.mustWait q { reads := q.loadRng } ||
    !x.boardRoom (s.windowOf a core) { reads := q.loadRng }

/-- A load as it starts. -/
def Ctx.newLoad (x : Ctx) (q : QOp) (off : Nat) : LoadRun :=
  { idx := x.nextIndex .lath, q := q, hoff := off, behind := x.swapAhead, fp := { reads := q.loadRng } }

/-- The context after the start of a load: its tile stands in its shadow weights. -/
def State.startLoad (s : State) (core : Nat) (x : Ctx) (q : QOp) (t : Tile) (off : Nat) : Ctx :=
  { x.takeLath with
    shadow := x.shadow.set q.loadSub (.tile (s.tileFrom core x t off)), load := some (x.newLoad q off), swapAhead := false }

theorem execLoadStart_ready {s : State} {core a : Nat} {x : Ctx} {q : QOp} {table : List Byte} {t : Tile} {off : Nat}
    (hready : s.lathReady core = some (a, x, q, table)) (hop : q.op = 1 ∨ q.op = 2) (ht : q.loadTile = some t)
    (hoff : natOf q.loadOff = some off) :
    exec (.loadStart core) s =
      if s.loadHeld core a x q then .next s else .next (s.setCtx a core (s.startLoad core x q t off)) := by
  change execLoadStart core s = _
  unfold execLoadStart
  rw [hready]
  dsimp only
  rw [if_neg (by omega), ht, hoff]
  rfl

/-- The context after a load's last byte: no load runs, its mark is incremented, and no pass is behind it (spec/04 R95, spec/07 R202). -/
def Ctx.endLoad (x : Ctx) (l : LoadRun) : Ctx :=
  { x with load := none, passes := x.passes.map (fun (p : PassRun) => { p with behindLoad := false }) }.bumpMark l.q.mark

theorem execLoadDone_running {s : State} {core a : Nat} {x : Ctx} {l : LoadRun} (hres : s.resident core = some (a, x))
    (hl : x.load = some l) :
    exec (.loadDone core) s =
      .next (((s.setCtx a core (x.endLoad l)).petWatchdog a).drainPasses a core x.passes.length) := by
  change execLoadDone core s = _
  unfold execLoadDone
  rw [hres]
  dsimp only
  rw [hl]
  rfl

/-- Settles O24: the ways of the head, what a refusal of each operation leaves, and the start and the end of a load. -/
theorem lathLoads : Obligations.LathLoads := by
  refine ⟨fun s core a x q rest ho hq => ⟨fun hh => ?_, fun h hh => ?_⟩, fun s core a x q table st hst => ⟨fun hop => ?_, fun hop => ?_,
    fun h1 h2 h3 h4 => ?_⟩, fun s core a x => ⟨fun q table t off hready hop ht hoff => ?_, fun l hres hl => ?_⟩⟩
  · obtain ⟨hwait, hgo⟩ := execLathQueueHead_unchecked ho hq hh
    refine ⟨fun h => hwait (lathHeld_eq_true_iff.mpr h), fun hsp hplace hheld => ?_⟩
    have hfree : s.lathHeld a core x q = false := by
      rw [Bool.eq_false_iff, ne_eq, lathHeld_eq_true_iff]
      simp [hsp, hheld, hplace]
    obtain ⟨haccept, hrefuse⟩ := hgo hfree
    refine ⟨haccept, fun st hr => ⟨fun hnow => ?_, fun h3 h4 hturn => ?_⟩⟩
    · rw [hrefuse st hr, State.refuseHead, if_pos hnow]
    · rw [hrefuse st hr, State.refuseHead, if_neg (by simp [h3, h4, hturn])]
  · obtain ⟨hwait, hrefused⟩ := execLathQueueHead_checked ho hq hh
    refine ⟨hwait, fun st hr => ⟨fun hturn => ?_, fun hturn => ?_⟩⟩
    · rw [hrefused st hr, hturn]
      rfl
    · rw [hrefused st hr, if_pos hturn]
  · obtain ⟨hbump, hkeep⟩ := x.marks_bumpMark q.mark
    refine ⟨x.refusedLoad q st, refuseLath_load s a core x table hop hst, ?_⟩
    rw [Ctx.refusedLoad_eq]
    exact ⟨rfl, rfl, rfl, rfl, rfl, rfl, Tbl.get_set_self .., hbump, hkeep, find_shadow_markShadow x st⟩
  · refine ⟨rfl, rfl, rfl, rfl, rfl, fun p0 ps hp hrun => ?_, fun hp hl => ?_⟩
    · rw [refuseLath_pass s a core x table hop, refusePass_of_started s a core x q _ table hst hp hrun]
      rfl
    · rw [refuseLath_pass s a core x table hop, refusePass_of_nil s a core x q _ table hst hp hl]
      rfl
  · obtain ⟨hbump, hkeep⟩ := x.marks_bumpMark q.mark
    refine ⟨x.refusedOther q st, refuseLath_other s a core x table h1 h2 h3 h4, ?_⟩
    rw [Ctx.refusedOther_eq]
    exact ⟨rfl, rfl, rfl, rfl, rfl, rfl, Tbl.get_set_self .., hbump, hkeep⟩
  · have hstart := execLoadStart_ready hready hop ht hoff
    refine ⟨fun hheld => hstart.trans (if_pos hheld), fun hheld => ⟨s.startLoad core x q t off, x.newLoad q off, ?_, rfl, rfl, rfl,
      Tbl.find_set_self .., fun k hk => Tbl.find_set_ne _ _ hk, rfl, rfl, rfl, rfl, rfl⟩⟩
    exact hstart.trans (if_neg (Bool.eq_false_iff.mp hheld))
  · obtain ⟨hframe, hbump, hkeep⟩ := Ctx.bumpMark_spec
      { x with load := none, passes := x.passes.map (fun (p : PassRun) => { p with behindLoad := false }) } l.q.mark
    refine ⟨x.endLoad l, execLoadDone_running hres hl, ?_⟩
    rw [Ctx.endLoad, hframe]
    refine ⟨rfl, rfl, rfl, rfl, rfl, hbump, fun hm => ?_⟩
    rw [hkeep hm]

end Sys2Proof.Machine
end

section
/-! The records of passes: where a record is written, and a table of contexts out of order (spec/04 R112). -/

namespace Sys2Proof.Machine

/-- A record on a writable page goes to its slot, in the window that the core has once the status is noted (spec/04 R112). -/
theorem writeRecord_writable {s : State} {a c : Nat} {p : PassRun} {d : PageDesc} (st : Status) (mark : Option Nat)
    (hd : Tbl.find (s.ctx a c).pages ((p.ring + p.pidx % 64 * 32) / 0x10000) = some d) (hsp : d.spilled = false)
    (hfr : d.frozen = false) (hw : d.w = true) :
    let y := (s.ctx a c).note .lath st p.idx
    let u := s.setCtx a c y
    s.writeRecord a c p st mark =
      (u.writeVa a (windowVa (u.coreIndex a c) + (p.ring + p.pidx % 64 * 32)) (passRecord a p st)).setCtx a c (y.bumpMark mark) := by
  have hpage : Tbl.find ((s.ctx a c).note .lath st p.idx).pages ((p.ring + p.pidx % 64 * 32) / 0x10000) = some d := hd
  simp only [State.writeRecord, State.putRecord, State.modCtx, ctx_setCtx_self, hpage, hsp, hfr, hw]
  rfl

/-- A table of contexts out of order: core 1 of allotment 0 stands before core 0, whose pages hold the record ring. -/
def contextsOutOfOrder : State := { ctxs := [(ctxKey 0 1, {}), (ctxKey 0 0, { pages := [(8, {})] })] }

/-- A refused pass, the first of its ring. -/
def firstRefused : PassRun := { idx := 0, pidx := 0, q := { w := 0, regs := [], nest := [] }, status := some .shapeMismatch }

/-- Once core 0's context has been set, it stands first, and the core has another index than before. -/
theorem coreIndex_contextsOutOfOrder (y : Ctx) :
    contextsOutOfOrder.coreIndex 0 0 = 1 ∧ (contextsOutOfOrder.setCtx 0 0 y).coreIndex 0 0 = 0 := by
  simp [contextsOutOfOrder, State.coreIndex, State.allotCores, State.setCtx, Tbl.keys, Tbl.set, ctxKey, List.findIdx_cons]

/-- The record is written in the window of index 0, and nothing is in that of index 1, which has no page. -/
theorem mem_writeVa_contextsOutOfOrder :
    let u := contextsOutOfOrder.setCtx 0 0 ((contextsOutOfOrder.ctx 0 0).note .lath .shapeMismatch 0)
    (u.writeVa 0 (windowVa 0 + 0x80000) (passRecord 0 firstRefused .shapeMismatch)).mem ≠ [] ∧
      (u.writeVa 0 (windowVa 1 + 0x80000) (passRecord 0 firstRefused .shapeMismatch)).mem = [] := by decide

/-- Refutes O26: its equation for a record on a writable page takes the core's index before the status is noted, and noting it can change
that index, in a state whose table of contexts is not in the order of its keys. -/
theorem not_passCommits : ¬ Obligations.PassCommits := by
  intro h
  obtain ⟨-, hrecord, -⟩ := h
  obtain ⟨-, -, hwritable, -⟩ := hrecord contextsOutOfOrder 0 0 firstRefused .shapeMismatch none
  have hwrite := hwritable {} rfl rfl rfl rfl
  obtain ⟨hbefore, hafter⟩ := coreIndex_contextsOutOfOrder ((contextsOutOfOrder.ctx 0 0).note .lath .shapeMismatch firstRefused.idx)
  rw [writeRecord_writable (d := {}) .shapeMismatch none rfl rfl rfl rfl, hbefore, hafter] at hwrite
  obtain ⟨hwritten, hnone⟩ := mem_writeVa_contextsOutOfOrder
  exact hwritten ((congrArg State.mem hwrite).trans hnone)

end Sys2Proof.Machine
end

section
/-! What the stopping of started operations leaves of the contexts, and the watchdog and the fault of a started pass (spec/04 R117, R118,
R121, spec/10 R311, R313, R314). -/

namespace Sys2Proof.Machine

/-! ### What operations that end leave of every context -/

/-- A context without what the end of an operation may write: its registers of statuses and marks, the Tub, the tiles, its epochs, the
records held and the Moot operations. The program, the queues, and the started passes and operations of the Skimmer and the Trowel stay. -/
def Ctx.shell (x : Ctx) : Ctx :=
  { x with
    estat := [], marks := [], heldRecords := [], tub := [], touched := [], tiles := [], sidecars := [], tileTags := [], zeroCells := []
    epochs := [], moots := [] }

/-- Every context of t has the shell that it has in s. -/
structure KeepsShells (s t : State) : Prop where
  shell_eq : ∀ a c, (t.ctx a c).shell = (s.ctx a c).shell

theorem KeepsShells.refl (s : State) : KeepsShells s s := ⟨fun _ _ => rfl⟩

theorem KeepsShells.trans {s t u : State} (h : KeepsShells s t) (k : KeepsShells t u) : KeepsShells s u :=
  ⟨fun a c => (k.shell_eq a c).trans (h.shell_eq a c)⟩

theorem KeepsShells.of_ctxs {s t : State} (h : t.ctxs = s.ctxs) : KeepsShells s t where
  shell_eq a c := by
    rw [State.ctx, State.ctx?, h]
    rfl

theorem KeepsShells.foldl {β : Type} {f : State → β → State} (h : ∀ s b, KeepsShells s (f s b)) (l : List β) (s : State) :
    KeepsShells s (l.foldl f s) := by
  induction l generalizing s with
  | nil => exact .refl s
  | cons b l ih => exact (h s b).trans (ih _)

theorem KeepsShells.ite {s t u : State} (c : Prop) [Decidable c] (h : KeepsShells s t) (k : KeepsShells s u) :
    KeepsShells s (if c then t else u) := by
  split
  · exact h
  · exact k

theorem ctx_of_ctx? {s : State} {a c : Nat} {x : Ctx} (h : s.ctx? a c = some x) : s.ctx a c = x := by
  rw [State.ctx, h]
  rfl

theorem ctx_modCtx_self (s : State) (a c : Nat) (f : Ctx → Ctx) : (s.modCtx a c f).ctx a c = f (s.ctx a c) := ctx_setCtx_self ..

/-- A context set to one of the same shell keeps every shell. -/
theorem setCtx_keepsShells {s : State} {a c : Nat} {x : Ctx} (h : x.shell = (s.ctx a c).shell) : KeepsShells s (s.setCtx a c x) := by
  refine ⟨fun a' c' => ?_⟩
  by_cases hk : ctxKey a' c' = ctxKey a c
  · have hctx (t : State) : t.ctx a' c' = t.ctx a c := by rw [State.ctx, State.ctx?, hk]; rfl
    rw [hctx, hctx, ctx_setCtx_self, h]
  · rw [State.ctx_setCtx_ne s _ hk]

theorem modCtx_keepsShells (s : State) (a c : Nat) {f : Ctx → Ctx} (h : ∀ x, (f x).shell = x.shell) : KeepsShells s (s.modCtx a c f) :=
  setCtx_keepsShells (h _)

theorem Ctx.shell_bumpMark (x : Ctx) (m : Option Nat) : (x.bumpMark m).shell = x.shell := by cases m <;> rfl

theorem Ctx.shell_note_bumpMark (x : Ctx) (e : Engine) (st : Status) (i : Nat) (m : Option Nat) :
    ((x.note e st i).bumpMark m).shell = x.shell := Ctx.shell_bumpMark ..

theorem note_keepsShells (s : State) (a c : Nat) (e : Engine) (st : Status) (i : Nat) :
    KeepsShells s (s.modCtx a c (fun x => x.note e st i)) := modCtx_keepsShells s a c fun _ => rfl

theorem petWatchdog_keepsShells (s : State) (a : Nat) : KeepsShells s (s.petWatchdog a) := .of_ctxs rfl

theorem ctxs_count (s : State) (a : Nat) (e : Ev) : (s.count a e).ctxs = s.ctxs := by
  have hadd (t : State) (sub n : Nat) : (if n = 0 then t else t.bumpReg (0x5000 + a) sub n).ctxs = t.ctxs := by
    split <;> rfl
  simp only [State.count, hadd]

theorem count_keepsShells (s : State) (a : Nat) (e : Ev) : KeepsShells s (s.count a e) := .of_ctxs (ctxs_count s a e)

theorem engineDone_keepsShells (s : State) (a c : Nat) (e : Engine) (idx : Nat) (st : Status) (mark : Option Nat) :
    KeepsShells s (s.engineDone a c e idx st mark) :=
  (modCtx_keepsShells s a c fun x => x.shell_note_bumpMark e st idx mark).trans (petWatchdog_keepsShells _ a)

/-! ### Writes to memory -/

theorem ctxs_writePages (a : Nat) (fuel : Nat) (s : State) (va : Nat) (bs : List Byte) : (s.writePages a fuel va bs).ctxs = s.ctxs := by
  induction fuel generalizing s va bs with
  | zero => rfl
  | succ fuel ih =>
    unfold State.writePages
    split
    · rfl
    · rw [ih]
      split <;> rfl

theorem ctxs_writeVa (s : State) (a va : Nat) (bs : List Byte) : (s.writeVa a va bs).ctxs = s.ctxs := ctxs_writePages ..

theorem ctxs_writeP (s : State) (a va : Nat) (bs : List PByte) : (s.writeP a va bs).ctxs = s.ctxs := ctxs_writeVa ..

theorem ctxs_copyRows (a c : Nat) (fuel : Nat) (s : State) (src dst : Nat) (bs : List PByte) :
    (s.copyRows a c fuel src dst bs).1.ctxs = s.ctxs := by
  induction fuel generalizing s src dst bs with
  | zero => rfl
  | succ fuel ih =>
    unfold State.copyRows
    split
    · rfl
    · dsimp only
      rw [ih]
      split
      · exact ctxs_writeP ..
      · rfl

theorem ctxs_placeVa (s : State) (a c : Nat) (src : Option Nat) (dst : Nat) (bs : List PByte) :
    (s.placeVa a c src dst bs).s.ctxs = s.ctxs := by
  unfold State.placeVa
  split
  · exact ctxs_copyRows ..
  · exact ctxs_writeP ..

theorem ctxs_putCopy (s : State) (a c : Nat) (x : Ctx) (q : QOp) (bs : List PByte) : (s.putCopy a c x q bs).s.ctxs = s.ctxs := by
  unfold State.putCopy
  split
  · rfl
  · exact ctxs_placeVa ..

/-! ### The lists of started operations -/

/-- A list of started operations in a context, as a pair of a reading and a replacement that do not meet what a shell leaves out. -/
structure StartedList (β : Type) where
  get : Ctx → List β
  put : List β → Ctx → Ctx
  get_put : ∀ l x, get (put l x) = l
  put_put : ∀ l m x, put m (put l x) = put m x
  put_get : ∀ x, put (get x) x = x
  get_shell : ∀ x, get x.shell = get x
  shell_put : ∀ l x, (put l x).shell = put l x.shell

def passList : StartedList PassRun where
  get := Ctx.passes
  put l x := { x with passes := l }
  get_put _ _ := rfl
  put_put _ _ _ := rfl
  put_get _ := rfl
  get_shell _ := rfl
  shell_put _ _ := rfl

def skimList : StartedList SkimRun where
  get := Ctx.skims
  put l x := { x with skims := l }
  get_put _ _ := rfl
  put_put _ _ _ := rfl
  put_get _ := rfl
  get_shell _ := rfl
  shell_put _ _ := rfl

def trowelList : StartedList TrowelRun where
  get := Ctx.trowels
  put l x := { x with trowels := l }
  get_put _ _ := rfl
  put_put _ _ _ := rfl
  put_get _ := rfl
  get_shell _ := rfl
  shell_put _ _ := rfl

/-- An operation that leaves the front of its list between changes that keep the shells. -/
theorem StartedList.shell_pop {β : Type} (L : StartedList β) {s u t : State} {a c : Nat} (rest : List β) (hu : KeepsShells s u)
    (ht : KeepsShells (u.modCtx a c (L.put rest)) t) : (t.ctx a c).shell = L.put rest (s.ctx a c).shell := by
  rw [ht.shell_eq, ctx_modCtx_self, L.shell_put, hu.shell_eq]

/-- A function that ends the operations of a list one after another, with their number as its fuel, leaves the list empty and the rest of
the shell as it is. -/
theorem StartedList.shell_drained {β : Type} (L : StartedList β) {a c : Nat} {f : Nat → State → State} (hzero : ∀ s, f 0 s = s)
    (hsucc : ∀ n s r rest, L.get (s.ctx a c) = r :: rest →
      ∃ t, f (n + 1) s = f n t ∧ (t.ctx a c).shell = L.put rest (s.ctx a c).shell) (s : State) :
    ((f (L.get (s.ctx a c)).length s).ctx a c).shell = L.put [] (s.ctx a c).shell := by
  generalize hl : L.get (s.ctx a c) = l
  induction l generalizing s with
  | nil =>
    have hget : L.get (s.ctx a c).shell = [] := (L.get_shell _).trans hl
    rw [List.length_nil, hzero, ← hget, L.put_get]
  | cons r rest ih =>
    obtain ⟨t, hf, ht⟩ := hsucc rest.length s r rest hl
    have hget : L.get (t.ctx a c) = rest := by rw [← L.get_shell, ht, L.get_put]
    rw [List.length_cons, hf, ih t hget, ht, L.put_put]

/-! ### Passes that end without a commit (spec/04 R110, R118) -/

/-- A record that is put, or that waits for its page, changes no shell. -/
theorem putRecord_keepsShells (s : State) (a c : Nat) (r : HeldRec) : KeepsShells s (s.putRecord a c r) := by
  unfold State.putRecord
  dsimp only
  split
  · exact setCtx_keepsShells (Ctx.shell_note_bumpMark ..)
  · split
    · exact setCtx_keepsShells rfl
    · split
      · exact setCtx_keepsShells (Ctx.shell_note_bumpMark ..)
      · split
        · exact setCtx_keepsShells (Ctx.shell_note_bumpMark ..)
        · have hwrite : KeepsShells s (s.writeVa a (windowVa (s.coreIndex a c) + r.off) r.bytes) := .of_ctxs (ctxs_writeVa ..)
          exact hwrite.trans (setCtx_keepsShells ((Ctx.shell_bumpMark ..).trans (hwrite.shell_eq a c).symm))

theorem writeRecord_keepsShells (s : State) (a c : Nat) (p : PassRun) (st : Status) (mark : Option Nat) :
    KeepsShells s (s.writeRecord a c p st mark) :=
  (note_keepsShells s a c .lath st p.idx).trans (putRecord_keepsShells ..)

theorem shell_discardPasses (a c : Nat) (st : Status) (s : State) :
    ((s.discardPasses a c st (s.ctx a c).passes.length).ctx a c).shell = { (s.ctx a c).shell with passes := [] } := by
  refine passList.shell_drained (f := fun n s => s.discardPasses a c st n) (fun _ => rfl) (fun n s p rest hp => ?_) s
  have hpasses : (s.ctx a c).passes = p :: rest := hp
  cases hst : p.status with
  | none =>
    simp only [State.discardPasses, hpasses, hst]
    exact ⟨_, rfl, passList.shell_pop rest (.refl s) ((writeRecord_keepsShells ..).trans (petWatchdog_keepsShells ..))⟩
  | some st' =>
    simp only [State.discardPasses, hpasses, hst]
    exact ⟨_, rfl, passList.shell_pop rest (.refl s) ((writeRecord_keepsShells ..).trans (petWatchdog_keepsShells ..))⟩

/-! ### Skimmer operations that stop (spec/10 R311, R314) -/

theorem Ctx.shell_putGroup (bits base r : Nat) (tag : Tag) (fuel : Nat) (x : Ctx) (col : Nat) (codes : List Nat) :
    (x.putGroup bits base r tag fuel col codes).shell = x.shell := by
  induction fuel generalizing x col codes with
  | zero => rfl
  | succ fuel ih =>
    unfold Ctx.putGroup
    split
    · rfl
    · exact ih ..

theorem skWrite_keepsShells (s : State) (a c : Nat) (w : SkW) : KeepsShells s (s.skWrite a c w) := by
  cases w with
  | tile bits base r c0 codes tag => exact modCtx_keepsShells s a c fun _ => Ctx.shell_putGroup ..
  | side es => exact setCtx_keepsShells rfl
  | tub key es => exact setCtx_keepsShells rfl
  | loft va bits codes => exact .of_ctxs (ctxs_writeVa ..)
  | loftScales va es => exact .of_ctxs (ctxs_writeVa ..)
  | dropped n => exact .refl s

theorem skPartial_keepsShells (s : State) (a c : Nat) (x : Ctx) (r : SkimRun) : KeepsShells s (s.skPartial a c x r) := by
  unfold State.skPartial
  split
  · exact .refl s
  · have hdraw : KeepsShells s s.drawNat.2 := .of_ctxs rfl
    exact (hdraw.trans (.foldl (fun (t : State) (st : SkStep) => skWrite_keepsShells t a c st.w) _ _)).trans (count_keepsShells ..)

theorem shell_stopSkims (a c : Nat) (st : Status) (s : State) :
    ((s.stopSkims a c st (s.ctx a c).skims.length).ctx a c).shell = { (s.ctx a c).shell with skims := [] } := by
  refine skimList.shell_drained (f := fun n s => s.stopSkims a c st n) (fun _ => rfl) (fun n s r rest hr => ?_) s
  have hskims : (s.ctx a c).skims = r :: rest := hr
  simp only [State.stopSkims, hskims]
  exact ⟨_, rfl, skimList.shell_pop rest (.ite _ (.refl s) (skPartial_keepsShells ..)) (engineDone_keepsShells ..)⟩

/-! ### Trowel operations that stop (spec/10 R311, R314) -/

theorem stopPartial_keepsShells (s : State) (a c : Nat) (x : Ctx) (t : TrowelRun) : KeepsShells s (s.stopPartial a c x t) := by
  have hcount : KeepsShells s (s.count a { tagRefusals := t.refusals }) := count_keepsShells ..
  unfold State.stopPartial
  dsimp only
  split
  · exact hcount
  · refine (hcount.trans (.of_ctxs ?_)).trans (count_keepsShells ..)
    rw [ctxs_putCopy]
    split <;> rfl

theorem trowelMarkUp_keepsShells (s : State) (a c : Nat) (q : QOp) : KeepsShells s (s.trowelMarkUp a c q) := by
  unfold State.trowelMarkUp
  split
  · exact .refl s
  · dsimp only
    split
    · exact modCtx_keepsShells s a c fun _ => rfl
    · exact modCtx_keepsShells s a _ fun x => x.shell_bumpMark _

theorem trowelDone_keepsShells (s : State) (a c : Nat) (t : TrowelRun) (st : Status) (noted : Bool) :
    KeepsShells s (s.trowelDone a c t st noted) := by
  have hnote : KeepsShells s (if noted then s.modCtx a c (fun x => x.note .trowel st t.idx) else s) :=
    .ite _ (note_keepsShells ..) (.refl s)
  exact (hnote.trans (trowelMarkUp_keepsShells _ a c t.q)).trans (petWatchdog_keepsShells _ a)

theorem shell_stopTrowels (a c : Nat) (st : Status) (s : State) :
    ((s.stopTrowels a c st (s.ctx a c).trowels.length).ctx a c).shell = { (s.ctx a c).shell with trowels := [] } := by
  refine trowelList.shell_drained (f := fun n s => s.stopTrowels a c st n) (fun _ => rfl) (fun n s t rest ht => ?_) s
  have htrowels : (s.ctx a c).trowels = t :: rest := ht
  simp only [State.stopTrowels, htrowels]
  exact ⟨_, rfl, trowelList.shell_pop rest (.ite _ (stopPartial_keepsShells ..) (.refl s)) (trowelDone_keepsShells ..)⟩

/-! ### Flits and the reduction tree (spec/13 R376 to R390, spec/14 R404 to R420) -/

theorem ctxs_foldl {β : Type} {f : State → β → State} (h : ∀ s b, (f s b).ctxs = s.ctxs) (l : List β) (s : State) :
    (l.foldl f s).ctxs = s.ctxs := by
  induction l generalizing s with
  | nil => rfl
  | cons b l ih => exact (ih _).trans (h s b)

theorem ctxs_leaveBy (s : State) (i l : Nat) (w : WaitFlit) : (s.leaveBy i l w).ctxs = s.ctxs := by
  unfold State.leaveBy
  dsimp only
  split
  · split <;> rfl
  · split <;> rfl

theorem ctxs_giveSlots (fuel : Nat) (s : State) : (s.giveSlots fuel).ctxs = s.ctxs := by
  induction fuel generalizing s with
  | zero => rfl
  | succ fuel ih =>
    unfold State.giveSlots
    split
    · rfl
    · rw [ih, ctxs_leaveBy]

theorem ctxs_returnCredits (l fuel : Nat) (s : State) : (s.returnCredits l fuel).ctxs = s.ctxs := by
  induction fuel generalizing s with
  | zero => rfl
  | succ fuel ih =>
    unfold State.returnCredits
    split
    · rw [ih]
      rfl
    · rfl

theorem ctxs_returnAll (s : State) : s.returnAll.ctxs = s.ctxs :=
  ctxs_foldl (fun t (e : Nat × Link) => by
    split
    · exact ctxs_returnCredits ..
    · rfl) s.links s

theorem ctxs_sendFlits (s : State) (fs : List Flit) : (s.sendFlits fs).ctxs = s.ctxs :=
  (ctxs_returnAll _).trans (ctxs_giveSlots _ _)

theorem ctxs_mootTimers (s : State) (g : Nat) : (s.mootTimers g).ctxs = s.ctxs := by
  unfold State.mootTimers
  dsimp only
  split
  · split
    · rfl
    · split <;> rfl
  · split <;> rfl

theorem ctxs_tryClose (s : State) (g b : Nat) : (s.tryClose g b).ctxs = s.ctxs := by
  unfold State.tryClose
  split
  · rfl
  · dsimp only
    split
    · split <;> rfl
    · rfl

theorem ctxs_mootAdvance (g b fuel : Nat) (s : State) : (s.mootAdvance g b fuel).ctxs = s.ctxs := by
  induction fuel generalizing s with
  | zero => rfl
  | succ fuel ih =>
    unfold State.mootAdvance
    split
    · rfl
    · split
      · rfl
      · dsimp only
        split
        · split
          · rfl
          · rw [ctxs_tryClose]
            split
            · exact ctxs_sendFlits ..
            · split
              · rfl
              · exact ctxs_sendFlits ..
        · split
          · exact ih _
          · split
            · split
              · rfl
              · exact (ih _).trans (ctxs_count ..)
            · split <;> rfl

theorem ctxs_contribute (s : State) (g b : Nat) (p : MPart) : (s.contribute g b p).ctxs = s.ctxs := by
  refine (ctxs_mootTimers _ g).trans ((ctxs_mootAdvance g b _ _).trans ?_)
  unfold State.modBucket
  split <;> rfl

theorem ctxs_unland (s : State) (g bucket : Nat) : (s.unland g bucket).ctxs = s.ctxs := by
  unfold State.unland
  dsimp only
  split <;> rfl

theorem ctxs_publishDone (s : State) (q : QOp) : (s.publishDone q).ctxs = s.ctxs := by
  unfold State.publishDone
  dsimp only
  split
  · rfl
  · split
    · rfl
    · rw [ctxs_tryClose]
      split
      · exact ctxs_unland ..
      · rfl

/-! ### Moot operations that end (spec/14 R428) -/

theorem setPhase_keepsShells (s : State) (a c i : Nat) (ph : MootPhase) : KeepsShells s (s.setPhase a c i ph) := setCtx_keepsShells rfl

theorem drainMoots_keepsShells (a c fuel : Nat) (s : State) : KeepsShells s (s.drainMoots a c fuel) := by
  induction fuel generalizing s with
  | zero => exact .refl s
  | succ fuel ih =>
    unfold State.drainMoots
    split
    · next r rest _ =>
      have hleave (st : Status) : KeepsShells s
          ((s.modCtx a c (fun x => { x with moots := rest })).engineDone a c .moot r.idx st r.q.mark) :=
        (modCtx_keepsShells s a c (f := fun x => { x with moots := rest }) fun _ => rfl).trans (engineDone_keepsShells ..)
      dsimp only
      split
      · exact (hleave _).trans (ih _)
      · exact (KeepsShells.ite _ ((hleave _).trans (.of_ctxs (ctxs_publishDone ..))) (hleave _)).trans (ih _)
      · exact .refl s
    · exact .refl s

theorem endMoot_keepsShells (s : State) (a c i : Nat) (r : MootRun) (st : Status) : KeepsShells s (s.endMoot a c i r st) := by
  unfold State.endMoot
  split
  · exact (setPhase_keepsShells s a c i _).trans (.of_ctxs (ctxs_contribute ..))
  · exact setPhase_keepsShells ..
  · exact .refl s

theorem endMoots_keepsShells (s : State) (a c : Nat) (st : Status) : KeepsShells s (s.endMoots a c st) :=
  (KeepsShells.foldl (fun t (e : MootRun × Nat) => endMoot_keepsShells t a c e.2 e.1 st) _ s).trans (drainMoots_keepsShells a c _ _)

/-! ### Watchdogs (spec/10 R313, R314) -/

/-- The context of a core that a watchdog stops, as its program and its queues are stopped. -/
def Ctx.expire (x : Ctx) : Ctx := { x.stopNow .watchdog with expired := false, wdStop := x.run != .halted }

/-- The stop of a program reads and writes nothing of what a shell leaves out but the epochs, and no list of started operations. -/
theorem Ctx.shell_expire (x : Ctx) : x.expire.shell = x.shell.expire := by
  by_cases h : x.run = .halted <;> simp [Ctx.expire, Ctx.stopNow, Ctx.shell, Ctx.dropQueues, h]

/-- A watchdog stops a core's program and its queues, and ends its started passes and operations; of the shell nothing else changes. -/
theorem shell_watchdogCore (u : State) (a c : Nat) :
    ((u.watchdogCore a c).ctx a c).shell =
      { ({ (u.ctx a c).shell with passes := [] } : Ctx).expire with skims := [], trowels := [] } := by
  have hmoots (s : State) : ((s.endMoots a c .watchdog).ctx a c).shell = (s.ctx a c).shell := (endMoots_keepsShells s a c _).shell_eq a c
  have hexpire (s : State) : ((s.modCtx a c Ctx.expire).ctx a c).shell = (s.ctx a c).shell.expire := by
    rw [ctx_modCtx_self, Ctx.shell_expire]
  have hfun : (fun x : Ctx => { x.stopNow .watchdog with expired := false, wdStop := x.run != .halted }) = Ctx.expire := rfl
  unfold State.watchdogCore
  rw [hfun]
  dsimp only
  rw [hmoots, shell_stopTrowels, shell_stopSkims, hexpire, shell_discardPasses]

/-- What the stop of a context by a watchdog does to its program and its queues, in the choice of R9 (spec/10 R314). -/
theorem Ctx.expire_spec (x : Ctx) :
    x.expire.passes = x.passes ∧ (x.run = .halted → x.expire.run = .halted) ∧ (x.run = .running → x.expire.run = .stopping .watchdog) ∧
      (∀ st, x.run = .stopping st → x.expire.run = .stopping (stPick st .watchdog)) ∧
      (x.run ≠ .halted →
        x.expire.wdStop = true ∧ x.expire.lathQ = [] ∧ x.expire.skimQ = [] ∧ x.expire.trowelQ = [] ∧ x.expire.mootQ = []) := by
  cases h : x.run <;> simp [Ctx.expire, Ctx.stopNow, Ctx.dropQueues, h]

/-- What is read of a context whose shell is that of x stopped by a watchdog, with no started pass and no started operation of the Skimmer
or the Trowel. -/
theorem Ctx.stopped_of_shell {x y : Ctx}
    (h : y.shell = { ({ x.shell with passes := [] } : Ctx).expire with skims := [], trowels := [] }) :
    y.passes = [] ∧ y.skims = [] ∧ y.trowels = [] ∧ (x.run = .halted → y.run = .halted) ∧
      (x.run = .running → y.run = .stopping .watchdog) ∧ (∀ st, x.run = .stopping st → y.run = .stopping (stPick st .watchdog)) ∧
      (x.run ≠ .halted → y.wdStop = true ∧ y.lathQ = [] ∧ y.skimQ = [] ∧ y.trowelQ = [] ∧ y.mootQ = []) := by
  obtain ⟨hpasses, hhalted, hrunning, hstopping, hqueues⟩ := ({ x.shell with passes := [] } : Ctx).expire_spec
  have hrun := congrArg Ctx.run h
  refine ⟨(congrArg Ctx.passes h).trans hpasses, congrArg Ctx.skims h, congrArg Ctx.trowels h, fun hx => hrun.trans (hhalted hx),
    fun hx => hrun.trans (hrunning hx), fun st hx => hrun.trans (hstopping st hx), fun hx => ?_⟩
  obtain ⟨hstop, hlath, hskim, htrowel, hmoot⟩ := hqueues hx
  exact ⟨(congrArg Ctx.wdStop h).trans hstop, (congrArg Ctx.lathQ h).trans hlath, (congrArg Ctx.skimQ h).trans hskim,
    (congrArg Ctx.trowelQ h).trans htrowel, (congrArg Ctx.mootQ h).trans hmoot⟩

/-- The state after the watchdog of an allotment expires. -/
def State.expireWatchdog (s : State) (n : Nat) : State :=
  (((s.allotCores n).foldl (fun u c =>
    if u.wardHeld (c / 32) then u.modCtx n c (fun x => { x with expired := true }) else u.watchdogCore n c) s).stopJobs n
      .watchdog).modAllot n (fun x => { x with wdSince := none, wdSpent := true })

theorem execWatchdogExpiry_running {s : State} {n t0 : Nat} (ht : (s.allot n).wdSince = some t0) (hp : s.reg (0x3100 + n) 0x0B ≠ 0) :
    exec (.watchdogExpiry n) s =
      if s.timer < t0 + s.reg (0x3100 + n) 0x0B * 1000 then .next s else .next (s.expireWatchdog n) := by
  change execWatchdogExpiry n s = _
  unfold execWatchdogExpiry
  dsimp only
  rw [ht]
  dsimp only
  simp only [hp, false_or]
  rfl

/-- Every Carter job of an allotment, but for the Larder's, stops at its next block (spec/10 R314). -/
theorem isSome_stop_of_mem_stopJobs {s : State} {a : Nat} {st : Status} {j : Nat × Job} (hj : j ∈ (s.stopJobs a st).jobs)
    (ha : j.2.allot = a) (hl : j.2.larder = none) : j.2.stop.isSome = true := by
  obtain ⟨e, -, rfl⟩ := List.mem_map.mp hj
  by_cases h : e.2.allot = a ∧ e.2.stop.isNone ∧ e.2.larder.isNone
  · rw [if_pos h]
    rfl
  · rw [if_neg h] at ha hl ⊢
    simpa [ha, hl, Option.isSome_iff_ne_none] using h

/-! ### Faults of started passes (spec/04 R117, spec/10 R311) -/

/-- A poisoned word that a started pass reads stops the first pass that reads it. -/
theorem stopAt_lath {s : State} {a c va len : Nat} {p : PassRun} (cause : FaultCause)
    (hp : (s.ctx a c).passes.find? (fun p => p.status.isNone && p.fp.readsVa va len) = some p) :
    s.stopAt a c .lath cause va len = some (p.idx, s) := by
  simp only [State.stopAt, hp, Option.map_some]

theorem execFault_lath {s : State} {a core : Nat} {va : BitVec 48} {x : Ctx} {p : PassRun} {pa : Nat} (hx : s.ctx? a core = some x)
    (hward : s.wardHeld (core / 32) = false) (hva : va ≠ 0) (hpa : s.paOf a va.toNat = some pa)
    (hp : x.passes.find? (fun p => p.status.isNone && p.fp.readsVa va.toNat 1) = some p) :
    exec (.fault a core .lath .poison va) s =
      .next ((s.addPoison [wordOf pa]).takeFault a core .lath .poison va.toNat p.idx) := by
  have hctx : (s.addPoison [wordOf pa]).ctx a core = x := ctx_of_ctx? (s := s.addPoison [wordOf pa]) hx
  have hstop : (s.addPoison [wordOf pa]).stopAt a core .lath .poison va.toNat 1 = some (p.idx, s.addPoison [wordOf pa]) :=
    stopAt_lath .poison (hctx.symm ▸ hp)
  have haddr : va.toNat ≠ 0 := fun h => hva (BitVec.eq_of_toNat_eq h)
  change execFault a core .lath .poison va s = _
  unfold execFault
  rw [hx]
  simp [hward, haddr, hpa, hstop]

/-- Settles O42: what an expiry stops, what it leaves of a core, and the fault of a started pass. -/
theorem watchdogAndFault : Obligations.WatchdogAndFault := by
  refine ⟨fun s n t0 ht hp => ⟨fun hearly => ?_, fun hdue => ⟨?_, ?_, ?_, fun j => isSome_stop_of_mem_stopJobs⟩⟩,
    fun u n c x hx => ?_, fun s a core va x p pa hx hward hva hpa hp => execFault_lath hx hward hva hpa hp, fun r hr => ?_⟩
  · rw [execWatchdogExpiry_running ht hp, if_pos hearly]
  · rw [execWatchdogExpiry_running ht hp, if_neg (by omega)]
    rfl
  · rw [State.allot_modAllot_self]
  · rw [State.allot_modAllot_self]
  · have hctx := ctx_of_ctx? hx
    exact ⟨by rw [ctx_modCtx_self, hctx], Ctx.stopped_of_shell (hctx ▸ shell_watchdogCore u n c)⟩
  · cases r with
    | halted => exact absurd rfl hr
    | running => simp [RunState.faulted]
    | stopping st => simp [RunState.faulted]
    | hung => simp [RunState.faulted]

end Sys2Proof.Machine
end

section
/-! The Lath: output-stationary passes, their chunks, and splits (spec/05, spec/08). -/

namespace Sys2Proof.Machine

/-! ### The start of an output-stationary pass (spec/05 R143 to R146) -/

/-- An output-stationary pass as it starts: its activation rows are read, its initial elements held, and its chunks all left to take. -/
def State.passoRun (s : State) (core a : Nat) (x : Ctx) (q : QOp) (p : OsPlan) : PassRun :=
  { x.newPass q true [] with
    steps := if p.rings.isEmpty then 0 else p.k * stepsD p.wfmt p.afmt
    clear := p.clear
    throttled := s.wardThrottled (core / 32)
    fp := p.footprint
    dEff := stepsD p.wfmt p.afmt
    wet := x.osInit p
    poisoned := (s.osActs a core x p).2
    poisonAt := (s.firstPoison a p.footprint.reads).getD 0
    os := some { chunksLeft := if p.rings.isEmpty then 0 else ceilDiv p.k 8, taken := [], acts := (s.osActs a core x p).1, ctags := [],
                 fed := x.ringUse && !p.rings.isEmpty } }

/-- The context after the start: the pass stands last in order, over weights that are all empty. -/
def State.startPasso (s : State) (core a : Nat) (x : Ctx) (q : QOp) (p : OsPlan) : Ctx :=
  { x.takeLath.takePass with active := [], shadow := [], swapAhead := false, passes := x.passes ++ [s.passoRun core a x q p] }

/-- The row of a pass that nothing holds back. -/
theorem execPassoStart_free {s : State} {core a : Nat} {x : Ctx} {q : QOp} {table : List Byte} {p : OsPlan}
    (hready : s.lathReady core = some (a, x, q, table)) (hop : q.op = 4) (hshape : q.passoShape = .ok p)
    (hpasses : x.startedPasses = []) (hload : x.load = none)
    (hwait : x.mustWait q { p.footprint with reads := p.footprint.reads ++ p.ringReads x } = false)
    (hroom : x.boardRoom (s.windowOf a core) p.footprint = true) (hhazard : x.hazard (s.windowOf a core) .lath p.footprint = false)
    (hgone : s.goneIn a p.footprint.reads = none) :
    exec (.passoStart core) s = .next ((s.translate a core p.footprint).setCtx a core (s.startPasso core a x q p)) := by
  have hfree : (!x.startedPasses.isEmpty || x.load != none ||
      x.mustWait q { p.footprint with reads := p.footprint.reads ++ p.ringReads x } ||
      !x.boardRoom (s.windowOf a core) p.footprint) = false := by
    simp [hpasses, hload, hwait, hroom]
  change execPassoStart core s = _
  unfold execPassoStart
  rw [hready]
  dsimp only
  rw [if_neg (not_not.mpr hop), hshape]
  dsimp only
  rw [if_neg (Bool.eq_false_iff.mp hfree), if_neg (Bool.eq_false_iff.mp hhazard), hgone]
  rfl

/-! ### Chunks (spec/08 R244, R245) -/

/-- The bytes of a chunk of the streams that an output-stationary pass reads. -/
def QOp.osChunk (q : QOp) : Nat := chunkBytes q.osShape.2.1 q.osShape.2.2.1 q.osShape.2.2.2.2.2.1

/-- A pass names a ring at most once. -/
theorem QOp.nodup_osRings (q : QOp) : q.osRings.Nodup := by
  unfold QOp.osRings
  dsimp only
  split
  · exact List.nodup_range.filter _
  · split
    · exact List.nodup_singleton 0
    · exact List.nodup_nil

section
variable (s : State) (core : Nat) (x : Ctx) (q : QOp) (o : OsWork)

theorem takeChunk_ctx (r : Nat) : (s.takeChunk core x q o r).2.1 =
    { x with rings := x.rings.set r { x.ring r with drain := (x.ring r).drain + q.osChunk } } := rfl

theorem takeChunk_taken (r : Nat) : (s.takeChunk core x q o r).1.taken =
    o.taken.set r (Tbl.get [] o.taken r ++ s.runBytes core x (x.ringRuns r (x.ring r).drain q.osChunk)) := rfl

/-- A chunk taken from each ring of a list, in order; and whether one of them held a poisoned unit. -/
def State.takeChunks (rs : List Nat) : OsWork × Ctx × Bool :=
  rs.foldl (fun acc r =>
    let t := s.takeChunk core acc.2.1 q acc.1 r
    (t.1, t.2.1, acc.2.2 || t.2.2)) (o, x, false)

theorem takeChunks_append (rs : List Nat) (r : Nat) :
    let acc := s.takeChunks core x q o rs
    let t := s.takeChunk core acc.2.1 q acc.1 r
    s.takeChunks core x q o (rs ++ [r]) = (t.1, t.2.1, acc.2.2 || t.2.2) := by
  simp only [State.takeChunks, List.foldl_append, List.foldl_cons, List.foldl_nil]

/-- y and w are the context x and the work o after a chunk has been taken from each ring of rs and from no other. -/
structure ChunksTaken (rs : List Nat) (y : Ctx) (w : OsWork) : Prop where
  ctx_eq : y = { x with rings := y.rings }
  ring_eq : ∀ r ∈ rs, y.ring r = { x.ring r with drain := (x.ring r).drain + q.osChunk }
  taken_eq : ∀ r ∈ rs,
    w.taken.find r = some (Tbl.get [] o.taken r ++ s.runBytes core x (x.ringRuns r (x.ring r).drain q.osChunk))
  others : ∀ r, r ∉ rs → y.rings.find r = x.rings.find r ∧ w.taken.find r = o.taken.find r

variable {s core x q o}

/-- A chunk is taken from one more ring, which still stands as it did at first: the part's bytes are read where they were then. -/
theorem ChunksTaken.takeChunk {rs : List Nat} {y : Ctx} {w : OsWork} (h : ChunksTaken s core x q o rs y w) {r : Nat} (hr : r ∉ rs) :
    ChunksTaken s core x q o (rs ++ [r]) (s.takeChunk core y q w r).2.1 (s.takeChunk core y q w r).1 := by
  obtain ⟨hfind, htaken⟩ := h.others r hr
  have hring : y.ring r = x.ring r := by rw [Ctx.ring, Tbl.get, hfind]; rfl
  have hbytes : Tbl.get [] w.taken r ++ s.runBytes core y (y.ringRuns r (y.ring r).drain q.osChunk) =
      Tbl.get [] o.taken r ++ s.runBytes core x (x.ringRuns r (x.ring r).drain q.osChunk) := by
    rw [Tbl.get, htaken, hring, h.ctx_eq]
    rfl
  rw [takeChunk_ctx]
  refine ⟨?_, fun i hi => ?_, fun i hi => ?_, fun i hi => ?_⟩
  · rw [h.ctx_eq]
  · by_cases hir : i = r
    · rw [hir, ← hring]
      exact Tbl.get_set_self ..
    · exact (Tbl.get_set_ne _ _ _ hir).trans (h.ring_eq i (by simpa [hir] using hi))
  · rw [takeChunk_taken, hbytes]
    by_cases hir : i = r
    · rw [hir, Tbl.find_set_self]
    · rw [Tbl.find_set_ne _ _ hir, h.taken_eq i (by simpa [hir] using hi)]
  · obtain ⟨hi, hir⟩ : i ∉ rs ∧ i ≠ r := by simpa using hi
    rw [takeChunk_taken, Tbl.find_set_ne _ _ hir, Tbl.find_set_ne _ _ hir]
    exact h.others i hi

theorem chunksTaken_takeChunks {rs : List Nat} (hrs : rs.Nodup) :
    ChunksTaken s core x q o rs (s.takeChunks core x q o rs).2.1 (s.takeChunks core x q o rs).1 := by
  induction rs using List.reverseRecOn with
  | nil => exact ⟨rfl, fun r hr => absurd hr List.not_mem_nil, fun r hr => absurd hr List.not_mem_nil, fun _ _ => ⟨rfl, rfl⟩⟩
  | append_singleton rs r ih =>
    obtain ⟨hrs, -, hdisj⟩ := List.nodup_append'.mp hrs
    rw [takeChunks_append]
    exact (ih hrs).takeChunk fun hr => hdisj hr (List.mem_singleton_self r)

end

section
variable (s : State) (core a : Nat) (x : Ctx) (p : PassRun) (o : OsWork)

/-- In the Green, the next chunk of a transposed pass holds bytes of a Larder page (spec/11 R339). -/
def State.osBarred : Bool :=
  o.chunksLeft != 0 && p.q.osShape.2.2.2.2.2.2.1 && s.isGreen a && s.ringsOwned core x p.q.osRings (fun _ => 0) p.q.osChunk

/-- No chunk is left to take, or a ring does not hold a whole one. -/
def Ctx.osIdle : Bool :=
  decide (o.chunksLeft = 0) || p.q.osRings.any (fun r => decide ((x.ring r).fill - (x.ring r).drain < p.q.osChunk))

/-- A pass that is barred ends refused, and drops what it holds. -/
def PassRun.barred : PassRun := { p with status := some .accessDenied, os := none, wet := [], fp := {} }

/-- The work of a pass after its next chunk. -/
def State.fedWork : OsWork := { (s.takeChunks core x p.q o p.q.osRings).1 with chunksLeft := o.chunksLeft - 1 }

/-- A pass after its next chunk. -/
def State.fedRun : PassRun :=
  { p with os := some (s.fedWork core x p o), poisoned := p.poisoned || (s.takeChunks core x p.q o p.q.osRings).2.2 }

/-- The context after the next chunk of its oldest pass. -/
def State.fedCtx (rest : List PassRun) : Ctx :=
  { (s.takeChunks core x p.q o p.q.osRings).2.1 with passes := s.fedRun core x p o :: rest }

variable {s core a x p o}

/-- A chunk changes nothing of a context but its rings and its oldest pass. -/
theorem fedCtx_eq (rest : List PassRun) : s.fedCtx core x p o rest =
    { x with rings := (s.takeChunks core x p.q o p.q.osRings).2.1.rings, passes := s.fedRun core x p o :: rest } := by
  rw [State.fedCtx, (chunksTaken_takeChunks p.q.nodup_osRings).ctx_eq]

theorem Ctx.osIdle_eq_true_iff : x.osIdle p o = true ↔
    o.chunksLeft = 0 ∨ ∃ r ∈ p.q.osRings, (x.ring r).fill - (x.ring r).drain < p.q.osChunk := by simp [Ctx.osIdle]

/-- The row of the oldest pass, with its three ways named: it ends refused, nothing happens, or it takes a chunk. -/
theorem execOsChunkReady_cases {rest : List PassRun} (hres : s.resident core = some (a, x)) (hp : x.passes = p :: rest)
    (ho : p.os = some o) :
    (s.osBarred core a x p o = true → exec (.osChunkReady core) s =
      .next ((s.setCtx a core { x with passes := p.barred :: rest }).drainPasses a core x.passes.length)) ∧
    (s.osBarred core a x p o = false →
      (x.osIdle p o = true → exec (.osChunkReady core) s = .next s) ∧
      (x.osIdle p o = false → exec (.osChunkReady core) s = .next (s.setCtx a core (s.fedCtx core x p o rest)))) := by
  have hexec : exec (.osChunkReady core) s =
      if s.osBarred core a x p o then
        .next ((s.setCtx a core { x with passes := p.barred :: rest }).drainPasses a core x.passes.length)
      else if x.osIdle p o then .next s
      else .next (s.setCtx a core (s.fedCtx core x p o rest)) := by
    change execOsChunkReady core s = _
    unfold execOsChunkReady
    rw [hres]
    dsimp only
    rw [hp]
    dsimp only
    rw [ho]
    rfl
  rw [hexec]
  refine ⟨fun h => if_pos h, fun h => ?_⟩
  rw [if_neg (Bool.eq_false_iff.mp h)]
  exact ⟨fun hi => if_pos hi, fun hi => if_neg (Bool.eq_false_iff.mp hi)⟩

end

/-! ### Splits (spec/05 R123) -/

/-- The context after a split is set: no weights stand, and the mark is incremented. -/
def Ctx.applySplit (x : Ctx) (q : QOp) : Ctx :=
  { x.takeLath with split := q.f 127 126, active := [], shadow := [], swapAhead := false }.bumpMark q.mark

theorem Ctx.applySplit_eq (x : Ctx) (q : QOp) : x.applySplit q =
    { x.takeLath with
      split := q.f 127 126
      active := []
      shadow := []
      swapAhead := false
      marks := (x.bumpMark q.mark).marks } := by
  rw [Ctx.applySplit]
  cases q.mark <;> rfl

/-- A split waits for every earlier pass and for a load; it is then set. -/
theorem execSplitApply_ready {s : State} {core a : Nat} {x : Ctx} {q : QOp} {table : List Byte}
    (hready : s.lathReady core = some (a, x, q, table)) (hop : q.op = 5) :
    (x.startedPasses ≠ [] ∨ x.load ≠ none → exec (.splitApply core) s = .next s) ∧
    (x.startedPasses = [] → x.load = none → exec (.splitApply core) s = .next ((s.setCtx a core (x.applySplit q)).petWatchdog a)) := by
  change (_ → execSplitApply core s = _) ∧ (_ → _ → execSplitApply core s = _)
  unfold execSplitApply
  rw [hready]
  dsimp only
  refine ⟨fun hheld => if_pos ?_, fun hpasses hload => if_neg ?_⟩
  · rcases hheld with h | h <;> simp [h]
  · simp [hop, hpasses, hload]

/-- Settles O27: the start, the chunks and the refusal of an output-stationary pass, and the wait and the effect of a split. -/
theorem outputStationary : Obligations.OutputStationary := by
  refine ⟨fun s core a x => ⟨fun q table p hready hop hshape hpasses hload hwait hroom hhazard hgone => ?_,
    fun p rest o hres hp ho => ?_⟩, fun s core a x q table hready hop => ?_⟩
  · exact ⟨s.startPasso core a x q p, s.passoRun core a x q p,
      execPassoStart_free hready hop hshape hpasses hload hwait hroom hhazard hgone, rfl, rfl, rfl, rfl, rfl, rfl, rfl, rfl, rfl⟩
  · obtain ⟨hbarred, hgo⟩ := execOsChunkReady_cases hres hp ho
    refine ⟨hbarred, fun hfree hidle => (hgo hfree).1 (Ctx.osIdle_eq_true_iff.mpr hidle), fun hfree hleft hfilled => ?_⟩
    have hnot : x.osIdle p o = false := by
      rw [Bool.eq_false_iff, ne_eq, Ctx.osIdle_eq_true_iff]
      rintro (h | ⟨r, hr, hlt⟩)
      · exact hleft h
      · exact absurd (hfilled r hr) (not_le.mpr hlt)
    have hall : ChunksTaken s core x p.q o p.q.osRings _ _ := chunksTaken_takeChunks p.q.nodup_osRings
    refine ⟨s.fedCtx core x p o rest, s.fedRun core x p o, s.fedWork core x p o, (hgo hfree).2 hnot, ?_⟩
    rw [fedCtx_eq]
    refine ⟨rfl, rfl, rfl, fun r hr => ?_, hall.others, rfl, rfl, rfl, rfl, rfl⟩
    have hring := hall.ring_eq r hr
    exact ⟨(congrArg Ring.drain hring :), (congrArg Ring.fill hring :), hall.taken_eq r hr⟩
  · obtain ⟨hwait, hset⟩ := execSplitApply_ready hready hop
    obtain ⟨hbump, hkeep⟩ := x.marks_bumpMark q.mark
    refine ⟨hwait, fun hpasses hload => ⟨x.applySplit q, hset hpasses hload, ?_⟩⟩
    rw [Ctx.applySplit_eq]
    exact ⟨rfl, rfl, rfl, hbump, hkeep, rfl, rfl, rfl, rfl⟩

end Sys2Proof.Machine
end

section
/-! The Green: admission, the retire ring, tag-map stores, and the geometry that GREEN_APPLY puts in force (spec/10 R295 to R303). -/

namespace Sys2Proof.Machine

/-! ### Admission (spec/10 R299) -/

/-- What becomes of a request that may be bound and whose rows fit into a slot: its ranges are judged first, then the room for it. -/
theorem submit_of_bindable {s : State} {a : Nat} {r : GreenReq} (hhead : (s.stream a (s.reg (0x3100 + a) 0x0A)).head = some (.green r))
    (hrefused : r.refused = none) (hbind : s.bindable r = true) (hsmall : s.slotTooSmall r.inRows r.outRows r.rowLen = false) :
    s.submit a =
      if loftVa < r.inVa + r.inRows * r.rowLen ∨ loftVa < r.outVa + r.outRows * r.rowLen ∨
          s.transferCheck a [⟨r.inVa, r.inRows * r.rowLen⟩]
            (if r.outRows * r.rowLen = 0 then [] else [⟨r.outVa, r.outRows * r.rowLen⟩]) false ≠ .ok then
        s.refuseSubmit a r .accessDenied
      else if s.reg 0x3000 0x02 ≤ lowestFree s.greenSlots.keys 0 ∨ s.reg 0x3000 0x03 = 0 ∨ s.admitRoom = false then s
      else s.admitRequest a (lowestFree s.greenSlots.keys 0) r := by
  unfold State.submit
  simp only [hhead, hrefused, hbind, hsmall, Bool.not_true, Bool.false_eq_true, if_false]
  exact if_congr (by simp [or_assoc]) rfl (if_congr (by simp) rfl rfl)

/-! ### The retire ring (spec/10 R303) -/

theorem execRetirePoll_of_mapped {s : State} (hgreen : s.greenAllot ≠ 0) (hpage : (s.pageOf s.greenAllot retireRing).isSome = true) :
    execRetirePoll s = .next (s.drainRetires 8192).settle :=
  if_neg (by simp [hgreen, Option.isSome_iff_ne_none.mp hpage])

theorem drainRetires_of_eq {s : State} (h : s.greenWord retireRing = s.greenWord (retireRing + 8)) (fuel : Nat) :
    s.drainRetires (fuel + 1) = s := if_pos h

theorem drainRetires_of_ne {s : State} (h : s.greenWord retireRing ≠ s.greenWord (retireRing + 8)) (fuel : Nat) :
    let c := s.greenWord (retireRing + 8)
    s.drainRetires (fuel + 1) =
      ((s.retireEntry (s.greenWord (retireRing + 64 + c % 8192 * 8))).writeVa s.greenAllot (retireRing + 8)
        (leBytes 8 (c + 1))).drainRetires fuel := if_neg h

/-! ### Tag-map stores (spec/10 R301) -/

/-- The rows that a waiting tag-map store concerns: those of the entry that stands, and of the one that is to stand. -/
def Ctx.storeSpans (x : Ctx) (v : Nat) : List (Nat × Nat) :=
  ((x.tagMap.find (v / 2 ^ 256)).toList ++ (if bitAt (v % 2 ^ 256) 0 then [tagMapEnt (v % 2 ^ 256)] else [])).map TagMapEnt.span

/-- The state in which a tag-map store has taken place and its program has moved on. -/
def State.storeTagMap (s : State) (a core : Nat) (x : Ctx) (v : Nat) : State :=
  (((x.storeSpans v).foldl (fun t r => t.writeVa a r.1 (List.replicate r.2 0)) s).writeVa a
    (s.windowOf a core + 0x81800 + 32 * (v / 2 ^ 256)) (leBytes 32 (v % 2 ^ 256))).moveOn a core
      { x.setTagMap (v / 2 ^ 256) (v % 2 ^ 256) with tagStore := none } (x.pc + 4)

/-- The store waits for the readers of the rows that it concerns, and takes place at once without one. -/
theorem execTagMapStoreApply_of_tagStore {s : State} {a core v : Nat} {x : Ctx} (ho : s.onCore core = some (a, x))
    (hstore : x.tagStore = some v) :
    execTagMapStoreApply a core s =
      if ∃ r ∈ x.storeSpans v, s.readersOf a r.1 r.2 = true then .next s else .next (s.storeTagMap a core x v) := by
  unfold execTagMapStoreApply
  simp only [ho, hstore]
  exact if_congr ((or_iff_right (not_not.mpr rfl)).trans List.any_eq_true) rfl rfl

/-! ### Objects put in force together (spec/16 R472) -/

theorem reg_putFields_of_ne {vals : List (Nat × Nat × Nat)} {idx sub : Nat}
    (h : ∀ e ∈ vals, objKey idx sub ≠ objKey e.1 e.2.1) (s : State) : (s.putFields vals).reg idx sub = s.reg idx sub := by
  induction vals generalizing s with
  | nil => rfl
  | cons e vals ih =>
    obtain ⟨he, hvals⟩ := List.forall_mem_cons.mp h
    refine (ih hvals _).trans ?_
    dsimp only
    split
    · rfl
    · exact State.reg_putReg_ne s _ he

/-- Fields of objects that differ all have their values once they have been put. -/
theorem reg_putFields_of_mem {vals : List (Nat × Nat × Nat)} (hvals : vals.Pairwise fun e f => objKey e.1 e.2.1 ≠ objKey f.1 f.2.1)
    (s : State) {idx sub v : Nat} (hmem : (idx, sub, v) ∈ vals) : (s.putFields vals).reg idx sub = v := by
  induction hvals generalizing s with
  | nil => cases hmem
  | cons hfirst _ ih =>
    rcases List.mem_cons.mp hmem with rfl | hmem
    · refine (reg_putFields_of_ne hfirst _).trans ?_
      dsimp only
      split
      · assumption
      · exact State.reg_putReg_self s ..
    · exact ih _ hmem

theorem reg_takeFields (s : State) (sess idx sub : Nat) (vals : List (Nat × Nat × Nat)) (i j : Nat) :
    (s.takeFields sess idx sub vals).reg i j = (s.putFields vals).reg i j := by
  rw [State.takeFields, State.dropPend, (State.modSession_spec ..).1]
  rfl

/-! ### What the rest of GREEN_APPLY leaves of the Green (spec/10 R295, R297) -/

/-- The Green's objects, its slots and its roster in t are those of s. -/
structure KeepsGreen (s t : State) : Prop where
  reg_eq : ∀ i ∈ [1, 2, 3, 4], t.reg 0x3000 i = s.reg 0x3000 i
  slots_eq : t.greenSlots = s.greenSlots
  roster_eq : t.greenRoster = s.greenRoster

theorem KeepsGreen.refl (s : State) : KeepsGreen s s := ⟨fun _ _ => rfl, rfl, rfl⟩

theorem KeepsGreen.trans {s t u : State} (h : KeepsGreen s t) (k : KeepsGreen t u) : KeepsGreen s u :=
  ⟨fun i hi => (k.reg_eq i hi).trans (h.reg_eq i hi), k.slots_eq.trans h.slots_eq, k.roster_eq.trans h.roster_eq⟩

theorem KeepsGreen.ite {s t u : State} (c : Prop) [Decidable c] (h : KeepsGreen s t) (k : KeepsGreen s u) :
    KeepsGreen s (if c then t else u) := by
  split
  · exact h
  · exact k

/-- An object of another index is none of the Green's. -/
theorem setReg_keepsGreen (s : State) {idx sub : Nat} (v : Nat) (hidx : idx ≠ 0x3000) (hsub : sub < 256) :
    KeepsGreen s (s.setReg idx sub v) where
  reg_eq i hi := by
    have hi256 : i < 256 := by
      simp only [List.mem_cons, List.not_mem_nil, or_false] at hi
      omega
    exact State.reg_setReg_ne s v fun hkey => hidx ((objKey_inj hi256 hsub).mp hkey).1.symm
  slots_eq := rfl
  roster_eq := rfl

theorem logEvent_keepsGreen (s : State) (e : Event) : KeepsGreen s (s.logEvent e) := by
  have hlog : KeepsGreen s { s with log := (s.logEvent e).log } := ⟨fun _ _ => rfl, rfl, rfl⟩
  exact (hlog.trans (setReg_keepsGreen _ _ (by decide) (by decide))).trans (setReg_keepsGreen _ _ (by decide) (by decide))

theorem logClamp_keepsGreen (idx sub old new role fuel : Nat) (s : State) : KeepsGreen s (s.logClamp idx sub old new role fuel) := by
  induction fuel with
  | zero => exact .refl s
  | succ fuel ih =>
    unfold State.logClamp
    exact .ite _ ih (ih.trans (logEvent_keepsGreen ..))

theorem logWell_keepsGreen (s : State) (a kind : Nat) : KeepsGreen s (s.logWell a kind) := by
  unfold State.logWell
  split <;> exact ⟨fun _ _ => rfl, rfl, rfl⟩

theorem putPage_some_keepsGreen (s : State) (a va : Nat) (d : PageDesc) : KeepsGreen s (s.putPage a va (some d)) := by
  unfold State.putPage
  dsimp only
  split
  · split <;> exact ⟨fun _ _ => rfl, rfl, rfl⟩
  · exact ⟨fun _ _ => rfl, rfl, rfl⟩

theorem KeepsGreen.mapRegion {s t : State} (h : KeepsGreen s t) (a base : Nat) (w : Bool) (i fuel : Nat) :
    KeepsGreen s (t.mapRegion a base w i fuel) := by
  induction fuel generalizing t i with
  | zero => exact h
  | succ fuel ih =>
    have hused : KeepsGreen s { t with hbmUsed := insertNat t.hbmUsed (lowestFree t.hbmUsed 0) } := ⟨h.reg_eq, h.slots_eq, h.roster_eq⟩
    exact ih (hused.trans (putPage_some_keepsGreen ..)) _

theorem mapGreen_keepsGreen (s : State) : KeepsGreen s s.mapGreen := by
  unfold State.mapGreen
  have hregions := (KeepsGreen.refl s).mapRegion s.greenAllot
  exact .ite _ (.refl s) (((((hregions ..).mapRegion ..).mapRegion ..).mapRegion ..).mapRegion ..)

/-! ### GREEN_APPLY (spec/10 R295, R297) -/

/-- The objects that an apply of a session puts in force. -/
def State.geometryFields (s : State) (sess : Nat) : List (Nat × Nat × Nat) :=
  [1, 2, 3, 4].map fun i => (0x3000, i, s.applying sess 0x3000 i)

/-- The Green with no slot taken and an empty roster. -/
def State.clearGreen (s : State) : State := { s with greenSlots := [], greenRoster := [] }

theorem reg_clearGreen (s : State) (i j : Nat) : s.clearGreen.reg i j = s.reg i j := rfl

/-- The Green under a new geometry: the former regions are unmapped, the objects are in force, and no slot is taken. -/
def State.newGeometry (s : State) (sess : Nat) : State :=
  (s.unmapGreen.takeFields sess 0x3000 0x05 (s.geometryFields sess)).clearGreen

theorem reg_newGeometry (s : State) (sess : Nat) {i : Nat} (hi : i ∈ [1, 2, 3, 4]) :
    (s.newGeometry sess).reg 0x3000 i = s.applying sess 0x3000 i := by
  have hsubs : [1, 2, 3, 4].Pairwise (· ≠ ·) := by decide
  have hfields : (s.geometryFields sess).Pairwise fun e f => objKey e.1 e.2.1 ≠ objKey f.1 f.2.1 :=
    List.pairwise_map.mpr (hsubs.imp fun hne hkey => hne (Nat.add_left_cancel hkey))
  rw [State.newGeometry, reg_clearGreen, reg_takeFields]
  exact reg_putFields_of_mem hfields _ (List.mem_map_of_mem hi)

/-- The regions of the geometry that a session asks for fit: into 2^43 bytes, and, unless it names no Green, into the quota of a defined
allotment that is not the Green yet, and into the free frames (log entry 59). -/
def State.GeometryFits (s : State) (sess : Nat) : Prop :=
  let v := fun i => s.applying sess 0x3000 i
  let need := 2 * regionPages (v 2) (v 3) (v 4) + 2
  v 2 * slotBytes (v 3) (v 4) ≤ 2 ^ 43 ∧
    (v 1 = 0 ∨ (v 1 ≠ s.greenAllot ∧ s.reg (0x3100 + v 1) 0x01 ≠ 0 ∧ need + s.pagesUsed (v 1) ≤ s.reg (0x3100 + v 1) 0x07 ∧
      s.hbmUsed.length + need ≤ hbmFrames))

/-- An apply that its session may ask for, with no request admitted and regions that fit, is accepted, and the new geometry stands in the
state that it leaves. -/
theorem applyGreen_of_fits {s : State} {sess : Nat} (hmay : s.mayApply sess 0x3000 0x05 = true)
    (hdead : ∀ e ∈ s.greenSlots, e.2.dead = true) (hfits : s.GeometryFits sess) :
    ∃ u, s.applyGreen sess = (u, .ok) ∧ KeepsGreen (s.newGeometry sess) u := by
  obtain ⟨hbytes, hroom⟩ := hfits
  have hadmitted : ¬ s.greenSlots.any (fun e => !e.2.dead) = true := by simpa using hdead
  unfold State.applyGreen
  extract_lets v bytes need old quota s1 s2 s3 s4 s5
  have hroomy : ¬ (2 ^ 43 < bytes ∨ (v 1 ≠ 0 ∧ (quota < need + (s.pagesUsed (v 1) - old) ∨ s.reg (0x3100 + v 1) 0x01 = 0 ∨
      hbmFrames + old < s.hbmUsed.length + need))) := by
    rintro (hlarge | ⟨hgreen, hlacks⟩)
    · exact absurd hbytes (not_le.mpr hlarge)
    · obtain ⟨hnew, hdefined, (hquota : need + s.pagesUsed (v 1) ≤ quota), (hframes : s.hbmUsed.length + need ≤ hbmFrames)⟩ :=
        hroom.resolve_left hgreen
      have hold : old = 0 := if_neg hnew
      rcases hlacks with hlack | hundefined | hlack
      · omega
      · exact hdefined hundefined
      · omega
  rw [if_neg (by simp [hmay]), if_neg hadmitted, if_neg hroomy]
  have hconf : KeepsGreen s3 s4 :=
    .ite _ ((logClamp_keepsGreen ..).trans (setReg_keepsGreen _ _ (by omega) (by decide))) (.refl s3)
  have hlogged : KeepsGreen s4 s5 := .ite _ (.refl s4) (logWell_keepsGreen ..)
  exact ⟨_, rfl, (hconf.trans hlogged).trans (mapGreen_keepsGreen s5)⟩

/-- A command that the runtime answers, of a session that may write its object and waits for nothing, has its own result. -/
theorem rowOf_of_mayApply {s : State} {sess idx sub : Nat} (hup : s.answers = true) (hidle : s.sessionIdle sess = true)
    (hmay : s.mayApply sess idx sub = true) (r : Res) : s.rowOf sess idx sub r = r := by
  have hsess : ¬ (s.session sess).isNone = true := by
    intro hnone
    rw [State.mayApply, Option.isNone_iff_eq_none.mp hnone] at hmay
    exact Bool.false_ne_true hmay
  rw [State.rowOf, if_pos hup, if_pos hidle, State.onSession, if_neg hsess]

/-- Settles O40: the ends of a submitted request, the order of the retire ring, the wait and the effect of a tag-map store, and the geometry
that an apply puts in force. -/
theorem greenRequests : Obligations.GreenRequests := by
  refine ⟨fun s a r hhead hrefused hbind hsmall => ?_, fun s hgreen hpage => ⟨?_, ?_, ?_⟩, fun s a core x v ho hstore => ?_,
    fun s sess hup hidle hmay hdead hbytes hroom => ?_⟩
  · have hsubmit : exec (.submit a) s = .next (s.submit a).settle := rfl
    rw [hsubmit, submit_of_bindable hhead hrefused hbind hsmall]
    refine ⟨fun hcheck => ?_, fun hin hout hcheck => ?_⟩
    · rw [if_pos (.inr (.inr hcheck))]
    · rw [if_neg (not_or.mpr ⟨not_lt.mpr hin, not_or.mpr ⟨not_lt.mpr hout, not_not.mpr hcheck⟩⟩)]
      refine ⟨fun hslot hrows hroom => ?_, fun hfull => ?_⟩
      · rw [if_neg (by simp [hslot, hrows, hroom])]
      · rw [if_pos (.inl hfull)]
  · exact execRetirePoll_of_mapped hgreen hpage
  · exact fun hnone => drainRetires_of_eq hnone 8191
  · exact fun hnew => drainRetires_of_ne hnew 8191
  · have hexec : exec (.tagMapStoreApply a core) s = _ := execTagMapStoreApply_of_tagStore ho hstore
    exact ⟨fun hread => hexec.trans (if_pos hread),
      fun hfree => hexec.trans (if_neg fun ⟨r, hr, hread⟩ => Bool.false_ne_true ((hfree r hr).symm.trans hread))⟩
  · obtain ⟨u, happly, hkeeps⟩ := applyGreen_of_fits hmay hdead ⟨hbytes, hroom⟩
    have hexec : exec (.greenApply sess) s = .next (u.emit (.wrote sess 0x3000 0x05 .ok)) := by
      change execGreenApply sess s = _
      rw [execGreenApply, rowOf_of_mayApply hup hidle hmay, happly]
      rfl
    exact ⟨_, hexec, fun i hi => (hkeeps.reg_eq i hi).trans (reg_newGeometry s sess hi), hkeeps.slots_eq, hkeeps.roster_eq, rfl⟩

end Sys2Proof.Machine
end

section
/-! The Ganger: what its instructions do when they are due: loads, branches and loops, marks, status registers, the pass ring, epochs, the
timer, posts, banks and the address FIFO (spec/07, spec/08). -/

namespace Sys2Proof.Machine

/-! ### Due instructions -/

/-- A due instruction that moves the program on from a state u, in which it has left the context y. -/
theorem ganger_moves {s u : State} {core a pc : Nat} {x y : Ctx} {i : Instr} {f : Nat → Ctx → State}
    (hdue : s.due core = some (a, x, i)) (hf : f a x = u.moveOn a core y pc) :
    ∃ t, s.ganger core i f = .next t ∧ GangerNext u t a core (y.after pc) :=
  ⟨u.moveOn a core y pc, (ganger_due hdue f).trans (congrArg _ hf), moveOn_next u a core y pc⟩

/-- A due instruction with its effect. -/
theorem ganger_eq {s t : State} {core a : Nat} {x : Ctx} {i : Instr} {f : Nat → Ctx → State} (hdue : s.due core = some (a, x, i))
    (hf : f a x = t) : s.ganger core i f = .next t := (ganger_due hdue f).trans (congrArg _ hf)

/-- A change of the context that the state holds. -/
theorem modCtx_of_ctx? {s : State} {a c : Nat} {x : Ctx} (h : s.ctx? a c = some x) (f : Ctx → Ctx) : s.modCtx a c f = s.setCtx a c (f x) := by
  rw [State.modCtx, ctx_of_ctx? h]

section
variable {s : State} {core a : Nat} {x : Ctx} {i : Instr} (hdue : s.due core = some (a, x, i)) (st : Status)
include hdue

/-- The halt of a due instruction changes the context alone (spec/07 R541). -/
theorem selfHalt_of_due : s.selfHalt a core st = s.setCtx a core (x.stopped st) := modCtx_of_ctx? (due_ctx hdue) _

theorem selfHaltNoted_of_due :
    s.selfHaltNoted a core st = s.setCtx a core ((x.note .ganger st (x.nextIndex .ganger)).stopped st) := modCtx_of_ctx? (due_ctx hdue) _

end

/-! ### Loads (spec/07 R199, R205) -/

section
variable {s : State} {core a : Nat} {x : Ctx} {ra : Reg} {off : W16}

theorem gLoad_of_readable {rd : Reg} {n : Nat} (hok : s.gAccess a core (gAddress x ra off n) false = .ok)
    (hclean : s.poisonedVa a (gAddress x ra off n) n = false) :
    s.gLoad a core x rd ra off n = (s.translateVa a core (gAddress x ra off n) n).moveOn a core
      (x.setS rd (BitVec.ofNat 64 (ofLe (s.readVa a (gAddress x ra off n) n)))) (x.pc + 4) := by
  simp only [State.gLoad, hok, hclean]
  rfl

theorem execGNld_of_image {nest : BitVec 3} (hdue : s.due core = some (a, x, .gNld core nest ra off))
    (hok : s.gAccess a core (gAddress x ra off 64) false = .ok) (hclean : s.poisonedVa a (gAddress x ra off 64) 64 = false)
    (himage : nestBad (s.readVa a (gAddress x ra off 64) 64) = false) :
    execGNld core nest ra off s = .next ((s.translateVa a core (gAddress x ra off 64) 64).moveOn a core
      { x with nests := x.nests.set nest.toNat (nestOf (s.readVa a (gAddress x ra off 64) 64)) } (x.pc + 4)) := by
  refine ganger_eq hdue ?_
  simp only [hok, hclean, himage]
  rfl

end

/-- Settles O12: each load is its function at the size of its access, and G.NLD takes the register from its image. -/
theorem gangerLoads : Obligations.GangerLoads := by
  refine ⟨fun s core a x rd ra off => ⟨?_, ?_, ?_, ?_⟩, ?_⟩
  · exact fun hdue ⟨hok, hclean⟩ => ganger_moves hdue (gLoad_of_readable hok hclean)
  · exact fun hdue ⟨hok, hclean⟩ => ganger_moves hdue (gLoad_of_readable hok hclean)
  · exact fun hdue ⟨hok, hclean⟩ => ganger_moves hdue (gLoad_of_readable hok hclean)
  · exact fun hdue ⟨hok, hclean⟩ => ganger_moves hdue (gLoad_of_readable hok hclean)
  · intro s core a x nest ra off va hdue hok hclean himage
    exact ⟨_, execGNld_of_image hdue hok hclean himage, moveOn_next ..⟩

/-! ### Branches, jumps and loops (spec/07 R194, R198, R229) -/

section
variable {s : State} {core a : Nat} {x : Ctx}

theorem gBranch_of_legal {words : Int} (h : x.branchIllegal ((x.pc : Int) + 4 * words) = false) :
    GangerNext s (s.gBranch a core x words) a core { x.takeIndex .ganger with pc := x.target words } := by
  have hbranch : s.gBranch a core x words =
      (s.setCtx a core { x.takeIndex .ganger with pc := x.target words }).endBlocks a core x.iq.length := by
    simp only [State.gBranch, h]
    rfl
  rw [hbranch]
  exact endBlocks_setCtx ..

/-- A loop that has a body, a free place and its end in the code that is executed starts, or is passed over when its count is 0 (spec/07
R198, spec/08 R235). -/
theorem execGLoop_of_fits {rc : Reg} {endOff : W16} (hdue : s.due core = some (a, x, .gLoop core rc endOff)) (hend : 2 ≤ endOff.toNat)
    (hroom : x.loops.length < 4) (hfits : x.loopFits (x.pc + 4 * endOff.toNat) = true) :
    execGLoop core rc endOff s = .next (if (x.s rc).toNat % 2 ^ 32 = 0 then s.moveOn a core x (x.pc + 4 * endOff.toNat)
      else s.moveOn a core
        { x with loops := { body := x.pc + 4, stop := x.pc + 4 * endOff.toNat, left := (x.s rc).toNat % 2 ^ 32 } :: x.loops }
        (x.pc + 4)) := by
  have hcount : fld (x.s rc).toNat 31 0 = (x.s rc).toNat % 2 ^ 32 := by simp [fld]
  have hlen : ¬ endOff.toNat ≤ 1 := by omega
  refine ganger_eq hdue ?_
  dsimp only
  rw [hcount]
  unfold Ctx.loopFits at hfits
  cases hsrc : x.src with
  | bank b => simp [hlen, not_le.mpr hroom]
  | queue =>
    cases hspan : blockSpan x.iq x.pc with
    | none => simp [hsrc, hspan] at hfits
    | some span =>
      have hstop : x.pc + 4 * endOff.toNat ≤ span.2 := by simpa [hsrc, hspan] using hfits
      simp [hlen, not_le.mpr hroom, not_lt.mpr hstop]

end

/-- Settles O14: a branch that is taken goes to its target, the other instructions move on, and a loop's back edge is that of flowTo. -/
theorem gangerControl : Obligations.GangerControl := by
  refine ⟨fun s core a x => ⟨fun cc ra rb off hdue => ⟨fun hcc => ?_, fun hcc hlegal => ?_⟩, fun off hdue hlegal => ?_,
    fun rc endOff hdue hend hroom hfits => ?_, fun l ls hdue hloops => ?_⟩, fun x l ls hloops => ⟨fun hleft => ?_, fun hleft hls => ?_,
    fun pc hpc => ?_⟩⟩
  · exact ganger_moves hdue (if_neg (by simp [hcc]))
  · exact ⟨_, ganger_eq hdue (if_pos hcc), gBranch_of_legal hlegal⟩
  · exact ⟨_, ganger_eq hdue rfl, gBranch_of_legal hlegal⟩
  · refine ⟨_, execGLoop_of_fits hdue hend hroom hfits, ?_⟩
    split <;> exact moveOn_next ..
  · refine ganger_moves hdue ?_
    simp only [hloops]
  · simp [Ctx.goTo, hloops, flowTo, hleft]
  · simp [Ctx.goTo, hloops, hls, flowTo, not_lt.mpr hleft]
  · simp [Ctx.goTo, hloops, flowTo, hpc]

/-! ### Marks, status registers and the pass ring (spec/07 R212, R218 to R220) -/

theorem Ctx.mark_setMark_self (x : Ctx) (m : Nat) (v : W32) : (x.setMark m v).mark m = v := Tbl.get_set_self ..

/-- Settles O15: G.WAIT moves on when its condition holds and stays otherwise, and a counter written and then raised holds the sum. -/
theorem gangerMarks : Obligations.GangerMarks := by
  refine fun s core a x m => ⟨fun v hdue => ⟨fun hover => ?_, fun hwait => ?_⟩, fun ra hdue => ganger_moves hdue rfl, fun v n => ?_,
    fun rd hdue => ganger_moves hdue rfl⟩
  · exact ganger_moves hdue (if_pos (decide_eq_true hover))
  · exact ganger_eq hdue (if_neg (by simpa [waitOver] using hwait))
  · rw [Ctx.bumpMark, Ctx.mark_setMark_self, Ctx.mark_setMark_self]

/-- Settles O16: the register is read and cleared, and the others stay. -/
theorem gangerStatusRead : Obligations.GangerStatusRead := by
  intro s core a x rd e hdue y
  have hcleared : y.est e = {} := Tbl.get_set_self ..
  exact ⟨ganger_moves hdue rfl, hcleared, by rw [hcleared], fun f hf => Tbl.get_set_ne _ _ _ hf⟩

/-- Settles O17: the one test of G.PRING. -/
theorem gangerPassRing : Obligations.GangerPassRing := by
  intro s core a x ra hdue va win good
  exact ⟨fun hgood => ganger_moves hdue (if_pos hgood),
    fun hbad => ganger_eq hdue ((if_neg (Bool.eq_false_iff.mp hbad)).trans (selfHalt_of_due hdue _))⟩

/-! ### Provisional epochs (spec/07 R225 to R228) -/

section
variable {s : State} {core a : Nat} {x : Ctx} {e : BitVec 2}

/-- What G.PROV.CANCEL leaves of the context: the operations of the epoch that have not started are gone from the queue, and the epoch
keeps their marks. -/
def State.cancelEpoch (s : State) (a core : Nat) (x : Ctx) (p : Epoch) : Ctx :=
  ({ x with trowelQ := x.trowelQ.filter (fun q => q.epoch != some p.serial) } : Ctx).modEpoch p.serial (fun g =>
    { g with
      state := .cancelled, ringBytes := []
      marks := (x.trowelQ.filter (fun q => q.epoch == some p.serial)).flatMap (s.pendingMarks a core) })

theorem execProvRangesRelease_of_closed {p : Epoch} (hx : s.ctx? a core = some x)
    (hp : x.epochs.reverse.find? (fun g => g.e == e.toNat && g.state != .opened && !x.epochBusy g.serial) = some p) :
    execProvRangesRelease a core e s = .next (s.closeEpoch a core p) := by
  simp only [execProvRangesRelease, hx, hp]

end

/-- Settles O18: the three forms with the context that each leaves, and the two ends of an epoch. -/
theorem gangerEpochs : Obligations.GangerEpochs := by
  refine ⟨fun s core a x e => ⟨fun hdue hclosed => ?_, fun p hdue hopen => ?_, fun p hdue hopen => ?_⟩, ?_⟩
  · exact ganger_moves hdue (by simp only [hclosed])
  · exact ganger_moves hdue (by simp only [hopen])
  · have hcancel : execGProvCancel core e s = .next (s.moveOn a core (s.cancelEpoch a core x p) (x.pc + 4)) :=
      ganger_eq hdue (by simp only [hopen]; rfl)
    exact ⟨_, s.cancelEpoch a core x p, hcancel, moveOn_next .., rfl, rfl, rfl⟩
  · intro s a core e x p hx hp y
    have hleave : s.modCtx a core (fun z => { z with epochs := z.epochs.filter (fun g => g.serial != p.serial) }) = s.setCtx a core y :=
      modCtx_of_ctx? hx _
    refine ⟨fun hstate => ?_, fun hstate => ?_⟩
    · refine (execProvRangesRelease_of_closed hx hp).trans ?_
      rw [State.closeEpoch, hleave, if_neg (by simp [hstate])]
    · refine (execProvRangesRelease_of_closed hx hp).trans ?_
      rw [State.closeEpoch, hleave, if_pos hstate]

/-! ### Timer, posts, banks and halts (spec/07 R191, R194, R197) -/

/-- Settles O20: a branch of each instruction under its conditions. -/
theorem gangerTimerPostSwapHalt : Obligations.GangerTimerPostSwapHalt := by
  refine fun s core a x r => ⟨fun hdue => ganger_moves hdue rfl, fun id k hdue hid hk hroom => ganger_eq hdue ?_,
    fun b hdue hsrc hready hoff => ganger_eq hdue ?_, fun hdue => ganger_eq hdue (selfHalt_of_due hdue _)⟩
  · simp only [hid, Option.bind_some, hk, if_neg (not_le.mpr hroom)]
  · simp only [hsrc, hready, if_neg (not_le.mpr hoff)]
    rfl

/-! ### The address FIFO (spec/07 R207 to R209) -/

/-- The translation of an entry's address; a zero entry has none. -/
def State.seeEntry (s : State) (a core : Nat) (e : FifoEntry) : State := e.elim s (fun va => s.translateVa a core va 1)

section
variable {s : State} {core a : Nat} {x : Ctx} {rb : Reg} {shift : Nat}

theorem gPush_of_full {ids : List Nat} (h : 64 < x.fifo.length + ids.length) : s.gPush a core x rb shift ids = s := if_pos h

/-- A fold over entries that are all there, by a function that translates each. -/
theorem foldl_map_some_seeEntry {f : State → Option FifoEntry → State} (hf : ∀ t e, f t (some e) = t.seeEntry a core e)
    (es : List FifoEntry) (u : State) : (es.map some).foldl f u = es.foldl (fun t e => t.seeEntry a core e) u := by
  simp only [List.foldl_map, hf]

/-- Entries that R209 lets through are pushed in order, each translated before the next. -/
theorem gPush_of_entries {ids : List Nat} {es : List FifoEntry} (h : x.fifo.length + ids.length ≤ 64)
    (hes : ids.map (fun i => s.fifoEntry a (x.s rb).toNat i shift) = es.map some) :
    s.gPush a core x rb shift ids =
      (es.foldl (fun t e => t.seeEntry a core e) s).moveOn a core { x with fifo := x.fifo ++ es } (x.pc + 4) := by
  have hall : (es.map some).all Option.isSome = true := by simp
  have hids : (es.map some).filterMap id = es := by simp
  simp only [State.gPush, if_neg (not_lt.mpr h), hes, hall, hids, if_true]
  rw [foldl_map_some_seeEntry]
  intro t e
  cases e <;> rfl

end

/-- Settles O21: one entry, or two in the order of their fields. -/
theorem gangerAddressFifo : Obligations.GangerAddressFifo := by
  intro s core a x rb ri sh seen entry lo hi
  have hseen (e : FifoEntry) (t : State) : seen e t = t.seeEntry a core e := by cases e <;> rfl
  refine ⟨fun e hdue he => ⟨fun hroom => ?_, fun hfull => ?_⟩, fun e f hdue he hf => ⟨fun hroom => ?_, fun hfull => ?_⟩⟩
  · rw [hseen]
    exact ganger_moves hdue (gPush_of_entries (es := [e]) (by simpa using hroom) (congrArg (fun z => [z]) he))
  · exact ganger_eq hdue (gPush_of_full (by simpa using Nat.lt_succ_of_le hfull))
  · rw [hseen, hseen]
    exact ganger_moves hdue (gPush_of_entries (es := [e, f]) (by simp; omega) (congrArg₂ (fun y z => [y, z]) he hf))
  · exact ganger_eq hdue (gPush_of_full (by simp; omega))

/-! ### The issue of engine instructions (spec/07 R195, R205, R225, R226) -/

section
variable {s : State} {core a : Nat} {x : Ctx} {i : Instr} (hdue : s.due core = some (a, x, i)) (w : W128)
include hdue

theorem issueLath_of_due :
    (x.lathQ.length < 64 → s.issueLath core i w = .next (s.issued a core { x with lathQ := x.lathQ ++ [x.entry w] })) ∧
      (64 ≤ x.lathQ.length → s.issueLath core i w = .next s) :=
  ⟨fun hroom => ganger_eq hdue (if_neg (not_le.mpr hroom)), fun hfull => ganger_eq hdue (if_pos hfull)⟩

theorem issueSkim_of_due :
    (x.skimQ.length < 64 → s.issueSkim core i w = .next (s.issued a core { x with skimQ := x.skimQ ++ [x.entry w] })) ∧
      (64 ≤ x.skimQ.length → s.issueSkim core i w = .next s) :=
  ⟨fun hroom => ganger_eq hdue (if_neg (not_le.mpr hroom)), fun hfull => ganger_eq hdue (if_pos hfull)⟩

theorem issueMoot_of_due :
    (x.mootQ.length < 64 → s.issueMoot core i w = .next (s.issued a core { x with mootQ := x.mootQ ++ [x.entry w] })) ∧
      (64 ≤ x.mootQ.length → s.issueMoot core i w = .next s) :=
  ⟨fun hroom => ganger_eq hdue (if_neg (not_le.mpr hroom)), fun hfull => ganger_eq hdue (if_pos hfull)⟩

/-- Without an open epoch a Trowel instruction is issued like any other. -/
theorem issueTrowel_of_due :
    (64 ≤ x.trowelQ.length → s.issueTrowel core i w = .next s) ∧
      (x.trowelQ.length < 64 → x.topEpoch = none →
        s.issueTrowel core i w = .next (s.issued a core { x with trowelQ := x.trowelQ ++ [x.entry w] })) := by
  refine ⟨fun hfull => ganger_eq hdue (if_pos hfull), fun hroom htop => ganger_eq hdue ((if_neg (not_le.mpr hroom)).trans ?_)⟩
  simp only [htop]

/-- In an open epoch a Trowel instruction takes its ranges, and stalls while there are not enough (spec/07 R226, spec/19 R535). -/
theorem issueTrowel_of_topEpoch {p : Epoch} (hroom : x.trowelQ.length < 64) (htop : x.topEpoch = some p) :
    let q : QOp := { x.entry w with epoch := some p.serial }
    s.issueTrowel core i w = .next
      (if q.tIterDst.length ≠ 0 ∧ 64 < x.provUsed + s.rangeClaims a core x + q.tIterDst.length then s
      else s.issued a core
        { x.modEpoch p.serial (fun e => { e with
            ranges := e.ranges ++ q.tIterDst.map (fun r => ({ issue := q.issue, iter := r.1, rng := r.2 } : ProvRng)) }) with
          trowelQ := x.trowelQ ++ [q] }) := by
  refine ganger_eq hdue ((if_neg (not_le.mpr hroom)).trans ?_)
  simp only [htop]

end

/-- An instruction issued moves the program on by four words. -/
theorem issued_next (s : State) (a core : Nat) (x : Ctx) :
    GangerNext s (s.issued a core x) a core (({ x with issued := x.issued + 1 } : Ctx).after (x.pc + 16)) := moveOn_next ..

/-- Settles O23: each instruction is the issue of its engine, and a full queue, or an epoch without ranges, stalls it. -/
theorem engineIssue : Obligations.EngineIssue := by
  intro s core a x w
  have hlath : ∀ i ∈ [Instr.lLoad core w, .lLoadT core w, .lPass core w, .lPasso core w, .lSplit core w],
      exec i s = s.issueLath core i w :=
    List.forall_iff_forall_mem.mp ⟨rfl, rfl, rfl, rfl, rfl⟩
  have hskim : ∀ i ∈ [Instr.sCvt core w, .sFma core w, .sExp core w, .sSmax core w, .sTopk core w, .sRed core w],
      exec i s = s.issueSkim core i w :=
    List.forall_iff_forall_mem.mp ⟨rfl, rfl, rfl, rfl, rfl, rfl⟩
  have hmoot : ∀ i ∈ [Instr.mContrib core w, .mPublish core w], exec i s = s.issueMoot core i w :=
    List.forall_iff_forall_mem.mp ⟨rfl, rfl⟩
  have htrowel : ∀ i ∈ [Instr.tCopy core w, .tGather core w, .tScatter core w], exec i s = s.issueTrowel core i w :=
    List.forall_iff_forall_mem.mp ⟨rfl, rfl, rfl⟩
  refine ⟨fun i hi hdue => ?_, fun i hi hdue => ?_, fun i hi hdue => ?_, fun i hi hdue => ?_⟩
  · obtain ⟨hgo, hstall⟩ := issueLath_of_due hdue w
    rw [hlath i hi]
    exact ⟨fun hroom => ⟨_, hgo hroom, issued_next ..⟩, hstall⟩
  · obtain ⟨hgo, hstall⟩ := issueSkim_of_due hdue w
    rw [hskim i hi]
    exact ⟨fun hroom => ⟨_, hgo hroom, issued_next ..⟩, hstall⟩
  · obtain ⟨hgo, hstall⟩ := issueMoot_of_due hdue w
    rw [hmoot i hi]
    exact ⟨fun hroom => ⟨_, hgo hroom, issued_next ..⟩, hstall⟩
  · obtain ⟨hstall, hgo⟩ := issueTrowel_of_due hdue w
    rw [htrowel i hi]
    refine ⟨hstall, fun hroom htop => ⟨_, hgo hroom htop, issued_next ..⟩, fun p hroom htop => ?_⟩
    have hepoch := issueTrowel_of_topEpoch hdue w hroom htop
    intro q
    refine ⟨fun hsome hlack => ?_, fun hfits => ⟨_, hepoch.trans (congrArg _ (if_neg ?_)), issued_next ..⟩⟩
    · exact hepoch.trans (congrArg _ (if_pos ⟨fun hlen => hsome (List.length_eq_zero_iff.mp hlen), hlack⟩))
    · rintro ⟨hsome, hlack⟩
      exact hfits.elim (fun hnone => hsome (List.length_eq_zero_iff.mpr hnone)) (not_le.mpr hlack)

end Sys2Proof.Machine
end

section
/-! States in which a statement about the Ganger's stores, the end of a stop, or the head and the rows of the Trowel fails (spec/07 R197,
R199, R214, spec/09 R274). Three of them hold a table that is not in the order of its keys; the other is a shared core with two programs on
their way to a halt. -/

namespace Sys2Proof.Machine

/-- The memory that an outcome holds. -/
def memOf : Res → List Host.Cell
  | .next t => t.mem
  | _ => []

/-- The context that an outcome holds for an allotment on a core. -/
def ctxOf (a c : Nat) : Res → Ctx
  | .next t => t.ctx a c
  | _ => {}

/-! ### A store into memory out of order (spec/07 R199) -/

/-- A program on core 0 of allotment 0, in streamed execution, that stores s0 into page 8 of its window. -/
def storingZero : Ctx :=
  { run := .running, src := .queue, sregs := [(1, 0x800000080000)], pages := [(8, {})]
    iq := [{ cmd := 0, base := 0, bytes := leBytes 4 ((gangerEncode (.gStB 0 0 1 0)).getD 0) }] }

/-- The program over a memory in which the byte that it stores to stands behind one of a higher address. -/
def memoryOutOfOrder : State :=
  { mem := [(loftBase + 1, 1), (loftBase, 7)], cores := [(0, { resident := some 0 })], ctxs := [(ctxKey 0 0, storingZero)] }

theorem due_memoryOutOfOrder : memoryOutOfOrder.due 0 = some (0, storingZero, .gStB 0 0 1 0) := by rfl

theorem gAccess_memoryOutOfOrder : memoryOutOfOrder.gAccess 0 0 0x800000080000 true = .ok := by decide

theorem paOf_memoryOutOfOrder : memoryOutOfOrder.paOf 0 0x800000080000 = some loftBase := by decide

/-- A zero is stored by dropping an entry, and the search for it ends at the higher address. -/
theorem read_storeZero_memoryOutOfOrder : Mem.read (memOf (exec (.gStB 0 0 1 0) memoryOutOfOrder)) loftBase = 7 := by decide

/-- Refutes O13: in a memory that is not in the order of its addresses, a zero that G.ST.B stores does not replace the byte. -/
theorem not_gangerStores : ¬ Obligations.GangerStores := by
  intro h
  obtain ⟨-, hstore⟩ := h memoryOutOfOrder 0 0 storingZero 0 1 0
  obtain ⟨-, -, -, -, hstored, -⟩ := hstore (1, .gStB 0 0 1 0) List.mem_cons_self due_memoryOutOfOrder
  obtain ⟨t, pa, hexec, hpa, -, hheld, -⟩ := hstored gAccess_memoryOutOfOrder (by decide) (by decide)
  obtain rfl : loftBase = pa := Option.some.inj (paOf_memoryOutOfOrder.symm.trans hpa)
  obtain ⟨hbytes, -⟩ := hheld rfl
  have hzero : Mem.read t.mem loftBase = 0 := hbytes 0 0 rfl
  have hseven := read_storeZero_memoryOutOfOrder
  rw [hexec] at hseven
  exact absurd (hzero.symm.trans hseven) (by decide)

/-! ### Two programs that stop on one core (spec/07 R197, spec/10 R314) -/

/-- A program on its way to its halt with an operation in its Lath queue. -/
def busyStopping : Ctx := { run := .stopping .ok, lathQ := [{ w := 0, regs := [], nest := [] }] }

/-- Core 0 held by allotment 0, whose program still has an operation, and shared by allotment 1, whose program has none left. -/
def twoStopping : State :=
  { cores := [(0, { resident := some 0 })], ctxs := [(ctxKey 0 0, busyStopping), (ctxKey 1 0, { run := .stopping .ok })] }

/-- The halt that is due is that of the program that has been switched out. -/
theorem run_coreHaltComplete_twoStopping : (ctxOf 1 0 (exec (.coreHaltComplete 0) twoStopping)).run = .halted := by decide

/-- Refutes O22: while the program of the allotment that holds a core still has operations, the halt of another one there can be due. -/
theorem not_gangerStops : ¬ Obligations.GangerStops := by
  intro h
  obtain ⟨-, -, hends⟩ := h
  obtain ⟨hbusy, -⟩ := hends twoStopping 0 0 busyStopping .ok rfl rfl
  have hhalted := run_coreHaltComplete_twoStopping
  rw [hbusy rfl] at hhalted
  exact absurd hhalted (by decide)

/-! ### A remote mark over contexts out of order (spec/07 R214) -/

/-- A reserved Trowel operation with the mark 0 of the allotment's first core. -/
def reservedRemote : QOp := { w := BitVec.ofNat 128 (2 ^ 100 + 2 ^ 19), regs := [], nest := [] }

/-- A context with it at the head of its queue. -/
def reservedHead : Ctx := { trowelQ := [reservedRemote] }

/-- Core 1 of allotment 0 stands before core 0, which holds the operation: it is the allotment's first. -/
def remoteOutOfOrder : State :=
  { cores := [(0, { resident := some 0 })], ctxs := [(ctxKey 0 1, {}), (ctxKey 0 0, reservedHead)] }

/-- Once core 0's context has been set it stands first, and takes the mark. -/
theorem mark_transferCheck_remoteOutOfOrder : (ctxOf 0 1 (exec (.transferCheck 0) remoteOutOfOrder)).mark 0 = 0 := by decide

/-- Refutes O29: in a table of contexts that is not in the order of its keys, the core that RCORE names is another one once the refused
operation has left its queue. -/
theorem not_trowelStarts : ¬ Obligations.TrowelStarts := by
  intro h
  obtain ⟨-, hgo⟩ := h remoteOutOfOrder 0 0 reservedHead reservedRemote [] rfl rfl
  obtain ⟨hrefused, -⟩ := hgo (by decide) (by decide)
  obtain ⟨-, hdone⟩ := hrefused .shapeMismatch (by decide) (by decide)
  obtain ⟨t, hexec, -, -, -, -, -, -, -, -, -, -, -, -, -, -, -, hremote⟩ := hdone rfl
  have hraised : (t.ctx 0 1).mark 0 = 1 := hremote 0 1 rfl (by decide) (by decide) (by decide) (by decide) (by decide)
  have hkept := mark_transferCheck_remoteOutOfOrder
  rw [hexec] at hkept
  exact absurd (hraised.symm.trans hkept) (by decide)

/-! ### A gathered row over contexts out of order (spec/09 R274) -/

/-- A gather of one row of 32 bytes into page 8 of the first core's window. -/
def gatherOne : QOp :=
  { w := BitVec.ofNat 128 (2 * 2 ^ 118 + 2 ^ 113 + 2 * 2 ^ 20), regs := [(1, 1), (2, 0x800000080000)], nest := [] }

/-- The started gather. -/
def gatherRun : TrowelRun := { idx := 0, q := gatherOne }

/-- A context with the gather, and with the address of its row in the FIFO. -/
def gathering : Ctx := { trowels := [gatherRun], fifo := [some 0] }

/-- Core 1 of allotment 0, which has the page, stands before core 0, which gathers a row from HBM. -/
def gatherOutOfOrder : State :=
  { mem := [(0, 1)], hbmPages := [(hbmKey 0 0, {})], ctxs := [(ctxKey 0 1, { pages := [(8, {})] }), (ctxKey 0 0, gathering)] }

/-- Once core 0's context has been set it stands first, and the row's place is in its window, which has no page. -/
theorem mem_gatherRowMove_gatherOutOfOrder : memOf (exec (.gatherRowMove 0 0) gatherOutOfOrder) = [(0, 1)] := by decide

theorem mem_writeP_gatherOutOfOrder :
    (gatherOutOfOrder.writeP 0 0x800000080000 (gatherOutOfOrder.readP 0 0 32)).mem = [(0, 1), (loftBase + windowSize, 1)] := by decide

/-- Refutes O30: in a table of contexts that is not in the order of its keys, the core in whose window a row goes is another one once the
FIFO entry has been consumed. -/
theorem not_trowelMoves : ¬ Obligations.TrowelMoves := by
  intro h
  obtain ⟨hrows, -⟩ := h
  obtain ⟨-, -, hgather⟩ := hrows gatherOutOfOrder 0 0 gathering gatherRun [] rfl
  obtain ⟨u, hexec, hmem, -⟩ := hgather 0 [] 0x800000080000 rfl rfl (by decide) (by decide) (by decide) (by decide) rfl (by decide) (by decide)
    (by decide) (by decide) (by decide)
  have hkept := mem_gatherRowMove_gatherOutOfOrder
  rw [hexec] at hkept
  have hwritten : u.mem = [(0, 1), (loftBase + windowSize, 1)] := hmem.trans mem_writeP_gatherOutOfOrder
  exact absurd (hkept.symm.trans hwritten) (by decide)

end Sys2Proof.Machine
end

section
/-! The Crier: the record that its turn takes, and the commands at the head of a stream (spec/07 R186 to R197, spec/17 R495, R497). -/

namespace Sys2Proof.Machine

/-! ### Turns (spec/07 R187) -/

theorem streamDue_mem_readyStreams {s : State} {k : Nat} (h : s.streamDue = some k) : k ∈ s.readyStreams := by
  rcases (Option.orElse_eq_some _ _ _).mp h with hfirst | ⟨-, hhead⟩
  · exact List.mem_of_find?_eq_some hfirst
  · exact List.mem_of_head? hhead

theorem readyStreams_of_streamDue_none {s : State} (h : s.streamDue = none) : s.readyStreams = [] :=
  List.head?_eq_none_iff.mp ((Option.orElse_eq_none _ _).mp h).2

/-- The effect of a turn of the Crier on what the record has left: the next turn begins behind the stream. -/
def State.turned (t : State) (a n : Nat) : State := ({ t with crierTurn := crierKey a n + 1 } : State).settle

theorem exec_crierTakeRecord_of_due {s t : State} {a n : Nat} (hdue : s.streamDue = some (crierKey a n)) (ht : s.takeRecord a n = t) :
    exec (.crierTakeRecord a n) s = .next (t.turned a n) := by
  change Host.Outcome.next (s.crierTake a n).settle = _
  rw [State.crierTake, if_pos hdue, ht]
  rfl

theorem exec_crierTakeRecord_of_not_due {s : State} {a n : Nat} (h : s.streamDue ≠ some (crierKey a n)) :
    exec (.crierTakeRecord a n) s = .next s.settle := by
  change Host.Outcome.next (s.crierTake a n).settle = _
  rw [State.crierTake, if_neg h]

/-! ### Records (spec/07 R186, spec/08 R252, spec/17 R497) -/

theorem recordReady_eq_false {s : State} {a n : Nat} {d : StreamDesc} (hdesc : (s.stream a n).desc = some d)
    (h : fld (s.recordAt a d (s.stream a n).consumed) 63 48 ≠ (s.stream a n).consumed % 2 ^ 16 ∨ s.reg (0x3100 + a) 0x09 ≤ n) :
    s.recordReady a n = false := by
  unfold State.recordReady
  simp only [hdesc]
  rcases h with hseq | hn
  · exact Bool.and_eq_false_iff.mpr (.inr (beq_false_of_ne hseq))
  · simp [hn]

section
variable {s : State} {a n : Nat} {d : StreamDesc}

/-- A command record can be taken from a stream. -/
structure CommandReady (s : State) (a n : Nat) (d : StreamDesc) : Prop where
  desc : (s.stream a n).desc = some d
  head : (s.stream a n).head = none
  carter : d.carter = false
  left : (s.stream a n).left ≠ 0
  room : (s.stream a n).waiting.length < 256
  number : n < s.reg (0x3100 + a) 0x09
  seq : fld (s.recordAt a d (s.stream a n).consumed) 63 48 = (s.stream a n).consumed % 2 ^ 16
  green : s.greenStream a n = false

/-- The completion of a record w that ends when it is taken. -/
def recordDone (w : Nat) (st : Status) : Completion :=
  { cookie := fld w 127 64, rseq := fld w 63 48, status := st, kind := 0x1, core := fld w 26 20, all := bitAt w 27 }

/-- The command of a record w for its cores. -/
def State.recordCmd (s : State) (a n w : Nat) (k : CmdKind) : Cmd :=
  { stream := n, cookie := fld w 127 64, rseq := fld w 63 48, core := fld w 26 20, all := bitAt w 27, kind := k, todo := s.namedCores a w }

/-- The record consumed and its command among those of the allotment. -/
def State.enterCmd (s : State) (a n w : Nat) (k : CmdKind) : State :=
  (s.modStream a n Stream.consume).modAllot a (fun y =>
    { y with cmds := y.cmds.set (s.allot a).nextCmd (s.recordCmd a n w k), nextCmd := (s.allot a).nextCmd + 1 })

/-- The measurement of a STREAM's block (spec/15 R446). -/
def blockEntry (w : Nat) (bs : List Byte) : List Byte :=
  logEntry (sha256Nat bs) bs.length 0 (if bitAt w 27 then 0xFFFF else fld w 26 20) 0 0x02

variable {k : CmdKind} {l : List Status} (h : CommandReady s a n d)
include h

theorem takeRecord_refused (hparse : s.parseCommand a (s.recordAt a d (s.stream a n).consumed) = (k, l)) (hl : l ≠ []) :
    s.takeRecord a n = ((s.modStream a n Stream.consume).post a n
      (recordDone (s.recordAt a d (s.stream a n).consumed) (stPickAll l))).petWatchdog a := by
  obtain ⟨st, rest, rfl⟩ := List.exists_cons_of_ne_nil hl
  simp [State.takeRecord, h.desc, h.head, h.left, h.carter, h.room, h.number, h.seq, h.green, hparse, recordDone]

theorem takeRecord_without_cores (hparse : s.parseCommand a (s.recordAt a d (s.stream a n).consumed) = (k, []))
    (hnamed : s.namedCores a (s.recordAt a d (s.stream a n).consumed) = []) (hlisted : s.listedCores a = 0) :
    s.takeRecord a n = ((s.modStream a n Stream.consume).post a n
      (recordDone (s.recordAt a d (s.stream a n).consumed) .ok)).petWatchdog a := by
  simp [State.takeRecord, h.desc, h.head, h.left, h.carter, h.room, h.number, h.seq, h.green, hparse, hnamed, hlisted, recordDone]

/-- An accepted command waits at the head of its stream; the block of a STREAM is measured. -/
theorem takeRecord_accepted (hparse : s.parseCommand a (s.recordAt a d (s.stream a n).consumed) = (k, []))
    (hnamed : s.namedCores a (s.recordAt a d (s.stream a n).consumed) ≠ []) :
    let w := s.recordAt a d (s.stream a n).consumed
    let waits := fun (t : State) => t.modStream a n (fun y => { y with head := some (.command (s.allot a).nextCmd) })
    ((∀ bs, k ≠ .stream bs) → s.takeRecord a n = waits (s.enterCmd a n w k)) ∧
      ∀ bs, k = .stream bs → s.takeRecord a n = waits ((s.enterCmd a n w k).logProgram a (blockEntry w bs)) := by
  refine ⟨fun hk => ?_, fun bs hk => ?_⟩
  · cases k with
    | stream bs => exact absurd rfl (hk bs)
    | bankLoad | start | halt =>
      simp [State.takeRecord, h.desc, h.head, h.left, h.carter, h.room, h.number, h.seq, h.green, hparse, hnamed, State.enterCmd,
        State.recordCmd]
  · subst hk
    simp [State.takeRecord, h.desc, h.head, h.left, h.carter, h.room, h.number, h.seq, h.green, hparse, hnamed, State.enterCmd,
      State.recordCmd, blockEntry]

end

/-- Settles O37: the turn, the streams that have no record ready, and what becomes of a command record. -/
theorem crierTakesRecords : Obligations.CrierTakesRecords := by
  refine ⟨fun s a n => ⟨exec_crierTakeRecord_of_not_due, fun k => streamDue_mem_readyStreams, readyStreams_of_streamDue_none⟩,
    fun s a n d hdesc => recordReady_eq_false hdesc, ?_⟩
  intro s a n d hdesc hhead hcarter hleft hroom hn hdue w s1 id turned hseq hgreen
  have hready : CommandReady s a n d := ⟨hdesc, hhead, hcarter, hleft, hroom, hn, hseq, hgreen⟩
  refine ⟨fun k l hparse hl => ?_, fun k hparse hnamed hlisted => ?_, fun k hparse hnamed => ?_⟩
  · exact exec_crierTakeRecord_of_due hdue (takeRecord_refused hready hparse hl)
  · exact exec_crierTakeRecord_of_due hdue (takeRecord_without_cores hready hparse hnamed hlisted)
  · obtain ⟨hother, hstream⟩ := takeRecord_accepted hready hparse hnamed
    exact ⟨fun hk => exec_crierTakeRecord_of_due hdue (hother hk), fun bs hk => exec_crierTakeRecord_of_due hdue (hstream bs hk)⟩

/-! ### Commands at the head of a stream (spec/07 R187 to R197) -/

section
variable {s : State} {a n core id : Nat} {k : Cmd} {x : Ctx} (hcmd : s.cmdFor a n core = some (id, k, x))
include hcmd

/-- BANK_LOAD is refused, waits for its bank, or fills it. -/
theorem execBankLoad_of_cmdFor {src len bank : Nat} (hk : k.kind = .bankLoad src len bank) :
    execBankLoad a n core s =
      if x.runsBank bank then .next (s.acceptDone a n id core k .bankBusy)
      else if badImage len || !s.readableHbm a src len then .next (s.acceptDone a n id core k .accessDenied)
      else if (Tbl.get {} x.banks bank : Bank).loading then .next s
      else .next (((s.translateVa a core src len).setCtx a core
        { x with banks := Tbl.modify {} x.banks bank (fun b => { b with loading := true }) }).accept a n id core k) := by
  simp only [execBankLoad, hcmd, hk]

/-- START waits for the halt and for its bank, is refused, or starts. -/
theorem execStart_of_cmdFor {bank offset : Nat} {arg1 arg2 : W64} (hk : k.kind = .start bank offset arg1 arg2) :
    execStart a n core s =
      if x.run != .halted || (Tbl.get {} x.banks bank : Bank).loading then .next s
      else if (Tbl.get {} x.banks bank : Bank).len ≤ offset then .next (s.acceptDone a n id core k .accessDenied)
      else .next (((s.setCtx a core { s.startCtx a core x arg1 arg2 with src := .bank bank, pc := offset, cmd := some id }).accept a n id
        core k).armWatchdog a) := by
  simp only [execStart, hcmd, hk]

/-- STREAM starts streamed execution, joins it, or waits. -/
theorem execStream_of_cmdFor {bs : List Byte} (hk : k.kind = .stream bs) :
    execStream a n core s =
      if x.run = .halted then
        .next (((s.setCtx a core
          { s.startCtx a core x 0 0 with
            src := .queue, pc := 0, cmd := none, iq := [{ cmd := id, base := 0, bytes := bs }], iqEnd := bs.length }).accept a n id core
              k).armWatchdog a)
      else if x.src = .queue ∧ decide ((x.iq.map (fun b => b.bytes.length)).foldl (· + ·) 0 + bs.length ≤ 4096) ∧ !x.run.ending then
        .next (((s.setCtx a core
          { x with iq := x.iq ++ [{ cmd := id, base := x.iqEnd, bytes := bs }], iqEnd := x.iqEnd + bs.length }).accept a n id core
            k).armWatchdog a)
      else .next s := by
  simp only [execStream, hcmd, hk]

/-- HALT completes on a halted core, and stops the program of another. -/
theorem execHalt_of_cmdFor (hk : k.kind = .halt) :
    execHalt a n core s =
      if x.run = .halted then .next (s.acceptDone a n id core k .ok)
      else .next ((s.setCtx a core { x.stopNow .ok with haltCmds := x.haltCmds ++ [id] }).accept a n id core k) := by
  simp only [execHalt, hcmd, hk]

end

theorem RunState.ending_eq_true_iff (r : RunState) : r.ending = true ↔ ∃ st, r = .stopping st := by
  cases r <;> simp [RunState.ending]

/-- A program that starts has its arguments, its core's index and the number of cores in s1 to s4, and 0 in every later register (spec/07
R196). -/
theorem startCtx_s (s : State) (a core : Nat) (x : Ctx) (arg1 arg2 : W64) :
    let y := s.startCtx a core x arg1 arg2
    y.s 1 = arg1 ∧ y.s 2 = arg2 ∧ y.s 3 = BitVec.ofNat 64 (s.coreIndex a core) ∧ y.s 4 = BitVec.ofNat 64 (s.allotCores a).length ∧
      ∀ r : Reg, 4 < r.toNat → y.s r = 0 := by
  refine ⟨rfl, rfl, rfl, rfl, fun r hr => ?_⟩
  have hne (i : Nat) (hi : i ≤ 4) : i ≠ r.toNat := by omega
  simp [Ctx.s, State.startCtx, Tbl.get, Tbl.find, hne]

/-- A filled bank is written and measured, becomes READY, and its command completes on the core (spec/07 R186, spec/15 R446). -/
theorem execBankLoadComplete_of_filled {s : State} {a core id bank src len : Nat} {x : Ctx} (hx : s.ctx? a core = some x)
    (hfill : s.bankFill a core bank = some (id, src, len)) (hloading : (Tbl.get {} x.banks bank : Bank).loading = true)
    (hward : s.wardHeld (core / 32) = false) (hsp : s.spilledIn a (s.windowOf a core + bank * 0x40000) len = false) :
    execBankLoadComplete a core bank s =
      .next (((((s.writeP a (s.windowOf a core + bank * 0x40000) (s.readP a src len)).logProgram a
        (logEntry (sha256Nat (s.readVa a src len)) len 0 (s.loadWhere a id core) bank 0x01))).modCtx a core
          (fun y => { y with banks := y.banks.set bank { len := len, loading := false } })).cmdDone a id core .ok) := by
  simp only [execBankLoadComplete, hx, hfill, hloading, hward, hsp]
  rfl

/-- Settles O38: the branches of the four commands, and the end of a load. -/
theorem crierCommands : Obligations.CrierCommands := by
  refine fun s a n core id k x => ⟨fun hcmd => ⟨fun src len bank hk => ?_, fun bank offset arg1 arg2 hk hwait => ?_,
    fun bank offset arg1 arg2 hk hrun hready => ?_, fun bs hk hrun => ?_, fun bs hk hrun => ?_, fun hk => ?_⟩,
    fun bank src len hx hfill hloading hward hsp => execBankLoadComplete_of_filled hx hfill hloading hward hsp⟩
  · have hload : exec (.bankLoad a n core) s = _ := execBankLoad_of_cmdFor hcmd hk
    rw [hload]
    refine ⟨fun hruns => if_pos hruns, fun hruns hbad => ?_, fun hruns himage hsrc hloading => ?_, fun hruns himage hsrc hloading => ?_⟩
    · rw [if_neg (Bool.eq_false_iff.mp hruns), if_pos]
      rcases hbad with h | h <;> simp [h]
    · simp [hruns, himage, hsrc, hloading]
    · simp [hruns, himage, hsrc, hloading]
  · have hstart : exec (.start a n core) s = _ := execStart_of_cmdFor hcmd hk
    refine hstart.trans (if_pos ?_)
    rcases hwait with h | h <;> simp [h]
  · have hstart : exec (.start a n core) s = _ := execStart_of_cmdFor hcmd hk
    have hfree : ¬ (x.run != .halted || (Tbl.get {} x.banks bank : Bank).loading) = true := by simp [hrun, hready]
    rw [if_neg hfree] at hstart
    refine ⟨fun hpast => hstart.trans (if_pos hpast), fun hoff => ?_⟩
    intro y
    obtain ⟨h1, h2, h3, h4, hother⟩ := startCtx_s s a core x arg1 arg2
    exact ⟨hstart.trans (if_neg (not_le.mpr hoff)), h1, h2, h3, h4, hother, fun _ => rfl, rfl, rfl, rfl, rfl, rfl, rfl⟩
  · have hstream : exec (.stream a n core) s = _ := execStream_of_cmdFor hcmd hk
    exact hstream.trans (if_pos hrun)
  · have hstream : exec (.stream a n core) s = _ := execStream_of_cmdFor hcmd hk
    rw [if_neg hrun] at hstream
    intro room
    refine ⟨fun hsrc hroom hgoing => ?_, fun hwait => ?_⟩
    · refine hstream.trans (if_pos ⟨hsrc, hroom, ?_⟩)
      rw [Bool.not_eq_true', Bool.eq_false_iff, ne_eq, RunState.ending_eq_true_iff]
      exact fun ⟨st, hst⟩ => hgoing st hst
    · refine hstream.trans (if_neg ?_)
      rintro ⟨hsrc, hroom, hgoing⟩
      rcases hwait with h | h | h
      · exact h hsrc
      · exact Bool.false_ne_true (h.symm.trans hroom)
      · rw [(RunState.ending_eq_true_iff _).mpr h] at hgoing
        exact Bool.false_ne_true hgoing
  · have hhalt : exec (.halt a n core) s = _ := execHalt_of_cmdFor hcmd hk
    exact ⟨fun hrun => hhalt.trans (if_pos hrun), fun hrun => hhalt.trans (if_neg hrun)⟩

end Sys2Proof.Machine
end

section
/-! The Moot: the head of its queue and the owner's M.PUBLISH (spec/14 R410 to R417). -/

namespace Sys2Proof.Machine

/-! ### Started operations that end (spec/07 R202, R210, R216) -/

/-- The oldest started operation r, with those behind it, leaves the list and completes with a status. -/
def State.leaveMoot (s : State) (a c : Nat) (r : MootRun) (rest : List MootRun) (st : Status) : State :=
  (s.modCtx a c (fun x => { x with moots := rest })).engineDone a c .moot r.idx st r.q.mark

theorem leaveMoot_ctxFrame (s : State) (a c : Nat) (r : MootRun) (rest : List MootRun) (st : Status) :
    CtxFrame s (s.leaveMoot a c r rest st) := rfl

theorem ctx_leaveMoot (s : State) (a c : Nat) (r : MootRun) (rest : List MootRun) (st : Status) :
    (s.leaveMoot a c r rest st).ctx a c = (({ s.ctx a c with moots := rest } : Ctx).note .moot st r.idx).bumpMark r.q.mark := by
  change ((s.modCtx a c _).modCtx a c (fun x => (x.note .moot st r.idx).bumpMark r.q.mark)).ctx a c = _
  rw [State.modCtx, ctx_setCtx_self, State.modCtx, ctx_setCtx_self]

/-- Nothing ends behind an operation that reads or waits for its shard. -/
theorem drainMoots_of_open {s : State} {a c : Nat} {r : MootRun} {rs : List MootRun} (h : (s.ctx a c).moots = r :: rs)
    (hr : ∀ z, r.phase ≠ .refused z ∧ r.phase ≠ .done z) (fuel : Nat) : s.drainMoots a c fuel = s := by
  cases fuel with
  | zero => rfl
  | succ fuel =>
    cases hp : r.phase with
    | refused z => exact absurd hp (hr z).1
    | done z => exact absurd hp (hr z).2
    | reading g b | waitLanding g b | waitShard g b => simp [State.drainMoots, h, hp]

/-- A refused operation that stands alone ends at once. -/
theorem drainMoots_of_refused {s : State} {a c : Nat} {r : MootRun} {st : Status} (h : (s.ctx a c).moots = [r])
    (hr : r.phase = .refused st) : s.drainMoots a c 1 = s.leaveMoot a c r [] st := by
  simp [State.drainMoots, State.leaveMoot, h, hr]

/-! ### A refusal of the head -/

/-- The state after a refusal of the head: it leaves the queue for its place in order, and completes once nothing stands before it. -/
def State.refuseMoot (s : State) (a c : Nat) (x : Ctx) (q : QOp) (st : Status) : State :=
  (s.setCtx a c (x.takeMoot q (.refused st) {})).settleMoots a c

/-- t is u after the head q of the context x has been refused with a status while nothing was started. -/
def RefusedMoot (u t : State) (a core : Nat) (x : Ctx) (q : QOp) (st : Status) : Prop :=
  t.mem = u.mem ∧ t.poison = u.poison ∧ t.regs = u.regs ∧
    t.groups = u.groups ∧ t.buckets = u.buckets ∧ t.out = u.out ∧ (t.ctx a core).tub = x.tub ∧ (t.ctx a core).moots = [] ∧
    (t.ctx a core).mootQ = takeIter x.mootQ ∧ (t.ctx a core).est .moot = (x.est .moot).note st (x.nextIndex .moot) ∧
    (t.ctx a core).nextIndex .moot = (x.nextIndex .moot + 1) % 2 ^ 24 ∧
    (∀ m, q.mark = some m → (t.ctx a core).mark m = x.mark m + 1) ∧ (q.mark = none → (t.ctx a core).marks = x.marks)

section
variable (u : State) (a core : Nat) {x : Ctx} (q : QOp) (st : Status)

/-- A refusal behind an operation that has not completed stands in the list of started ones. -/
theorem refuseMoot_of_open {r : MootRun} {rs : List MootRun} (h : x.moots = r :: rs)
    (hr : ∀ z, r.phase ≠ .refused z ∧ r.phase ≠ .done z) :
    u.refuseMoot a core x q st = u.setCtx a core (x.takeMoot q (.refused st) {}) := by
  apply drainMoots_of_open (r := r) (rs := rs ++ [{ idx := x.nextIndex .moot, q := q, phase := .refused st, fp := {} }]) _ hr
  rw [ctx_setCtx_self, Ctx.takeMoot, h]
  rfl

/-- A refusal that stands alone is the end of its operation. -/
theorem refuseMoot_eq_leaveMoot (h : x.moots = []) :
    u.refuseMoot a core x q st = (u.setCtx a core (x.takeMoot q (.refused st) {})).leaveMoot a core
      { idx := x.nextIndex .moot, q := q, phase := .refused st, fp := {} } [] st := by
  have hone : ((u.setCtx a core (x.takeMoot q (.refused st) {})).ctx a core).moots =
      [{ idx := x.nextIndex .moot, q := q, phase := .refused st, fp := {} }] := by
    rw [ctx_setCtx_self, Ctx.takeMoot, h]
    rfl
  rw [State.refuseMoot, State.settleMoots, hone, List.length_singleton, drainMoots_of_refused hone rfl]

theorem refuseMoot_of_nil (h : x.moots = []) : RefusedMoot u (u.refuseMoot a core x q st) a core x q st := by
  unfold RefusedMoot
  rw [refuseMoot_eq_leaveMoot u a core q st h, ctx_leaveMoot, ctx_setCtx_self]
  obtain ⟨hframe, hsome, hnone⟩ := Ctx.bumpMark_spec
    (({ x.takeMoot q (.refused st) {} with moots := [] } : Ctx).note .moot st (x.nextIndex .moot)) q.mark
  rw [hframe]
  refine ⟨rfl, rfl, rfl, rfl, rfl, rfl, rfl, rfl, rfl, Tbl.get_set_self .., Tbl.get_set_self .., hsome, fun hm => ?_⟩
  rw [hnone hm]
  rfl

end

/-- A row that answers with a refusal of the head: behind an operation that has not completed it waits its turn, alone it completes at
once. -/
theorem exec_refuseMoot {s u : State} {core a : Nat} {x : Ctx} {q : QOp} {st : Status}
    (h : exec (.mootQueueHead core) s = .next (u.refuseMoot a core x q st)) :
    (∀ r0 rs, x.moots = r0 :: rs → (∀ z, r0.phase ≠ .refused z ∧ r0.phase ≠ .done z) →
      exec (.mootQueueHead core) s = .next (u.setCtx a core (x.takeMoot q (.refused st) {}))) ∧
    (x.moots = [] → ∃ t, exec (.mootQueueHead core) s = .next t ∧ RefusedMoot u t a core x q st) :=
  ⟨fun _ _ hs hr => by rw [h, refuseMoot_of_open u a core q st hs hr], fun hs => ⟨_, h, refuseMoot_of_nil u a core q st hs⟩⟩

/-! ### The two instructions, and what an accepted one is -/

theorem QOp.isPublish_eq_false_of_isContrib {q : QOp} (h : q.isContrib = true) : q.isPublish = false := by
  simp only [QOp.isContrib, QOp.isPublish, beq_iff_eq, beq_eq_false_iff_ne] at *
  omega

theorem QOp.isContrib_eq_false_of_isPublish {q : QOp} (h : q.isPublish = true) : q.isContrib = false := by
  simp only [QOp.isContrib, QOp.isPublish, beq_iff_eq, beq_eq_false_iff_ne] at *
  omega

/-- An accepted operation has not lost its group in the queue (spec/14 R426). -/
theorem lost_eq_false_of_mootCheck {s : State} {a c : Nat} {q : QOp} (h : s.mootCheck a c q = .ok) : q.lost = false := by
  rw [Bool.eq_false_iff]
  intro hlost
  simp [State.mootCheck, hlost] at h

/-! ### The head of the queue (spec/07 R201, spec/14 R412) -/

/-- What the head waits for before its checks: a free place, and spilled pages. -/
def State.mootHeadWaits (s : State) (a core : Nat) (q : QOp) : Bool :=
  decide (64 ≤ s.mootStarted core) ||
    (!q.lost && !(q.isContrib && q.mAbstains) && s.spilledIn a ((natOf q.mAddr).getD 0) q.mLen)

/-- What an accepted M.CONTRIB waits for: the close of its bucket, and room for a new one. -/
def State.mootNoRoom (s : State) (q : QOp) : Bool :=
  q.isContrib && ((s.bucketAt q.mGroup q.mBucketNo).isSome ||
    decide (268435456 < ((s.openBuckets q.mGroup).map (fun e => 2 * e.2.len)).foldl (· + ·) 0 + 2 * q.mLen))

/-- What any accepted operation waits for: the fences and the earlier operations on its range. -/
def State.mootRangeHeld (s : State) (a core : Nat) (x : Ctx) (q : QOp) : Bool :=
  x.mustWait q (s.mootFp q) || !x.boardRoom (s.windowOf a core) (s.mootFp q)

/-- The state after an M.CONTRIB that nothing holds. -/
def State.startContrib (s : State) (a core : Nat) (x : Ctx) (q : QOp) : State :=
  let s1 := (s.translate a core (s.mootFp q)).openBucket a core q
  if q.mAbstains then
    (((s1.setCtx a core (x.takeMoot q (.done .ok) {})).settleMoots a core).takeEarly q.mGroup q.mStep q.mBucketNo).contribute
      q.mGroup q.mBucketNo {}
  else
    (s1.setCtx a core (x.takeMoot q (.reading q.mGroup q.mBucketNo) (s.mootFp q))).takeEarly q.mGroup q.mStep q.mBucketNo

/-- The state after an accepted head: it waits, is refused by checked mode, or starts. -/
def State.startMoot (s : State) (a core : Nat) (x : Ctx) (q : QOp) : State :=
  if s.mootNoRoom q then s
  else if s.mootRangeHeld a core x q then s
  else if q.isPublish && s.mOwns q then s
  else if x.hazard (s.windowOf a core) .moot (s.mootFp q) then (s.noteHazard a core).refuseMoot a core x q .hazard
  else if q.isPublish then
    ((s.translate a core (s.mootFp q)).setCtx a core
      (x.takeMoot q (.waitShard q.mGroup q.mBucketNo) (s.mootFp q))).wakePublish a
  else s.startContrib a core x q

section
variable {s : State} {core a : Nat} {x : Ctx} {q : QOp} {rest : List QOp}

/-- The row of the head, with its three ways named. -/
theorem execMootQueueHead_cases (ho : s.onCore core = some (a, x)) (hq : x.mootQ = q :: rest) :
    (s.mootHeadWaits a core q = true → exec (.mootQueueHead core) s = .next s) ∧
    (s.mootHeadWaits a core q = false →
      (∀ st, s.mootCheck a core q = st → st ≠ .ok → exec (.mootQueueHead core) s = .next (s.refuseMoot a core x q st)) ∧
      (s.mootCheck a core q = .ok → exec (.mootQueueHead core) s = .next (s.startMoot a core x q))) := by
  change (_ → execMootQueueHead core s = _) ∧
    (_ → (∀ st, _ → _ → execMootQueueHead core s = _) ∧ (_ → execMootQueueHead core s = _))
  unfold execMootQueueHead
  rw [ho]
  dsimp only
  rw [hq]
  dsimp only
  refine ⟨fun hw => if_pos hw, fun hw => ?_⟩
  have hgo := Bool.eq_false_iff.mp hw
  refine ⟨fun st hc hst => (if_neg hgo).trans ?_, fun hc => (if_neg hgo).trans ?_⟩
  · rw [hc]
    cases st with
    | ok => exact absurd rfl hst
    | _ => rfl
  · rw [hc]
    simp only [State.startMoot, State.startContrib, apply_ite Host.Outcome.next]
    rfl

/-- Something holds an accepted head, or it is the owner's M.PUBLISH: it waits. -/
theorem startMoot_of_held
    (h : (s.mootNoRoom q || s.mootRangeHeld a core x q) = true ∨ (q.isPublish = true ∧ s.mOwns q = true)) :
    s.startMoot a core x q = s := by
  rw [State.startMoot]
  rcases h with h | ⟨hpub, hown⟩
  · rcases (Bool.or_eq_true ..).mp h with h | h
    · exact if_pos h
    · rw [if_pos h, ite_self]
  · rw [hpub, hown, Bool.and_self, if_pos rfl, ite_self, ite_self]

/-- A head that nothing holds, and that is not the owner's M.PUBLISH. -/
theorem startMoot_of_free (hroom : s.mootNoRoom q = false) (hrange : s.mootRangeHeld a core x q = false)
    (howner : (q.isPublish && s.mOwns q) = false) :
    (x.hazard (s.windowOf a core) .moot (s.mootFp q) = true →
      s.startMoot a core x q = (s.noteHazard a core).refuseMoot a core x q .hazard) ∧
    (x.hazard (s.windowOf a core) .moot (s.mootFp q) = false →
      (q.isPublish = true → s.startMoot a core x q =
        ((s.translate a core (s.mootFp q)).setCtx a core
          (x.takeMoot q (.waitShard q.mGroup q.mBucketNo) (s.mootFp q))).wakePublish a) ∧
      (q.isPublish = false → s.startMoot a core x q = s.startContrib a core x q)) := by
  rw [State.startMoot, if_neg (Bool.eq_false_iff.mp hroom), if_neg (Bool.eq_false_iff.mp hrange),
    if_neg (Bool.eq_false_iff.mp howner)]
  refine ⟨fun hh => if_pos hh, fun hh => ?_⟩
  rw [if_neg (Bool.eq_false_iff.mp hh)]
  exact ⟨fun hp => if_pos hp, fun hp => if_neg (Bool.eq_false_iff.mp hp)⟩

end

/-! ### The bucket that an M.CONTRIB opens (spec/14 R411) -/

theorem bucketAt_openBucket (s : State) (a core : Nat) (q : QOp) :
    (s.openBucket a core q).bucketAt q.mGroup q.mBucketNo =
      some { step := q.mStep, bucket := q.mBucketNo, len := q.mLen, allot := a, core := core
             forwarded := !s.mOwns q &&
               (shardTargets (s.mRanks q.mGroup) (s.mRank q.mGroup) (q.mBucketNo % s.mRanks q.mGroup)).isEmpty } :=
  Tbl.find_set_self ..

theorem mState_openBucket (s : State) (a core : Nat) (q : QOp) : (s.openBucket a core q).mState q.mGroup = 2 :=
  State.reg_setReg_self ..

/-! ### The owner's M.PUBLISH (spec/14 R416, R417) -/

/-- The stream in which the owner of a bucket sends its shard. -/
def Bucket.publishedStream (k : Bucket) (bs : List Byte) : MStream :=
  let p := k.reduced.getD {}
  { step := k.step, bucket := k.bucket, roll := p.roll, samples := p.samples, faulty := p.faulty, length := bs.length, bytes := bs }

/-- The state after the owner's M.PUBLISH has read its shard, and sent it to the ranks below. -/
def State.sendShard (s : State) (a core : Nat) (x : Ctx) (q : QOp) (k : Bucket) : State :=
  let s1 := (s.translate a core (s.mootFp q)).setCtx a core
    (x.takeMoot q (.done (rollStatus (s.mRanks q.mGroup) (k.reduced.getD {}).roll)) {})
  ((s1.modBucket q.mGroup q.mBucketNo (fun y => { y with forwarded := true })).forwardShard q.mGroup q.mBucketNo
    (k.publishedStream (s.readVa a ((natOf q.mAddr).getD 0) q.mLen)) true).settleMoots a core

section
variable {s : State} {core a : Nat} {x : Ctx} {q : QOp} {rest : List QOp} {k : Bucket}

/-- An owner's M.PUBLISH waits for its bucket's landing. -/
theorem exec_publishStart_of_not_landed (ho : s.onCore core = some (a, x)) (hq : x.mootQ = q :: rest)
    (hk : s.bucketAt q.mGroup q.mBucketNo = some k) (hland : k.landed = false) : exec (.publishStart a core) s = .next s := by
  simp [exec, execPublishStart, ho, hq, hk, hland]

/-- An accepted owner's M.PUBLISH of a landed bucket without poison, which nothing holds, sends its shard. -/
theorem exec_publishStart_of_landed (ho : s.onCore core = some (a, x)) (hq : x.mootQ = q :: rest)
    (hk : s.bucketAt q.mGroup q.mBucketNo = some k) (hpub : q.isPublish = true) (hwait : s.mootHeadWaits a core q = false)
    (hcheck : s.mootCheck a core q = .ok) (hown : s.mOwns q = true) (hstep : k.step = q.mStep) (hbucket : k.bucket = q.mBucketNo)
    (hrange : s.mootRangeHeld a core x q = false) (hhazard : x.hazard (s.windowOf a core) .moot (s.mootFp q) = false)
    (hland : k.landed = true) (hpoison : (s.readP a ((natOf q.mAddr).getD 0) q.mLen).any Prod.snd = false) :
    exec (.publishStart a core) s = .next (s.sendShard a core x q k) := by
  have hlost := lost_eq_false_of_mootCheck hcheck
  have hcon := QOp.isContrib_eq_false_of_isPublish hpub
  simp only [State.mootHeadWaits, State.mootRangeHeld, hlost, hcon, Bool.or_eq_false_iff, Bool.not_false, Bool.false_and,
    Bool.true_and] at hwait hrange
  obtain ⟨hplace, hspill⟩ := hwait
  obtain ⟨hfence, hboard⟩ := hrange
  have hlen : (s.readP a ((natOf q.mAddr).getD 0) q.mLen).length = (s.readVa a ((natOf q.mAddr).getD 0) q.mLen).length :=
    (List.length_map _).symm
  change execPublishStart a core s = _
  unfold execPublishStart
  rw [ho]
  dsimp only
  rw [hq]
  dsimp only
  rw [hk]
  dsimp only
  rw [if_neg (by simp [hpub, hplace, hspill, hcheck, hown, hstep, hbucket, hland, hfence, hboard]),
    if_neg (Bool.eq_false_iff.mp hhazard), if_neg (Bool.eq_false_iff.mp hpoison), hlen]
  rfl

end

/-- An M.PUBLISH that completes marks its bucket as published, and at the owner frees the landing slot (spec/14 R411, R414). -/
theorem publishDone_of_bucketAt {t : State} {q : QOp} {k : Bucket} (hk : t.bucketAt q.mGroup q.mBucketNo = some k)
    (hstep : k.step = q.mStep) (hbucket : k.bucket = q.mBucketNo) :
    (t.mOwns q = true → t.publishDone q =
      ((t.setBucket q.mGroup q.mBucketNo { k with published := true }).unland q.mGroup q.mBucketNo).tryClose q.mGroup q.mBucketNo) ∧
    (t.mOwns q = false → t.publishDone q =
      (t.setBucket q.mGroup q.mBucketNo { k with published := true }).tryClose q.mGroup q.mBucketNo) := by
  constructor <;> intro hown <;> simp [State.publishDone, hk, hstep, hbucket, hown]

/-- Settles O32, by the three ways of the head of the queue and the owner's start. -/
theorem mootOperations : Obligations.MootOperations := by
  intro s core a x q rest ho hq g b v waits full held hazard refused
  obtain ⟨hwaiting, hgoing⟩ := execMootQueueHead_cases ho hq
  have hheld : held = (s.mootNoRoom q || s.mootRangeHeld a core x q) := Bool.or_assoc ..
  refine ⟨hwaiting, fun st hw hc hst => exec_refuseMoot ((hgoing hw).1 st hc hst), fun hw hc hwait => ?_,
    fun hw hc hfree hhazard hkind => ?_, fun hw hc hfree hhazard => ?_, fun t k hk hstep hbucket => publishDone_of_bucketAt hk hstep hbucket⟩
  · rw [(hgoing hw).2 hc, startMoot_of_held (hheld ▸ hwait)]
  · obtain ⟨hroom, hrange⟩ := Bool.or_eq_false_iff.mp (hheld ▸ hfree)
    have howner : (q.isPublish && s.mOwns q) = false := by
      rcases hkind with h | ⟨-, h⟩
      · rw [QOp.isPublish_eq_false_of_isContrib h, Bool.false_and]
      · rw [h, Bool.and_false]
    exact exec_refuseMoot (((hgoing hw).2 hc).trans (congrArg _ ((startMoot_of_free hroom hrange howner).1 hhazard)))
  · obtain ⟨hroom, hrange⟩ := Bool.or_eq_false_iff.mp (hheld ▸ hfree)
    refine ⟨fun hcon => ?_, fun hpub hother => ?_, fun hpub hown k hk hstep hbucket => ?_⟩
    · have hpub := QOp.isPublish_eq_false_of_isContrib hcon
      have hstart : exec (.mootQueueHead core) s = .next (s.startContrib a core x q) := by
        rw [(hgoing hw).2 hc, ((startMoot_of_free hroom hrange (by rw [hpub, Bool.false_and])).2 hhazard).2 hpub]
      exact ⟨fun habs => hstart.trans (congrArg _ (if_neg (Bool.eq_false_iff.mp habs))),
        fun habs => hstart.trans (congrArg _ (if_pos habs)),
        bucketAt_openBucket v a core q, mState_openBucket v a core q, rfl, rfl⟩
    · rw [(hgoing hw).2 hc, ((startMoot_of_free hroom hrange (by rw [hother, Bool.and_false])).2 hhazard).1 hpub]
    · exact ⟨exec_publishStart_of_not_landed ho hq hk, fun hland hpoison =>
        exec_publishStart_of_landed ho hq hk hpub hw hc hown hstep hbucket hrange hhazard hland hpoison⟩

end Sys2Proof.Machine
end

section
/-! The encoding of the Ganger's instructions: the codes and fields of a word, and the instruction that an instruction's word decodes to
(spec/08 R231 to R237). -/

namespace Sys2Proof.Machine

/-! ### Codes -/

@[simp] theorem aluFnOf_aluFnCode (fn : AluFn) : aluFnOf (aluFnCode fn) = some fn := by cases fn <;> rfl

@[simp] theorem shKindOf_shKindCode (k : ShKind) : shKindOf (shKindCode k) = some k := by cases k <;> rfl

@[simp] theorem ccOf_ccCode (cc : Cc) : ccOf (ccCode cc) = some cc := by cases cc <;> rfl

/-- G.ESC has no code for the save area. -/
theorem engineOf_engineCode {e : Engine} (h : e ≠ .saveArea) : engineOf (engineCode e) = some e := by
  cases e
  case saveArea => exact absurd rfl h
  all_goals rfl

theorem aluFnCode_lt (fn : AluFn) : aluFnCode fn < 2 ^ 4 := by cases fn <;> decide

theorem shKindCode_lt (k : ShKind) : shKindCode k < 2 ^ 2 := by cases k <;> decide

theorem ccCode_lt (cc : Cc) : ccCode cc < 2 ^ 3 := by cases cc <;> decide

theorem engineCode_lt (e : Engine) : engineCode e < 2 ^ 3 := by cases e <;> decide

/-! ### Fields

Each lemma reduces what the decoder reads from a word to an equation that omega decides from the word's sum of fields. -/

theorem fld_eq (w hi lo v : Nat) (h : w / 2 ^ lo % 2 ^ (hi + 1 - lo) = v) : fld w hi lo = v := h

theorem bitAt_eq_true (w i : Nat) (h : w / 2 ^ i % 2 = 1) : bitAt w i = true := beq_iff_eq.mpr h

theorem bitAt_eq_false (w i : Nat) (h : w / 2 ^ i % 2 = 0) : bitAt w i = false := by rw [bitAt, h]; rfl

theorem regField_eq (w lo : Nat) (r : Reg) (h : w / 2 ^ lo % 2 ^ 5 = r.toNat) : regField w lo = r := BitVec.eq_of_toNat_eq h

theorem ofNat_eq_of_mod {n : Nat} (x : Nat) (v : BitVec n) (h : x % 2 ^ n = v.toNat) : BitVec.ofNat n x = v := BitVec.eq_of_toNat_eq h

/-- The word of two registers and a 16-bit immediate. -/
theorem fields_regImm {w op : Nat} {rd ra : Reg} {imm : W16} (hop : op < 2 ^ 6)
    (hw : op * 2 ^ 26 + rd.toNat * 2 ^ 21 + ra.toNat * 2 ^ 16 + imm.toNat = w) :
    fld w 31 26 = op ∧ regField w 21 = rd ∧ regField w 16 = ra ∧ BitVec.ofNat 16 w = imm :=
  ⟨fld_eq w 31 26 op (by omega), regField_eq w 21 rd (by omega), regField_eq w 16 ra (by omega), ofNat_eq_of_mod w imm (by omega)⟩

/-- The word of one register in the second register field. -/
theorem fields_reg {w op : Nat} {ra : Reg} (hop : op < 2 ^ 6) (hw : op * 2 ^ 26 + ra.toNat * 2 ^ 16 = w) :
    fld w 31 26 = op ∧ fld w 25 21 = 0 ∧ regField w 16 = ra ∧ fld w 15 0 = 0 :=
  ⟨fld_eq w 31 26 op (by omega), fld_eq w 25 21 0 (by omega), regField_eq w 16 ra (by omega), fld_eq w 15 0 0 (by omega)⟩

/-- The word of a G.TALLY form that reads a register (spec/08 R234). -/
theorem fields_tally {w form : Nat} {ra : Reg} (hform : form < 2 ^ 3) (hw : 0x2A * 2 ^ 26 + ra.toNat * 2 ^ 16 + form * 2 ^ 13 = w) :
    fld w 31 26 = 0x2A ∧ regField w 16 = ra ∧ fld w 15 13 = form ∧ fld w 12 0 = 0 :=
  ⟨fld_eq w 31 26 0x2A (by omega), regField_eq w 16 ra (by omega), fld_eq w 15 13 form (by omega), fld_eq w 12 0 0 (by omega)⟩

/-! ### Words -/

/-- The opcodes of the Ganger's instructions lie below those of the engines (spec/08 R231). -/
theorem gangerEncode_lt {i : Instr} {w : Nat} (hw : gangerEncode i = some w) : w < 0x3C * 2 ^ 26 := by
  cases i
  case gWait mark v => cases v <;> cases hw <;> omega
  any_goals cases hw
  case gAlu fn => have := aluFnCode_lt fn; omega
  case gShi k _ => have := shKindCode_lt k; omega
  case gBCc cc _ _ _ => have := ccCode_lt cc; omega
  case gEsc e => have := engineCode_lt e; omega
  all_goals omega

theorem beginsEngine_of_lt {w : Nat} (h : w < 0x3C * 2 ^ 26) : beginsEngine w = false := decide_eq_false (by unfold fld; omega)

/-- The decoder takes the opcode, the codes and the operands out of the word as the encoder put them there, and finds the reserved
fields 0 (spec/08 R234, R236). -/
theorem gangerDecode_gangerEncode {i : Instr} {core w : Nat} (hw : gangerEncode i = some w) (hwf : i.wf = true)
    (hcore : i.fetchCore = some core) : gangerDecode core w = i := by
  cases i <;> cases hcore
  case gWait mark v =>
    cases v <;> injection hw with hw
    case imm v =>
      simp [-Nat.reducePow, gangerDecode, fld_eq w 31 26 0x24 (by omega), bitAt_eq_false w 19 (by omega), fld_eq w 18 14 0 (by omega),
        ofNat_eq_of_mod (w / 2 ^ 20) mark (by omega), ofNat_eq_of_mod w v (by omega)]
    case reg ra =>
      simp [-Nat.reducePow, gangerDecode, fld_eq w 31 26 0x24 (by omega), bitAt_eq_true w 19 (by omega), fld_eq w 13 0 0 (by omega),
        ofNat_eq_of_mod (w / 2 ^ 20) mark (by omega), regField_eq w 14 ra (by omega)]
  any_goals injection hw with hw
  case gAddi | gAndi | gOri | gXori | gSlti | gLdB | gLdH | gLdW | gLdD | gStB | gStH | gStW | gStD =>
    obtain ⟨hop, hrd, hra, himm⟩ := fields_regImm (by decide) hw
    simp only [gangerDecode, hop, hrd, hra, himm]
  case gAlu rd ra rb fn =>
    have hfn := aluFnCode_lt fn
    simp [-Nat.reducePow, gangerDecode, fld_eq w 31 26 0x01 (by omega), fld_eq w 3 0 (aluFnCode fn) (by omega),
      fld_eq w 10 4 0 (by omega), regField_eq w 21 rd (by omega), regField_eq w 16 ra (by omega), regField_eq w 11 rb (by omega)]
  case gShi rd ra k n =>
    have hk := shKindCode_lt k
    simp [-Nat.reducePow, gangerDecode, fld_eq w 31 26 0x06 (by omega), fld_eq w 15 14 (shKindCode k) (by omega),
      fld_eq w 13 6 0 (by omega), regField_eq w 21 rd (by omega), regField_eq w 16 ra (by omega), ofNat_eq_of_mod w n (by omega)]
  case gMovk rd lane imm =>
    simp [-Nat.reducePow, gangerDecode, fld_eq w 31 26 0x08 (by omega), fld_eq w 18 16 0 (by omega), regField_eq w 21 rd (by omega),
      ofNat_eq_of_mod (w / 2 ^ 19) lane (by omega), ofNat_eq_of_mod w imm (by omega)]
  case gNld nest ra off =>
    simp [-Nat.reducePow, gangerDecode, fld_eq w 31 26 0x18 (by omega), fld_eq w 22 21 0 (by omega),
      ofNat_eq_of_mod (w / 2 ^ 23) nest (by omega), regField_eq w 16 ra (by omega), ofNat_eq_of_mod w off (by omega)]
  case gBCc cc ra rb off =>
    have hcc := ccCode_lt cc
    simp [-Nat.reducePow, gangerDecode, fld_eq w 31 26 0x20 (by omega), fld_eq w 15 13 (ccCode cc) (by omega),
      regField_eq w 21 ra (by omega), regField_eq w 16 rb (by omega), ofNat_eq_of_mod w off (by omega)]
  case gJ off =>
    simp [-Nat.reducePow, gangerDecode, fld_eq w 31 26 0x21 (by omega), ofNat_eq_of_mod w off (by omega)]
  case gLoop rc endOff =>
    simp [-Nat.reducePow, gangerDecode, fld_eq w 31 26 0x22 (by omega), fld_eq w 20 16 0 (by omega), regField_eq w 21 rc (by omega),
      ofNat_eq_of_mod w endOff (by omega)]
  case gBrk =>
    simp [-Nat.reducePow, gangerDecode, fld_eq w 31 26 0x23 (by omega), fld_eq w 25 0 0 (by omega)]
  case gMset mark ra =>
    simp [-Nat.reducePow, gangerDecode, fld_eq w 31 26 0x25 (by omega), fld_eq w 14 0 0 (by omega),
      ofNat_eq_of_mod (w / 2 ^ 20) mark (by omega), regField_eq w 15 ra (by omega)]
  case gMrd rd mark =>
    simp [-Nat.reducePow, gangerDecode, fld_eq w 31 26 0x26 (by omega), fld_eq w 14 0 0 (by omega), regField_eq w 21 rd (by omega),
      ofNat_eq_of_mod (w / 2 ^ 15) mark (by omega)]
  case gEsc rd e =>
    have hwf : (okCore core && e != .saveArea) = true := hwf
    have he : e ≠ .saveArea := bne_iff_ne.mp (Bool.and_elim_right hwf)
    have hcode := engineCode_lt e
    simp [-Nat.reducePow, gangerDecode, fld_eq w 31 26 0x27 (by omega), fld_eq w 20 18 (engineCode e) (by omega),
      fld_eq w 17 0 0 (by omega), regField_eq w 21 rd (by omega), engineOf_engineCode he]
  case gPring | gPost | gSwap =>
    obtain ⟨hop, hhigh, hra, hlow⟩ := fields_reg (by decide) hw
    simp [gangerDecode, hop, hhigh, hra, hlow]
  case gProvOpen e =>
    simp [-Nat.reducePow, gangerDecode, fld_eq w 31 26 0x29 (by omega), fld_eq w 23 22 0 (by omega), fld_eq w 21 0 0 (by omega),
      ofNat_eq_of_mod (w / 2 ^ 24) e (by omega)]
  case gProvConfirm e =>
    simp [-Nat.reducePow, gangerDecode, fld_eq w 31 26 0x29 (by omega), fld_eq w 23 22 1 (by omega), fld_eq w 21 0 0 (by omega),
      ofNat_eq_of_mod (w / 2 ^ 24) e (by omega)]
  case gProvCancel e =>
    simp [-Nat.reducePow, gangerDecode, fld_eq w 31 26 0x29 (by omega), fld_eq w 23 22 2 (by omega), fld_eq w 21 0 0 (by omega),
      ofNat_eq_of_mod (w / 2 ^ 24) e (by omega)]
  case gTallyB ra =>
    simp [-Nat.reducePow, gangerDecode, fld_eq w 31 26 0x2A (by omega), fld_eq w 15 13 0 (by omega), fld_eq w 12 0 0 (by omega),
      regField_eq w 16 ra (by omega)]
  case gTallyH | gTallyW | gTallyS =>
    obtain ⟨hop, hra, hsub, hlow⟩ := fields_tally (by decide) hw
    simp [gangerDecode, hop, hra, hsub, hlow]
  case gTallyR rd =>
    simp [-Nat.reducePow, gangerDecode, fld_eq w 31 26 0x2A (by omega), fld_eq w 15 13 4 (by omega), fld_eq w 12 0 0 (by omega),
      regField_eq w 21 rd (by omega)]
  case gTime rd =>
    simp [-Nat.reducePow, gangerDecode, fld_eq w 31 26 0x2B (by omega), fld_eq w 20 0 0 (by omega), regField_eq w 21 rd (by omega)]
  case gHalt =>
    simp [-Nat.reducePow, gangerDecode, fld_eq w 31 26 0x2E (by omega), fld_eq w 25 0 0 (by omega)]
  case gAddr rb ri sh =>
    simp [-Nat.reducePow, gangerDecode, fld_eq w 31 26 0x2F (by omega), bitAt_eq_false w 11 (by omega), fld_eq w 10 0 0 (by omega),
      regField_eq w 21 rb (by omega), regField_eq w 16 ri (by omega), ofNat_eq_of_mod (w / 2 ^ 12) sh (by omega)]
  case gAddr2 rb ri sh =>
    simp [-Nat.reducePow, gangerDecode, fld_eq w 31 26 0x2F (by omega), bitAt_eq_true w 11 (by omega), fld_eq w 10 0 0 (by omega),
      regField_eq w 21 rb (by omega), regField_eq w 16 ri (by omega), ofNat_eq_of_mod (w / 2 ^ 12) sh (by omega)]
  all_goals cases hw

/-- Settles O8: the decoder reads the fields back, and the word lies below the words of the engines. -/
theorem gangerWordRoundTrip : Obligations.GangerWordRoundTrip := by
  intro i core w hw hwf hcore
  have hlt := gangerEncode_lt hw
  exact ⟨gangerDecode_gangerEncode hw hwf hcore, beginsEngine_of_lt hlt, by omega⟩

/-- Settles O9: the decoder on each of the words. -/
theorem gangerWordSamples : Obligations.GangerWordSamples := by
  unfold Obligations.GangerWordSamples
  decide

end Sys2Proof.Machine
end

section
/-! The Ganger's scalar registers and its arithmetic (spec/07, section The Ganger; spec/08 R234). -/

namespace Sys2Proof.Machine

/-! ### Scalar registers -/

theorem Ctx.setS_zero (x : Ctx) (v : W64) : x.setS 0 v = x := rfl

theorem Ctx.setS_of_ne_zero (x : Ctx) {r : Reg} (v : W64) (h : r ≠ 0) : x.setS r v = { x with sregs := x.sregs.set r.toNat v } := if_neg h

theorem Ctx.s_of_ne_zero (x : Ctx) {r : Reg} (h : r ≠ 0) : x.s r = Tbl.get 0 x.sregs r.toNat := if_neg h

theorem Ctx.s_setS_self (x : Ctx) {r : Reg} (v : W64) (h : r ≠ 0) : (x.setS r v).s r = v := by
  rw [Ctx.setS_of_ne_zero x v h, Ctx.s_of_ne_zero _ h, Tbl.get_set_self]

theorem Ctx.s_setS_ne (x : Ctx) {r q : Reg} (v : W64) (h : q ≠ r) : (x.setS r v).s q = x.s q := by
  by_cases hr : r = 0
  · rw [hr, Ctx.setS_zero]
  · by_cases hq : q = 0
    · rw [hq, Ctx.s_zero, Ctx.s_zero]
    · have hcode : q.toNat ≠ r.toNat := fun hc => h (BitVec.eq_of_toNat_eq hc)
      rw [Ctx.setS_of_ne_zero x v hr, Ctx.s_of_ne_zero _ hq, Ctx.s_of_ne_zero _ hq, Tbl.get_set_ne _ _ _ hcode]

/-! ### The lanes of G.MOVK -/

/-- A number whose n bits from bit k on are replaced: what stands above them, the new value, and what stands below them. -/
theorem replaceField_eq (x k n v : Nat) :
    x - x / 2 ^ k % 2 ^ n * 2 ^ k + v * 2 ^ k = 2 ^ k * (2 ^ n * (x / 2 ^ k / 2 ^ n) + v) + x % 2 ^ k := by
  have hx : 2 ^ k * (2 ^ n * (x / 2 ^ k / 2 ^ n) + x / 2 ^ k % 2 ^ n) + x % 2 ^ k = x := by rw [Nat.div_add_mod, Nat.div_add_mod]
  generalize x / 2 ^ k / 2 ^ n = high, x / 2 ^ k % 2 ^ n = old, x % 2 ^ k = low at hx ⊢
  rw [Nat.sub_eq_of_eq_add (c := 2 ^ k * (2 ^ n * high) + low) (by rw [← hx]; ring)]
  ring

theorem testBit_replaceField (x k n i : Nat) {v : Nat} (hv : v < 2 ^ n) :
    (x - x / 2 ^ k % 2 ^ n * 2 ^ k + v * 2 ^ k).testBit i = if k ≤ i ∧ i < k + n then v.testBit (i - k) else x.testBit i := by
  rw [replaceField_eq, Nat.testBit_two_pow_mul_add _ (Nat.mod_lt _ (by positivity)), Nat.testBit_two_pow_mul_add _ hv]
  by_cases hbelow : i < k
  · have hout : ¬ (k ≤ i ∧ i < k + n) := by omega
    rw [if_pos hbelow, if_neg hout, Nat.testBit_mod_two_pow, decide_eq_true hbelow, Bool.true_and]
  · by_cases hin : i - k < n
    · have hfield : k ≤ i ∧ i < k + n := by omega
      rw [if_neg hbelow, if_pos hin, if_pos hfield]
    · have hout : ¬ (k ≤ i ∧ i < k + n) := by omega
      have hi : i - k - n + n + k = i := by omega
      rw [if_neg hbelow, if_neg hin, if_neg hout, Nat.testBit_div_two_pow, Nat.testBit_div_two_pow, hi]

theorem getLsbD_movkResult (v : W64) (lane : BitVec 2) (imm : W16) {i : Nat} (hi : i < 64) :
    (movkResult v lane.toNat imm).getLsbD i =
      if 16 * lane.toNat ≤ i ∧ i < 16 * lane.toNat + 16 then imm.getLsbD (i - 16 * lane.toNat) else v.getLsbD i := by
  have hwidth : 16 * lane.toNat + 15 + 1 - 16 * lane.toNat = 16 := by omega
  rw [movkResult, fld, hwidth, BitVec.getLsbD_ofNat, testBit_replaceField _ _ _ _ imm.isLt, BitVec.testBit_toNat, BitVec.testBit_toNat,
    decide_eq_true hi, Bool.true_and]

/-- Settles O10: the reads after a write, and the bits of the lane. -/
theorem scalarRegisters : Obligations.ScalarRegisters :=
  ⟨fun x _ v => ⟨x.s_zero, x.setS_zero v, x.s_setS_self v, fun _ => x.s_setS_ne v⟩, fun v lane imm _ => getLsbD_movkResult v lane imm⟩

/-! ### Arithmetic -/

/-- Settles O11: each instruction writes its result and moves on; G.SLTI compares with the immediate extended by its sign. -/
theorem gangerArithmetic : Obligations.GangerArithmetic := by
  intro s core a x rd ra rb imm
  refine ⟨fun fn hdue => ganger_moves hdue rfl, fun hdue => ganger_moves hdue rfl, fun hdue => ganger_moves hdue rfl,
    fun hdue => ganger_moves hdue rfl, fun hdue => ganger_moves hdue rfl, fun kind n hdue => ganger_moves hdue rfl, fun hdue => ?_,
    fun lane hdue => ganger_moves hdue rfl⟩
  have hless : (x.s ra).slt (imm.signExtend 64) = decide ((x.s ra).toInt < imm.toInt) := by
    rw [BitVec.slt, BitVec.toInt_signExtend_of_le (by decide)]
  refine ganger_moves hdue ?_
  simp only [State.gWrite, hless, decide_eq_true_eq]

end Sys2Proof.Machine
end

section
/-! Memory: a byte that is read back, and one list for one content (spec/09 R253). The pages that a transfer touches (spec/09 R264, R265), and
a spilled page that a cache still holds when it comes back (spec/09 R262, R271). -/

namespace Sys2Proof.Machine

/-! ### Memory in its canonical form (spec/07 R200, spec/09 R253) -/

theorem Mem.wfFrom_cons_iff {b k : Nat} {v : Byte} {t : List Host.Cell} :
    Mem.wfFrom b ((k, v) :: t) = true ↔ b ≤ k ∧ v ≠ 0 ∧ Mem.wfFrom (k + 1) t = true := by
  simp [Mem.wfFrom, and_assoc]

/-- Below the bound of a canonical list nothing is listed. -/
theorem Mem.read_eq_zero_of_lt {p : Nat} : ∀ {m : List Host.Cell} {b : Nat}, Mem.wfFrom b m = true → p < b → Mem.read m p = 0
  | [], _, _, _ => rfl
  | (k, v) :: t, b, hm, hp => by
    obtain ⟨hk, -, ht⟩ := Mem.wfFrom_cons_iff.mp hm
    have hne : k ≠ p := by omega
    rw [Mem.read, if_neg hne]
    exact Mem.read_eq_zero_of_lt ht (by omega)

theorem Mem.read_write_self (a : Nat) (v : Byte) : ∀ (m : List Host.Cell) (b : Nat), Mem.wfFrom b m = true →
    Mem.read (Mem.write m a v) a = v
  | [], _, _ => by
    rw [Mem.write]
    split <;> simp_all [Mem.read]
  | (k, w) :: t, b, hm => by
    obtain ⟨-, -, ht⟩ := Mem.wfFrom_cons_iff.mp hm
    have habsent (ha : a ≤ k) : Mem.read t a = 0 := Mem.read_eq_zero_of_lt ht (by omega)
    rw [Mem.write]
    split
    · next hlt => split <;> simp_all [Mem.read, hlt.ne', hlt.le]
    · split
      · split <;> simp_all [Mem.read]
      · next hka =>
        rw [Mem.read, if_neg hka]
        exact Mem.read_write_self a v t _ ht

/-- The first entry of a canonical list is at the lowest address that another list of the same content holds. -/
theorem Mem.key_le_of_read_eq {b k j : Nat} {v w : Byte} {t u : List Host.Cell} (hm : Mem.wfFrom b ((k, v) :: t) = true)
    (hn : Mem.wfFrom b ((j, w) :: u) = true) (h : ∀ p, Mem.read ((k, v) :: t) p = Mem.read ((j, w) :: u) p) : j ≤ k := by
  obtain ⟨-, hv, -⟩ := Mem.wfFrom_cons_iff.mp hm
  obtain ⟨-, hw, hu⟩ := Mem.wfFrom_cons_iff.mp hn
  by_contra hlt
  have habsent : Mem.read ((j, w) :: u) k = 0 :=
    Mem.read_eq_zero_of_lt (Mem.wfFrom_cons_iff.mpr ⟨le_rfl, hw, hu⟩) (by omega)
  have hheld : Mem.read ((k, v) :: t) k = v := if_pos rfl
  exact hv (hheld.symm.trans ((h k).trans habsent))

/-- Canonical lists of one content are one list. -/
theorem Mem.eq_of_read_eq : ∀ {m n : List Host.Cell} {b : Nat}, Mem.wfFrom b m = true → Mem.wfFrom b n = true →
    (∀ p, Mem.read m p = Mem.read n p) → m = n
  | [], [], _, _, _, _ => rfl
  | [], (j, w) :: u, _, _, hn, h => by
    obtain ⟨-, hw, -⟩ := Mem.wfFrom_cons_iff.mp hn
    exact absurd (by simpa [Mem.read] using (h j).symm) hw
  | (k, v) :: t, [], _, hm, _, h => by
    obtain ⟨-, hv, -⟩ := Mem.wfFrom_cons_iff.mp hm
    exact absurd (by simpa [Mem.read] using h k) hv
  | (k, v) :: t, (j, w) :: u, _, hm, hn, h => by
    obtain rfl : k = j := le_antisymm (Mem.key_le_of_read_eq hn hm fun p => (h p).symm) (Mem.key_le_of_read_eq hm hn h)
    obtain rfl : v = w := by simpa [Mem.read] using h k
    obtain ⟨-, -, ht⟩ := Mem.wfFrom_cons_iff.mp hm
    obtain ⟨-, -, hu⟩ := Mem.wfFrom_cons_iff.mp hn
    have htail : ∀ p, Mem.read t p = Mem.read u p := by
      intro p
      by_cases hp : k = p
      · rw [Mem.read_eq_zero_of_lt ht (by omega), Mem.read_eq_zero_of_lt hu (by omega)]
      · simpa [Mem.read, hp] using h p
    rw [Mem.eq_of_read_eq ht hu htail]

/-- Settles O6: the byte written is found where the order of the addresses puts it, and a canonical list is what it reads as. -/
theorem memoryReadWrite : Obligations.MemoryReadWrite := by
  intro m a v hm
  exact ⟨Mem.wf_write m a v hm, Mem.read_write_self a v m 0 hm, fun p hp => Mem.read_write_ne v hp m, fun n hn => Mem.eq_of_read_eq hm hn⟩

/-! ### Every page of a transfer (spec/09 R264, R265) -/

section
variable {s : State} {a : Nat}

theorem pageOf_of_mapped {va len v : Nat} (h : s.mapped a va len = true) (hv : v ∈ pagesOf va len) : ∃ d, s.pageOf a v = some d := by
  have hall : s.allPages a va len (fun _ _ => true) = true := Bool.and_elim_right h
  have hpage := List.all_eq_true.mp hall v hv
  cases hd : s.pageOf a v with
  | none => simp [hd] at hpage
  | some d => exact ⟨d, rfl⟩

/-- A property that no page of the ranges has: each page that one of them touches lacks it. -/
theorem eq_false_of_no_page {l : List VRange} {p : Nat → PageDesc → Bool} (h : ¬ l.any (fun r => s.anyPage a r.va r.len p) = true)
    {r : VRange} (hr : r ∈ l) {v : Nat} (hv : v ∈ pagesOf r.va r.len) {d : PageDesc} (hd : s.pageOf a v = some d) : p v d = false := by
  by_contra hp
  have hpage : s.anyPage a r.va r.len p = true := List.any_eq_true.mpr ⟨v, hv, by simpa [hd] using hp⟩
  exact h (List.any_eq_true.mpr ⟨r, hr, hpage⟩)

/-- What a transfer that no order of the table Transfer checks refuses has passed. -/
structure TransferPasses (s : State) (a : Nat) (src dst : List VRange) (toHawk : Bool) : Prop where
  mapped : ∀ r ∈ src ++ dst, s.mapped a r.va r.len = true
  readable : ¬ src.any (fun r => s.anyPage a r.va r.len (fun _ d => !d.r)) = true
  noDraw : toHawk = false → ¬ src.any (fun r => s.anyPage a r.va r.len (fun _ d => d.draw)) = true
  drawIncoming : ¬ dst.any (fun r => s.anyPage a r.va r.len (fun v d => d.draw && !s.incomingWell a v)) = true
  notFrozen : ¬ dst.any (fun r => s.anyPage a r.va r.len (fun _ d => d.frozen)) = true
  writable : ¬ dst.any (fun r => s.anyPage a r.va r.len (fun _ d => !d.w)) = true

theorem transferPasses_of_ok {src dst : List VRange} {toHawk : Bool} (h : s.transferCheck a src dst toHawk = .ok) :
    TransferPasses s a src dst toHawk := by
  unfold State.transferCheck at h
  dsimp only at h
  split at h; · cases h
  next hmapped =>
  split at h; · cases h
  next hr =>
  split at h; · cases h
  next hdraw =>
  split at h; · cases h
  next hincoming =>
  split at h; · cases h
  next hfrozen =>
  split at h; · cases h
  next hw =>
  exact {
    mapped := by simpa only [Bool.not_eq_true', Bool.not_eq_false, List.all_eq_true] using hmapped
    readable := hr
    noDraw := fun hhawk hany => hdraw (by rw [hhawk, hany]; rfl)
    drawIncoming := hincoming
    notFrozen := hfrozen
    writable := fun hany => hw (by rw [hany]; rfl) }

end

/-- Settles O31: each order of the checks asks every page of the ranges. -/
theorem everyPageChecked : Obligations.EveryPageChecked := by
  intro s a src dst toHawk hok
  have hpasses := transferPasses_of_ok hok
  refine ⟨fun r hr v hv => ?_, fun r hr v hv => ?_⟩
  · obtain ⟨d, hd⟩ := pageOf_of_mapped (hpasses.mapped r (List.mem_append_left _ hr)) hv
    have hread := eq_false_of_no_page hpasses.readable hr hv hd
    exact ⟨d, hd, by simpa using hread, fun hhawk => eq_false_of_no_page (hpasses.noDraw hhawk) hr hv hd⟩
  · obtain ⟨d, hd⟩ := pageOf_of_mapped (hpasses.mapped r (List.mem_append_right _ hr)) hv
    have hwrite := eq_false_of_no_page hpasses.writable hr hv hd
    have hincoming := eq_false_of_no_page hpasses.drawIncoming hr hv hd
    exact ⟨d, hd, by simpa using hwrite, eq_false_of_no_page hpasses.notFrozen hr hv hd, fun hdraw => by simpa [hdraw] using hincoming⟩

/-! ### A spilled page that a cache holds (spec/09 R262, R271) -/

/-- The caches of the Carters that an outcome holds. -/
def carterCachesOf : Res → Tbl CarterCache
  | .next t => t.carterCaches
  | _ => []

/-- Page 0 of allotment 0's window on core 0, spilled, with an entry of it in a Carter's cache: the Carter translates the addresses of a
block before it checks them. -/
def spilledCached : State :=
  { ctxs := [(ctxKey 0 0, { pages := [(0, { spilled := true })] })]
    carterCaches := [(0, { users := [0], entries := [{ allot := 0, page := pageKey loftVa, desc := { spilled := true } }] })] }

/-- When the page comes back its entry leaves the cache. -/
theorem carterCaches_pageReturn_spilledCached :
    carterCachesOf (exec (.pageReturn 0 0 0) spilledCached) = [(0, { users := [0], entries := [] })] := by decide

/-- Refutes O43: its equation for the return of a page has every cache as it was, and the return drops the page's entries. -/
theorem not_pageCommands : ¬ Obligations.PageCommands := by
  intro h
  obtain ⟨-, -, hspills⟩ := h
  obtain ⟨-, hreturn, -⟩ := hspills spilledCached 0 0 0 { spilled := true } rfl
  have hdropped := carterCaches_pageReturn_spilledCached
  rw [hreturn rfl rfl] at hdropped
  exact absurd hdropped (by decide)

end Sys2Proof.Machine
end

section
/-! The Tally of a program, and the Carter: the record that becomes a job, and what becomes of a job's block in flight (spec/09 R275 to R283,
spec/19 R532). -/

namespace Sys2Proof.Machine

/-! ### The Tally of a program (spec/09 R278, R283) -/

theorem crcBytes_append (crc : Nat) (l m : List Byte) : crcBytes crc (l ++ m) = crcBytes (crcBytes crc l) m := List.foldl_append

/-- The top byte of a 64-bit word is zero when the word fits into the 56 bits below it. -/
theorem topByte_eq_zero_iff (w : W64) : fld w.toNat 63 56 = 0 ↔ w.toNat < 2 ^ 56 := by
  have hword := w.isLt
  simp only [fld]
  omega

/-- Settles O19: each form absorbs its bytes and moves on, START by its top byte, and the Tally of a list is absorbed byte by byte. -/
theorem gangerTally : Obligations.GangerTally := by
  refine ⟨fun s core a x r => ⟨fun hdue => ganger_moves hdue rfl, fun hdue => ganger_moves hdue rfl, fun hdue => ganger_moves hdue rfl,
    fun hdue hprefix => ?_, fun hdue hlong => ?_, fun hdue => ganger_moves hdue rfl⟩, crcBytes_append, ?_, ?_, fun a f bs => ?_⟩
  · have htop : fld (x.s r).toNat 63 56 = 0 := (topByte_eq_zero_iff _).mpr hprefix
    exact ganger_moves hdue (if_neg (not_not.mpr htop))
  · have htop : fld (x.s r).toNat 63 56 ≠ 0 := fun h => absurd ((topByte_eq_zero_iff _).mp h) (not_lt.mpr hlong)
    exact ganger_eq hdue ((if_pos htop).trans (selfHaltNoted_of_due hdue _))
  · decide +kernel
  · decide
  · rw [crcBytes_append]
    rfl

/-! ### Records (spec/09 R275, R277) -/

theorem execCarterJob_of_record {s : State} {a n : Nat} {d : StreamDesc} (hdesc : (s.stream a n).desc = some d) (hcarter : d.carter = true)
    (hleft : (s.stream a n).left ≠ 0) (hroom : (s.stream a n).waiting.length < 256) (hstreams : n < s.reg (0x3100 + a) 0x09) :
    let r := parseJob (s.recordAt a d (s.stream a n).consumed)
    let s1 := s.modStream a n Stream.consume
    execCarterJob a n s =
      if s.jobStatus a r.1 r.2 = .ok then .next (s1.addJob { allot := a, stream := n, rec' := r.1 }).fillCarters
      else .next (s1.postJob a n r.1 0 (s.jobStatus a r.1 r.2)) := by
  simp only [execCarterJob, hdesc]
  exact if_neg (by simp [hcarter, hleft, hroom, hstreams])

/-! ### A block's transfer (spec/09 R276, R277, R280, R282) -/

section
variable {s : State} {j : Job} {remote : List Byte}

theorem moveBlock_of_checkRefuses (h : s.blockCheck j.allot j.rec' j.blocks ≠ .ok) :
    s.moveBlock j remote = (s, s.blockCheck j.allot j.rec' j.blocks) := by
  unfold State.moveBlock
  split
  · next hok => exact absurd hok h
  · rfl

theorem moveBlock_of_checked (h : s.blockCheck j.allot j.rec' j.blocks = .ok) :
    s.moveBlock j remote =
      if s.qpLive j.allot j.rec'.qp = false then (s, .memberLost)
      else if j.rec'.store = true then s.storeBlock j.allot j.rec' j.blocks
      else s.fetchBlock j.allot j.rec' j.blocks remote := by
  simp only [State.moveBlock, h, Bool.not_eq_true']

section
variable (hcheck : s.blockCheck j.allot j.rec' j.blocks = .ok) (hlive : s.qpLive j.allot j.rec'.qp = true)
include hcheck hlive

theorem moveBlock_of_fetch (hfetch : j.rec'.store = false) : s.moveBlock j remote = s.fetchBlock j.allot j.rec' j.blocks remote := by
  rw [moveBlock_of_checked hcheck, if_neg (ne_false_of_eq_true hlive), if_neg (Bool.eq_false_iff.mp hfetch)]

theorem moveBlock_of_store (hstore : j.rec'.store = true) : s.moveBlock j remote = s.storeBlock j.allot j.rec' j.blocks := by
  rw [moveBlock_of_checked hcheck, if_neg (ne_false_of_eq_true hlive), if_pos hstore]

end

end

section
variable {s : State} {a k : Nat} {r : JobRec} {remote : List Byte}

/-- The state once a fetched block has come: the read is sent, and what it brings counts in the host meter. -/
def State.blockFetched (s : State) (a : Nat) (r : JobRec) (k : Nat) (remote : List Byte) : State :=
  (s.sendQp r.qp (.hostRead r.qp (r.raddr + 65536 * k) r.rkey (r.blockLen k)) 0).bumpReg (0x3100 + a) 0x22
    (remote.take (r.blockLen k)).length

/-- Whether what has come has the check value of the block's manifest word. -/
def State.blockMatches (s : State) (a : Nat) (r : JobRec) (k : Nat) (remote : List Byte) : Bool :=
  (tally a (r.blockF k) (remote.take (r.blockLen k))).toNat == ofLe (s.readVa a (r.mva + 4 * k) 4)

/-- A fetched block: short, with a poisoned manifest word, with another check value, or written. -/
theorem fetchBlock_eq :
    s.fetchBlock a r k remote =
      if remote.length < r.blockLen k then (s.blockFetched a r k remote, .tallyMismatch)
      else if s.poisonedVa a (r.mva + 4 * k) 4 = true then (s.blockFetched a r k remote, .passAbortedFault)
      else if s.blockMatches a r k remote = false then (s.blockFetched a r k remote, .tallyMismatch)
      else ((s.blockFetched a r k remote).writeVa a (r.lva + 65536 * k) (remote.take (r.blockLen k)), .ok) := by
  have hshort : (remote.take (r.blockLen k)).length < r.blockLen k ↔ remote.length < r.blockLen k := by
    rw [List.length_take]
    omega
  simp only [State.fetchBlock, State.blockMatches, beq_eq_false_iff_ne, hshort]
  rfl

theorem fetchBlock_of_matches (hfull : r.blockLen k ≤ remote.length) (hclean : s.poisonedVa a (r.mva + 4 * k) 4 = false)
    (hmatch : s.blockMatches a r k remote = true) :
    s.fetchBlock a r k remote =
      ((s.blockFetched a r k remote).writeVa a (r.lva + 65536 * k) (remote.take (r.blockLen k)), .ok) := by
  rw [fetchBlock_eq, if_neg (not_lt.mpr hfull), if_neg (Bool.eq_false_iff.mp hclean), if_neg (ne_false_of_eq_true hmatch)]

theorem fetchBlock_of_mismatch
    (h : remote.length < r.blockLen k ∨ (s.poisonedVa a (r.mva + 4 * k) 4 = false ∧ s.blockMatches a r k remote = false)) :
    s.fetchBlock a r k remote = (s.blockFetched a r k remote, .tallyMismatch) := by
  rw [fetchBlock_eq]
  by_cases hshort : remote.length < r.blockLen k
  · rw [if_pos hshort]
  · obtain ⟨hclean, hmatch⟩ := h.resolve_left hshort
    rw [if_neg hshort, if_neg (Bool.eq_false_iff.mp hclean), if_pos hmatch]

theorem fetchBlock_of_poisoned (hfull : r.blockLen k ≤ remote.length) (hpoisoned : s.poisonedVa a (r.mva + 4 * k) 4 = true) :
    s.fetchBlock a r k remote = (s.blockFetched a r k remote, .passAbortedFault) := by
  rw [fetchBlock_eq, if_neg (not_lt.mpr hfull), if_pos hpoisoned]

theorem storeBlock_of_clean (h : s.poisonedVa a (r.lva + 65536 * k) (r.blockLen k) = false) :
    let bs := s.readVa a (r.lva + 65536 * k) (r.blockLen k)
    s.storeBlock a r k =
      (((s.sendQp r.qp (.hostWrite r.qp (r.raddr + 65536 * k) r.rkey bs) (r.blockLen k)).bumpReg (0x3100 + a) 0x22 (r.blockLen k)).writeVa a
        (r.mva + 4 * k) (leBytes 4 (tally a (r.blockF k) bs).toNat), .ok) :=
  if_neg (Bool.eq_false_iff.mp h)

end

/-! ### A block in flight that is done (spec/09 R276, spec/10 R314) -/

/-- A host job without a stop rests when it has no block in flight, or no message crosses on its live queue pair (log entry 114). -/
theorem jobRests_iff_of_host {s : State} {j : Job} (hhost : j.larder = none) :
    s.jobRests j = true ↔ j.flight = 0 ∨ (s.qpLive j.allot j.rec'.qp = true ∧ s.crosses j.rec'.qp = false) := by
  simp [State.jobRests, Job.moves, Job.onQp, hhost]

/-- What a block that has moved leaves: the watchdog and the counters, and the job at its next block or at its end. -/
def State.blockMoved (t : State) (job : Nat) (j : Job) : State :=
  let u := (t.petWatchdog j.allot).perf j.allot 6 (j.rec'.blockLen j.blocks)
  if j.rec'.blocks ≤ j.blocks + 1 then (u.endJob job j (j.blocks + 1) .ok).fillCarters
  else ({ u with jobs := u.jobs.set job { j with blocks := j.blocks + 1, flight := j.flight - 1 } } : State).fillCarters

section
variable {s : State} {job : Nat} {j : Job} {remote : List Byte} (hj : s.fillCarters.jobs.find job = some j)
include hj

theorem exec_carterBlockDone_of_stop (hhost : j.larder = none) {st : Status} (hstop : j.stop = some st) :
    exec (.carterBlockDone job remote) s = .next (s.fillCarters.endJob job j j.blocks st).fillCarters := by
  change execCarterBlockDone job remote s = _
  unfold execCarterBlockDone
  dsimp only
  rw [hj]
  dsimp only
  rw [hhost, hstop]

/-- A host job goes on by what the transfer of its block answers. -/
theorem exec_carterBlockDone_of_host (hhost : j.larder = none) (hstop : j.stop = none) :
    exec (.carterBlockDone job remote) s =
      if s.fillCarters.jobRests j = true then .next s.fillCarters
      else if ((s.fillCarters.translateBlock j).moveBlock j remote).2 = .ok then
        .next (((s.fillCarters.translateBlock j).moveBlock j remote).1.blockMoved job j)
      else .next (((s.fillCarters.translateBlock j).moveBlock j remote).1.endJob job j j.blocks
        ((s.fillCarters.translateBlock j).moveBlock j remote).2).fillCarters := by
  change execCarterBlockDone job remote s = _
  unfold execCarterBlockDone
  extract_lets t
  rw [show t.jobs.find job = some j from hj]
  dsimp -zeta only
  split
  · next hwork => exact absurd (hwork.symm.trans hhost) nofun
  · next hst => exact absurd (hst.symm.trans hstop) nofun
  · refine if_congr Iff.rfl rfl ?_
    extract_lets r
    refine if_congr Iff.rfl ?_ rfl
    extract_lets
    unfold State.blockMoved
    split <;> rfl

theorem exec_carterBlockDone_of_rests (hhost : j.larder = none) (hstop : j.stop = none) (hrests : s.fillCarters.jobRests j = true) :
    exec (.carterBlockDone job remote) s = .next s.fillCarters :=
  (exec_carterBlockDone_of_host hj hhost hstop).trans (if_pos hrests)

section
variable (hhost : j.larder = none) (hstop : j.stop = none) (hmoves : s.fillCarters.jobRests j = false) {u : State}
include hhost hstop hmoves

theorem exec_carterBlockDone_of_moved (hblock : (s.fillCarters.translateBlock j).moveBlock j remote = (u, .ok)) :
    exec (.carterBlockDone job remote) s = .next (u.blockMoved job j) := by
  rw [exec_carterBlockDone_of_host hj hhost hstop, if_neg (Bool.eq_false_iff.mp hmoves), hblock, if_pos rfl]

theorem exec_carterBlockDone_of_refused {st : Status} (hblock : (s.fillCarters.translateBlock j).moveBlock j remote = (u, st))
    (hst : st ≠ .ok) : exec (.carterBlockDone job remote) s = .next (u.endJob job j j.blocks st).fillCarters := by
  rw [exec_carterBlockDone_of_host hj hhost hstop, if_neg (Bool.eq_false_iff.mp hmoves), hblock, if_neg hst]

end

theorem exec_carterBlockDone_of_larder {h : Nat} {w : LarderWork} (hwork : j.larder = some (h, w)) :
    exec (.carterBlockDone job remote) s =
      if s.fillCarters.jobRests j = true ∨ (s.fillCarters.activating ≠ none ∧ w ≠ .recheck) then .next s.fillCarters
      else .next (s.fillCarters.workDone job j h w remote).fillCarters.settle := by
  change execCarterBlockDone job remote s = _
  unfold execCarterBlockDone
  dsimp only
  rw [hj]
  dsimp only
  rw [hwork]
  exact if_congr (by simp [Option.isSome_iff_ne_none]) rfl rfl

end

/-- A Carter with four blocks in flight takes no other (spec/19 R532). -/
theorem fillCarter_of_full {s : State} {p : Nat} (h : 4 ≤ s.inFlight p) : ∀ fuel, s.fillCarter p fuel = s
  | 0 => rfl
  | _ + 1 => if_pos h

/-- Settles O39: the two ends of a record, the ways of a block in flight by its checks, the limit of four, and the Larder's blocks. -/
theorem carterJobs : Obligations.CarterJobs := by
  refine ⟨?_, ?_, fun s p fuel h => fillCarter_of_full h fuel, ?_⟩
  · intro s a n d hdesc hcarter hleft hroom hstreams r s1
    have hrecord : exec (.carterJob a n) s = _ := execCarterJob_of_record hdesc hcarter hleft hroom hstreams
    exact ⟨fun hok => ⟨hrecord.trans (if_pos hok), rfl⟩, fun hbad => hrecord.trans (if_neg hbad)⟩
  · intro s0 job j remote s hj hhost
    refine ⟨fun st hstop => exec_carterBlockDone_of_stop hj hhost hstop, fun hstop => exec_carterBlockDone_of_rests hj hhost hstop,
      jobRests_iff_of_host hhost, ?_⟩
    intro hstop hmoves v r k len ends
    have hends (u : State) : u.blockMoved job j = ends u := rfl
    refine ⟨fun hcheck => ?_, fun hcheck hlost => ?_, fun hcheck hlive => ⟨fun hfetch => ?_, fun hstore hclean => ?_⟩⟩
    · exact exec_carterBlockDone_of_refused hj hhost hstop hmoves (moveBlock_of_checkRefuses hcheck) hcheck
    · exact exec_carterBlockDone_of_refused hj hhost hstop hmoves ((moveBlock_of_checked hcheck).trans (if_pos hlost)) (by decide)
    · have hmove : v.moveBlock j remote = v.fetchBlock j.allot r k remote := moveBlock_of_fetch hcheck hlive hfetch
      exact ⟨
        fun hfull hclean hmatch =>
          (exec_carterBlockDone_of_moved hj hhost hstop hmoves (hmove.trans (fetchBlock_of_matches hfull hclean hmatch))).trans
            (congrArg _ (hends _)),
        fun hbad => exec_carterBlockDone_of_refused hj hhost hstop hmoves (hmove.trans (fetchBlock_of_mismatch hbad)) (by decide),
        fun hfull hpoisoned =>
          exec_carterBlockDone_of_refused hj hhost hstop hmoves (hmove.trans (fetchBlock_of_poisoned hfull hpoisoned)) (by decide)⟩
    · have hmove : v.moveBlock j remote = v.storeBlock j.allot r k := moveBlock_of_store hcheck hlive hstore
      exact (exec_carterBlockDone_of_moved hj hhost hstop hmoves (hmove.trans (storeBlock_of_clean hclean))).trans
        (congrArg _ (hends _))
  · intro s0 job h j w remote s hj hwork
    have hexec : exec (.carterBlockDone job remote) s0 = _ := exec_carterBlockDone_of_larder hj hwork
    refine ⟨fun hrests => hexec.trans (if_pos hrests), fun hmoves hfree => hexec.trans (if_neg ?_)⟩
    rintro (hrests | ⟨hactive, hfill⟩)
    · exact Bool.false_ne_true (hmoves.symm.trans hrests)
    · exact hfree.elim hactive hfill

end Sys2Proof.Machine
end

section
/-! Turns and switches of shared cores, and the budgets and meters of allotments (spec/10 R306 to R309, R315). -/

namespace Sys2Proof.Machine

/-! ### Turns (spec/10 R306, R307) -/

/-- The turn of a holder goes on: it has work and its turn has not expired. -/
def State.turnGoesOn (s : State) (a core : Nat) : Prop :=
  s.timer < (s.core core).turnStart + s.reg (0x3100 + a) 0x04 * 1000 ∧ s.hasWork a core = true

section
variable {s : State} {core : Nat} (hshared : s.sharedCore core = true) (hidle : (s.core core).phase = .idle)
include hshared hidle

/-- A core that nobody holds goes to the first allotment with work. -/
theorem execTurnEnd_of_free (hfree : (s.core core).resident = none) :
    exec (.turnEnd core) s =
      .next ((s.nextTurn core none).elim s fun n => s.setCore core { s.core core with phase := .restoring n }) := by
  change execTurnEnd core s = _
  simp only [execTurnEnd, hshared, hidle, hfree]
  cases s.nextTurn core none <;> rfl

variable {a : Nat} (hholder : (s.core core).resident = some a)
include hholder

/-- A holder that its budget holds leaves, with another or without. -/
theorem execTurnEnd_of_held (hheld : s.budgetHeld a = true) :
    exec (.turnEnd core) s = .next (s.endTurn a core (s.nextTurn core (some a)) .budgetHeld) := by
  change execTurnEnd core s = _
  simp [execTurnEnd, hshared, hidle, hholder, hheld]

theorem execTurnEnd_of_goesOn (hfree : s.budgetHeld a = false) (hgoes : s.turnGoesOn a core) : exec (.turnEnd core) s = .next s := by
  obtain ⟨hearly, hwork⟩ := hgoes
  change execTurnEnd core s = _
  simp [execTurnEnd, hshared, hidle, hholder, hfree, hearly, hwork]

/-- A turn that does not go on passes to the next allotment with work. -/
theorem execTurnEnd_of_next (hfree : s.budgetHeld a = false) (hends : ¬ s.turnGoesOn a core) {n : Nat}
    (hnext : s.nextTurn core (some a) = some n) :
    exec (.turnEnd core) s = .next (s.endTurn a core (some n) (if s.hasWork a core = true then .turnEnded else .haltedIdle)) := by
  change execTurnEnd core s = _
  unfold State.turnGoesOn at hends
  cases hwork : s.hasWork a core <;> simp_all [execTurnEnd]

/-- Without another allotment with work an expired turn is renewed, and an idle holder keeps the core. -/
theorem execTurnEnd_of_alone (hfree : s.budgetHeld a = false) (hends : ¬ s.turnGoesOn a core)
    (hnext : s.nextTurn core (some a) = none) :
    exec (.turnEnd core) s = .next (if (s.core core).turnStart + s.reg (0x3100 + a) 0x04 * 1000 ≤ s.timer
      then s.setCore core { s.core core with turnStart := s.timer } else s) := by
  change execTurnEnd core s = _
  unfold State.turnGoesOn at hends
  cases hwork : s.hasWork a core <;> simp_all [execTurnEnd]

end

/-! ### Switches (spec/10 R308, R309, R318) -/

/-- t differs from s in nothing but the allotments' own state. -/
def AllotsFrame (s t : State) : Prop := t = { s with allots := t.allots }

/-- The watchdog of an allotment is part of its own state. -/
theorem tuneWatchdog_allotsFrame (s : State) (a : Nat) : AllotsFrame s (s.tuneWatchdog a) := by
  fun_cases State.tuneWatchdog s a <;> rfl

@[simp] theorem ctx_tuneWatchdog (s : State) (n a c : Nat) : (s.tuneWatchdog n).ctx a c = s.ctx a c := by
  rw [tuneWatchdog_allotsFrame s n]
  rfl

@[simp] theorem core_tuneWatchdog (s : State) (n c : Nat) : (s.tuneWatchdog n).core c = s.core c := by
  rw [tuneWatchdog_allotsFrame s n]
  rfl

@[simp] theorem regs_tuneWatchdog (s : State) (n : Nat) : (s.tuneWatchdog n).regs = s.regs := by
  rw [tuneWatchdog_allotsFrame s n]

@[simp] theorem mem_tuneWatchdog (s : State) (n : Nat) : (s.tuneWatchdog n).mem = s.mem := by
  rw [tuneWatchdog_allotsFrame s n]

/-- What a switch-out waits for: a started pass or Skimmer operation, a load behind a swapping pass, or the halt of a program that the
watchdog stops. -/
def Ctx.switchHeld (x : Ctx) : Bool := !x.passes.isEmpty || !x.skims.isEmpty || x.load.any LoadRun.behind || x.wdStop

theorem Ctx.switchHeld_eq_true_iff (x : Ctx) :
    x.switchHeld = true ↔ x.passes ≠ [] ∨ x.skims ≠ [] ∨ x.load.any LoadRun.behind = true ∨ x.wdStop = true := by
  simp [Ctx.switchHeld, or_assoc]

/-- The context as a switch-out saves it. -/
def Ctx.saved (x : Ctx) : Ctx := { x with savedRows := x.touched.length, touched := [], everSwitched := true }

/-- The phase of a core whose holder has left for the next one. -/
def SwitchPhase.afterLeaving (next : Option Nat) : SwitchPhase := next.elim .idle .restoring

/-- The state in which the holder of a core has left it for the next one, its context saved. -/
def State.leaveCore (s : State) (a core : Nat) (x : Ctx) (next : Option Nat) : State :=
  (s.setCtx a core x.saved).modCore core (fun k => { k with resident := none, phase := .afterLeaving next })

theorem core_leaveCore (s : State) (a core : Nat) (x : Ctx) (next : Option Nat) :
    (s.leaveCore a core x next).core core = { s.core core with resident := none, phase := .afterLeaving next } :=
  State.core_setCore_self ..

theorem ctx_leaveCore (s : State) (a core : Nat) (x : Ctx) (next : Option Nat) : (s.leaveCore a core x next).ctx a core = x.saved :=
  ctx_setCtx_self s a core x.saved

section
variable {s : State} {core a : Nat} {x : Ctx} {next : Option Nat} {r : SwitchReason} (hphase : (s.core core).phase = .leaving next r)
  (hres : s.resident core = some (a, x))
include hphase hres

theorem execSwitchOut_of_held (hheld : x.switchHeld = true) : exec (.switchOut core) s = .next s := by
  change execSwitchOut core s = _
  rw [execSwitchOut, hphase, hres]
  exact if_pos hheld

theorem execSwitchOut_of_free (hfree : x.switchHeld = false) : exec (.switchOut core) s =
    .next ((s.leaveCore a core x next).tuneWatchdog a) := by
  change execSwitchOut core s = _
  rw [execSwitchOut, hphase, hres]
  refine (if_neg (Bool.eq_false_iff.mp hfree)).trans ?_
  cases next <;> rfl

end

/-- t differs from s in nothing but memory and its poisoned words. -/
def MemFrame (s t : State) : Prop := t = { s with mem := t.mem, poison := t.poison }

theorem MemFrame.trans {s t u : State} (h : MemFrame s t) (k : MemFrame t u) : MemFrame s u := by
  unfold MemFrame at *
  rw [k, h]

theorem writePages_memFrame (a fuel : Nat) (s : State) (va : Nat) (bs : List Byte) : MemFrame s (s.writePages a fuel va bs) := by
  induction fuel generalizing s va bs with
  | zero => rfl
  | succ fuel ih =>
    unfold State.writePages
    split
    · rfl
    · refine MemFrame.trans ?_ (ih _ _ _)
      split <;> rfl

theorem writeVa_memFrame (s : State) (a va : Nat) (bs : List Byte) : MemFrame s (s.writeVa a va bs) := writePages_memFrame ..

/-- A core taken by an allotment with a new turn; its trace stops for a confidential one (spec/15 R458). -/
def State.takeCore (s : State) (n core : Nat) : State :=
  (if s.reg (0x3100 + n) 0x0D = 0 then s else s.stopTrace (· == core)).modCore core
    (fun k => { k with resident := some n, turnStart := s.timer, phase := .idle })

/-- The cores and the trace are all that a taken core changes. -/
theorem takeCore_spec (s : State) (n core : Nat) :
    s.takeCore n core = { s with cores := (s.takeCore n core).cores, traced := (s.takeCore n core).traced } ∧
      (s.takeCore n core).core core = { s.core core with resident := some n, turnStart := s.timer, phase := .idle } := by
  unfold State.takeCore
  split
  · exact ⟨rfl, State.core_setCore_self ..⟩
  · exact ⟨rfl, State.core_setCore_self ..⟩

/-- A context that comes back after a switch-out, with its switch counted. -/
def Ctx.resumedAfterSwitch (x : Ctx) : Ctx := { x with switchCount := x.switchCount + 1, resumed := true }

/-- The state in which a context has come back: one that had been switched out has its switch record. -/
def State.bringBack (s : State) (n core : Nat) (x : Ctx) : State :=
  if x.everSwitched then
    ((s.takeCore n core).writeVa n (s.windowOf n core + 0x81000 + x.switchCount % 64 * 32) (switchRecord x s.timer)).setCtx n core
      x.resumedAfterSwitch
  else s.takeCore n core

theorem execSwitchRestore_of_clean {s : State} {core n : Nat} {x : Ctx} (hx : s.ctx? n core = some x)
    (hphase : (s.core core).phase = .restoring n) (hward : s.wardHeld (core / 32) = false)
    (hclean : x.savePoison = false) : exec (.switchRestore core) s = .next ((s.bringBack n core x).tuneWatchdog n) := by
  change execSwitchRestore core s = _
  rw [execSwitchRestore, hphase]
  dsimp only
  rw [hx]
  refine (if_neg (Bool.eq_false_iff.mp hward)).trans ?_
  exact congrArg (fun u : State => Host.Outcome.next (u.tuneWatchdog n)) (if_neg (Bool.eq_false_iff.mp hclean))

/-- The context that comes back has its switch record in memory and its switch counted, or is as it was. -/
theorem bringBack_cases (s : State) (n core : Nat) (x : Ctx) :
    (∃ u, MemFrame (s.takeCore n core) u ∧ s.bringBack n core x = u.setCtx n core x.resumedAfterSwitch) ∨
      s.bringBack n core x = s.takeCore n core := by
  unfold State.bringBack
  split
  · exact .inl ⟨_, writeVa_memFrame .., rfl⟩
  · exact .inr rfl

/-- The registers stay, the core is taken, and of the context only its switches are noted. -/
theorem bringBack_spec {s : State} {core n : Nat} {x : Ctx} (hx : s.ctx? n core = some x) :
    (s.bringBack n core x).regs = s.regs ∧
      (s.bringBack n core x).core core = { s.core core with resident := some n, turnStart := s.timer, phase := .idle } ∧
      ((s.bringBack n core x).ctx n core = x.resumedAfterSwitch ∨ (s.bringBack n core x).ctx n core = x) := by
  obtain ⟨htake, hcore⟩ := takeCore_spec s n core
  rcases bringBack_cases s n core x with ⟨u, hu, hback⟩ | hback
  · rw [hback]
    refine ⟨?_, ?_, .inl (ctx_setCtx_self ..)⟩
    · rw [State.setCtx_regs, hu, htake]
    · rw [hu]
      exact hcore
  · rw [hback]
    refine ⟨by rw [htake], hcore, .inr ?_⟩
    rw [htake]
    exact ctx_of_ctx? hx

/-! ### Budgets and meters (spec/10 R307, R315) -/

theorem Tbl.find_map_values {α β : Type} (f : α → β) (t : Tbl α) (k : Nat) :
    Tbl.find (t.map fun e => (e.1, f e.2)) k = (t.find k).map f := by
  induction t with
  | nil => rfl
  | cons e t ih =>
    obtain ⟨j, v⟩ := e
    by_cases hj : j = k <;> simp [Tbl.find, hj, ih]

/-- An allotment at the begin of a budget window. -/
def Allot.newWindow (x : Allot) : Allot := { x with held := false, residency := 0 }

theorem execBudgetWindow_of_due {s : State} (h : s.timer % 60000000000 = 0) :
    exec .budgetWindow s = .next { s with allots := s.allots.map fun e => (e.1, e.2.newWindow) } := if_pos h

theorem newWindow_allot (s : State) (m : Nat) :
    ({ s with allots := s.allots.map fun e => (e.1, e.2.newWindow) } : State).allot m = (s.allot m).newWindow := by
  simp only [State.allot, Tbl.get, Tbl.find_map_values]
  cases s.allots.find m <;> rfl

theorem execBudgetReached_of_due {s : State} {n : Nat} (hbudget : s.reg (0x3100 + n) 0x05 ≠ 0)
    (hreached : s.reg (0x3100 + n) 0x05 * 1000 ≤ (s.allot n).residency) (hfree : s.budgetHeld n = false) :
    exec (.budgetReached n) s = .next (s.setAllot n { s.allot n with held := true }) :=
  if_pos ⟨hbudget, hreached, by rw [hfree]; rfl⟩

/-- An allotment's state with a microsecond counted on a core, as residency too where it shares the core. -/
def Allot.countCore (x : Allot) (core us : Nat) : Allot :=
  { x with coreTicks := x.coreTicks.set core us, residency := if x.shared.contains core then x.residency + 1 else x.residency }

/-- A microsecond on a core counted. -/
def State.coreTicked (s : State) (n core : Nat) : State :=
  (s.bumpReg (0x3100 + n) 0x20 1).modAllot n fun x => x.countCore core (s.timer / 1000)

theorem allot_coreTicked (s : State) (n core : Nat) : (s.coreTicked n core).allot n = (s.allot n).countCore core (s.timer / 1000) :=
  State.allot_modAllot_self ..

theorem execCoreMeterTick_of_due {s : State} {n core : Nat}
    (h : s.metered n core = true ∧ Tbl.get 0 (s.allot n).coreTicks core < s.timer / 1000) :
    exec (.coreMeterTick n core) s = .next (s.coreTicked n core) := if_pos h

theorem execCoreMeterTick_of_counted {s : State} {n core : Nat} (h : s.timer / 1000 ≤ Tbl.get 0 (s.allot n).coreTicks core) :
    exec (.coreMeterTick n core) s = .next s := if_neg fun hdue => absurd hdue.2 (not_lt.mpr h)

/-- A millisecond of HBM counted. -/
def State.hbmTicked (s : State) (n : Nat) : State :=
  (s.bumpReg (0x3100 + n) 0x21 (s.meteredMiB n)).modAllot n fun x => { x with hbmTick := s.timer / 1000000 }

theorem hbmTick_hbmTicked (s : State) (n : Nat) : ((s.hbmTicked n).allot n).hbmTick = s.timer / 1000000 :=
  congrArg Allot.hbmTick (State.allot_modAllot_self (s.bumpReg (0x3100 + n) 0x21 (s.meteredMiB n)) n
    fun x => { x with hbmTick := s.timer / 1000000 })

theorem execHbmMeterTick_of_due {s : State} {n : Nat} (h : (s.allot n).hbmTick < s.timer / 1000000 ∧ s.reg (0x3100 + n) 0x01 ≠ 0) :
    exec (.hbmMeterTick n) s = .next (s.hbmTicked n) := if_pos h

theorem execHbmMeterTick_of_counted {s : State} {n : Nat} (h : s.timer / 1000000 ≤ (s.allot n).hbmTick) :
    exec (.hbmMeterTick n) s = .next s := if_neg fun hdue => absurd hdue.1 (not_lt.mpr h)

/-- Settles O41: the ways of a turn's end, what a switch saves and restores, and the budgets and meters, each of which counts once. -/
theorem sharedTurns : Obligations.SharedTurns := by
  refine ⟨fun s core => ⟨fun a hshared hidle hholder hwork => ⟨fun hearly hfree => ?_, fun hlate hfree => ⟨fun n hnext => ?_, fun hnext => ?_⟩,
      execTurnEnd_of_held hshared hidle hholder⟩, fun a hshared hidle hholder hwork hfree => ⟨fun n hnext => ?_, fun hnext hearly => ?_⟩,
      fun hshared hidle hfree => ⟨fun n hnext => ?_, fun hnext => ?_⟩, fun next r a x hphase hres => ⟨fun hheld => ?_, fun hp hs hl hw => ?_⟩,
      fun n x hphase hx hward hclean => ?_⟩,
    fun s n core => ⟨fun hbudget hreached hfree => ?_, fun hwindow => ?_, fun hmetered htick => ?_, fun htick hdefined => ?_⟩⟩
  · exact execTurnEnd_of_goesOn hshared hidle hholder hfree ⟨hearly, hwork⟩
  · rw [execTurnEnd_of_next hshared hidle hholder hfree (fun hgoes => absurd hgoes.1 (not_lt.mpr hlate)) hnext, if_pos hwork]
  · rw [execTurnEnd_of_alone hshared hidle hholder hfree (fun hgoes => absurd hgoes.1 (not_lt.mpr hlate)) hnext, if_pos hlate]
  · rw [execTurnEnd_of_next hshared hidle hholder hfree (fun hgoes => absurd hgoes.2 (by simp [hwork])) hnext, if_neg (by simp [hwork])]
  · rw [execTurnEnd_of_alone hshared hidle hholder hfree (fun hgoes => absurd hgoes.2 (by simp [hwork])) hnext, if_neg (not_le.mpr hearly)]
  · rw [execTurnEnd_of_free hshared hidle hfree, hnext]
    rfl
  · rw [execTurnEnd_of_free hshared hidle hfree, hnext]
    rfl
  · exact execSwitchOut_of_held hphase hres (x.switchHeld_eq_true_iff.mpr hheld)
  · have hheld : x.switchHeld = false := by simp [Ctx.switchHeld, hp, hs, hl, hw]
    refine ⟨_, execSwitchOut_of_free hphase hres hheld, ?_⟩
    rw [core_tuneWatchdog, ctx_tuneWatchdog, mem_tuneWatchdog, regs_tuneWatchdog, core_leaveCore, ctx_leaveCore]
    refine ⟨rfl, ?_, rfl, rfl, rfl, rfl, rfl, rfl, rfl⟩
    cases next <;> rfl
  · refine ⟨_, execSwitchRestore_of_clean hx hphase hward hclean, ?_⟩
    obtain ⟨hregs, hcore, hctx⟩ := bringBack_spec hx
    rw [core_tuneWatchdog, ctx_tuneWatchdog, regs_tuneWatchdog, hcore]
    rcases hctx with hctx | hctx <;> rw [hctx] <;> exact ⟨rfl, rfl, rfl, rfl, rfl, rfl, rfl, hregs⟩
  · refine ⟨_, execBudgetReached_of_due hbudget hreached hfree, ?_, rfl⟩
    rw [State.budgetHeld, State.allot_setAllot_self]
  · refine ⟨_, execBudgetWindow_of_due hwindow, fun m => ?_, rfl, rfl, rfl, rfl⟩
    rw [State.budgetHeld, newWindow_allot]
    exact ⟨rfl, rfl⟩
  · have hcounted : Tbl.get 0 ((s.coreTicked n core).allot n).coreTicks core = s.timer / 1000 := by
      rw [allot_coreTicked]
      exact Tbl.get_set_self ..
    refine ⟨_, execCoreMeterTick_of_due ⟨hmetered, htick⟩, State.reg_bumpReg_self .., hcounted, ?_,
      execCoreMeterTick_of_counted (s := s.coreTicked n core) hcounted.ge, rfl, rfl⟩
    rw [allot_coreTicked, add_ite]
    rfl
  · exact ⟨_, execHbmMeterTick_of_due ⟨htick, hdefined⟩, State.reg_bumpReg_self ..,
      execHbmMeterTick_of_counted (hbmTick_hbmTicked s n).ge, rfl, rfl⟩

end Sys2Proof.Machine
end

section
/-! The fabric: flits taken off a link, discarded or sent on, and transfers between devices at their destination (spec/13 R377, R378, R387,
R392 to R395). -/

namespace Sys2Proof.Machine

/-! ### Taking a flit off a link (spec/13 R377, R378) -/

/-- Whether an entry of the replay buffer stays when a flit acknowledges up to a number. -/
def Sent.unacked (ack : Nat) (e : Sent) : Bool := (ack + 4096 - e.seq) % 4096 == 0 || decide (2048 < (ack + 4096 - e.seq) % 4096)

/-- A link once a flit has been taken off it: what it acknowledges has left the replay buffer, and its credits are back. -/
def Link.take (k : Link) (hdr : FlitHdr) (now : Nat) : Link :=
  { k with
    rx := (k.rx + 1) % 4096
    replay := k.replay.filter (Sent.unacked hdr.ack)
    ackAt := if (k.replay.filter (Sent.unacked hdr.ack)).length != k.replay.length then now else k.ackAt
    credit := if hdr.ccnt = 0 then k.credit else Tbl.modify 0 k.credit hdr.cvc (· + hdr.ccnt) }

/-- The state once a flit has been taken, before anything is sent again. -/
def State.takeFlit (s : State) (l : Nat) (hdr : FlitHdr) : State := (s.setLink l ((s.link l).take hdr s.timer)).fecCount l hdr.seq

/-- A link takes the flit that is next in SEQ order on a channel that it carries, and no other. -/
theorem linkTake_eq_some {s t : State} {l kind : Nat} {hdr : FlitHdr} (h : s.linkTake l hdr kind = some t) :
    s.carries l (if kind = 0 then 0 else hdr.vc) = true ∧ hdr.seq = (s.link l).rx ∧
      t = if (s.link l).replaced hdr then (s.takeFlit l hdr).resend l else s.takeFlit l hdr := by
  by_cases hnext : (!s.carries l (if kind = 0 then 0 else hdr.vc) || hdr.seq != (s.link l).rx) = true
  · exact absurd ((if_pos hnext).symm.trans h) (Option.some_ne_none t).symm
  · have ht := Option.some.inj ((if_neg hnext).symm.trans h)
    simp only [Bool.or_eq_true, Bool.not_eq_true', bne_iff_ne, not_or, Bool.not_eq_false, not_not, ne_eq] at hnext
    exact ⟨hnext.1, hnext.2, ht.symm⟩

theorem link_takeFlit_self (s : State) (l : Nat) (hdr : FlitHdr) : (s.takeFlit l hdr).link l = (s.link l).take hdr s.timer :=
  State.link_setLink_self ..

theorem link_takeFlit_ne (s : State) {l k : Nat} (hdr : FlitHdr) (h : k ≠ l) : (s.takeFlit l hdr).link k = s.link k :=
  State.link_setLink_ne s _ h

theorem mem_replay_take (k : Link) (hdr : FlitHdr) (now : Nat) (e : Sent) :
    e ∈ (k.take hdr now).replay ↔ e ∈ k.replay ∧ ((hdr.ack + 4096 - e.seq) % 4096 = 0 ∨ 2048 < (hdr.ack + 4096 - e.seq) % 4096) := by
  simp [Link.take, Sent.unacked]

theorem creditOf_take_self (k : Link) (hdr : FlitHdr) (now : Nat) :
    (k.take hdr now).creditOf hdr.cvc = k.creditOf hdr.cvc + hdr.ccnt := by
  by_cases h : hdr.ccnt = 0 <;> simp [Link.take, Link.creditOf, h]

theorem creditOf_take_ne (k : Link) (hdr : FlitHdr) (now : Nat) {v : Nat} (hv : v ≠ hdr.cvc) :
    (k.take hdr now).creditOf v = k.creditOf v := by
  by_cases h : hdr.ccnt = 0 <;> simp [Link.take, Link.creditOf, h, hv]

/-- What names a number that has been replaced: an ACK that the buffer no longer holds, or a SEQ taken before. -/
theorem Link.replaced_eq_true_iff (k : Link) (hdr : FlitHdr) : k.replaced hdr = true ↔
    (hdr.ack ≠ k.tx ∧ ∀ x ∈ k.replay, x.seq ≠ hdr.ack) ∨
      (0 < (k.rx + 4096 - hdr.seq) % 4096 ∧ (k.rx + 4096 - hdr.seq) % 4096 ≤ 2048) := by
  simp [Link.replaced, Nat.pos_iff_ne_zero]

theorem linkStray_of_replaced {s : State} {l kind : Nat} {hdr : FlitHdr} (h : (s.link l).replaced hdr = true)
    (hcarries : s.carries l (if kind = 0 then 0 else hdr.vc) = true) : s.linkStray l hdr kind = s.resend l :=
  if_pos (by rw [h, hcarries]; rfl)

theorem linkStray_of_current {s : State} {l : Nat} {hdr : FlitHdr} (h : (s.link l).replaced hdr = false) (kind : Nat) :
    s.linkStray l hdr kind = s :=
  if_neg (by rw [h, Bool.and_false]; exact Bool.false_ne_true)

/-! ### Arrivals (spec/13 R380, R387) -/

section
variable {s t : State} {l kind ctx : Nat} {hdr : FlitHdr} {body : FlitBody} {here : State → State}

theorem arrive_of_stray (h : s.linkTake l hdr kind = none) : s.arrive l hdr kind ctx body here = .next (s.linkStray l hdr kind) := by
  rw [State.arrive, h]

/-- A flit for this device is handled here, and the slot that it held is owed to the neighbour. -/
theorem arrive_here (h : s.linkTake l hdr kind = some t) (hkind : kind ≠ 0) (hdest : hdr.dest = s.house) :
    s.arrive l hdr kind ctx body here = .next (here (t.owe l hdr.vc)).drainFlits := by
  rw [State.arrive, h]
  dsimp only
  rw [if_neg fun hother => hother.2.2 hdest, if_neg hkind]

/-- A flit for another house goes on towards it. -/
theorem arrive_elsewhere (h : s.linkTake l hdr kind = some t) (hkind : 3 ≤ kind ∧ kind ≤ 6) (hdest : hdr.dest ≠ s.house) :
    s.arrive l hdr kind ctx body here = .next ({ t with flitWait := t.flitWait ++
      [({ since := s.timer, mayUp := hdr.vc == 2 || hdr.vc == 3 || s.upStep l, held := some (l, hdr.vc)
          flit := { kind := kind, vc := hdr.vc, dest := hdr.dest, src := hdr.src, household := hdr.household, ctx := ctx, body := body
                    alt := hdr.alt } } : WaitFlit)] } : State).drainFlits := by
  rw [State.arrive, h]
  exact if_pos ⟨hkind.1, hkind.2, hdest⟩

end

/-! ### Inbound transfers (spec/13 R392 to R395) -/

/-- An inbound transfer put in its place and settled. -/
def State.putInbound (s : State) (src xtag : Nat) (x : Inbound) : State :=
  ({ s with inbound := s.inbound.set (inKey src xtag) x } : State).settleInbound src xtag

/-- An inbound transfer with the offset of a DATA flit counted, and a status taken into its choice of R9. -/
def Inbound.count (x : Inbound) (off n : Nat) (st : Status) : Inbound :=
  { x with seen := if x.seen.any (fun e => e.1 == off) then x.seen else x.seen ++ [(off, n)], status := stPick x.status st }

section
variable {s t : State} {l : Nat} {hdr : FlitHdr} {xtag : Nat} {gen : Bool}

section
variable (hdest : hdr.dest = s.house)
include hdest

section
variable {total : Nat} {mk : Option (Nat × Nat)} (ht : s.linkTake l hdr 3 = some t)
include ht

theorem execOpenFlit_of_closed (hx : (t.owe l hdr.vc).inboundOf hdr.src xtag gen hdr.household = none) :
    exec (.openFlit l hdr xtag gen total mk) s = .next (t.owe l hdr.vc).drainFlits := by
  change execOpenFlit l hdr xtag gen total mk s = _
  rw [execOpenFlit, arrive_here ht (by decide) hdest, hx]

theorem execOpenFlit_of_window {x : Inbound} (hx : (t.owe l hdr.vc).inboundOf hdr.src xtag gen hdr.household = some x)
    (hw : ((t.owe l hdr.vc).receiveWindow hdr.household).isSome = true) :
    exec (.openFlit l hdr xtag gen total mk) s =
      .next ((t.owe l hdr.vc).putInbound hdr.src xtag { x with total := some total, mark := mk }).drainFlits := by
  have hwindow : ¬ ((t.owe l hdr.vc).receiveWindow hdr.household).isNone = true := by simp [Option.isSome_iff_ne_none.mp hw]
  change execOpenFlit l hdr xtag gen total mk s = _
  rw [execOpenFlit, arrive_here ht (by decide) hdest, hx]
  dsimp only
  rw [if_neg hwindow]
  rfl

theorem execOpenFlit_of_no_window {x : Inbound} (hx : (t.owe l hdr.vc).inboundOf hdr.src xtag gen hdr.household = some x)
    (hw : (t.owe l hdr.vc).receiveWindow hdr.household = none) :
    exec (.openFlit l hdr xtag gen total mk) s =
      .next (((t.owe l hdr.vc).logDrop hdr.src 0).putInbound hdr.src xtag { x with total := some total, mark := mk }).drainFlits := by
  change execOpenFlit l hdr xtag gen total mk s = _
  rw [execOpenFlit, arrive_here ht (by decide) hdest, hx]
  dsimp only
  rw [hw]
  rfl

end

section
variable {off : Nat} {bs : List Byte} (ht : s.linkTake l hdr 4 = some t)
include ht

theorem execDataFlit_of_closed (hx : (t.owe l hdr.vc).inboundOf hdr.src xtag gen hdr.household = none) :
    exec (.dataFlit l hdr xtag gen off bs) s = .next (t.owe l hdr.vc).drainFlits := by
  change execDataFlit l hdr xtag gen off bs s = _
  rw [execDataFlit, arrive_here ht (by decide) hdest, hx]

variable {x : Inbound} (hx : (t.owe l hdr.vc).inboundOf hdr.src xtag gen hdr.household = some x)
include hx

theorem execDataFlit_of_no_window (hw : (t.owe l hdr.vc).receiveWindow hdr.household = none) :
    exec (.dataFlit l hdr xtag gen off bs) s =
      .next (((t.owe l hdr.vc).logDrop hdr.src 0).putInbound hdr.src xtag (x.count off bs.length .accessDenied)).drainFlits := by
  change execDataFlit l hdr xtag gen off bs s = _
  rw [execDataFlit, arrive_here ht (by decide) hdest, hx]
  dsimp only
  rw [hw]
  rfl

variable {w : Nat × Nat} (hw : (t.owe l hdr.vc).receiveWindow hdr.household = some w)
include hw

theorem execDataFlit_of_allowed (hok : (t.owe l hdr.vc).transferCheck w.1 [] [⟨w.2 + off, bs.length⟩] false = .ok) :
    exec (.dataFlit l hdr xtag gen off bs) s =
      .next (((t.owe l hdr.vc).writeVa w.1 (w.2 + off) bs).putInbound hdr.src xtag (x.count off bs.length .ok)).drainFlits := by
  change execDataFlit l hdr xtag gen off bs s = _
  rw [execDataFlit, arrive_here ht (by decide) hdest, hx]
  dsimp only
  rw [hw]
  dsimp only
  rw [hok]
  rfl

theorem execDataFlit_of_refused {st : Status} (hst : st ≠ .ok)
    (hcheck : (t.owe l hdr.vc).transferCheck w.1 [] [⟨w.2 + off, bs.length⟩] false = st) :
    exec (.dataFlit l hdr xtag gen off bs) s =
      .next ((t.owe l hdr.vc).putInbound hdr.src xtag (x.count off bs.length st)).drainFlits := by
  change execDataFlit l hdr xtag gen off bs s = _
  rw [execDataFlit, arrive_here ht (by decide) hdest, hx]
  dsimp only
  rw [hw]
  dsimp only
  rw [hcheck]
  cases st with
  | ok => exact absurd rfl hst
  | _ => rfl

end

/-! ### DONE (spec/10 R304, spec/13 R394) -/

section
variable {st : Status} {y : Xfer} (ht : s.linkTake l hdr 5 = some t) (hy : (t.owe l hdr.vc).xfers.find xtag = some y)
include ht hy

theorem execDoneFlit_of_open (hdone : (t.owe l hdr.vc).doneFor hdr gen y = true) :
    exec (.doneFlit l hdr xtag gen st) s = .next ((t.owe l hdr.vc).endXfer xtag y st).drainFlits := by
  change execDoneFlit l hdr xtag gen st s = _
  rw [execDoneFlit, arrive_here ht (by decide) hdest, hy, Option.filter_some_pos hdone]

theorem execDoneFlit_of_other (hdone : (t.owe l hdr.vc).doneFor hdr gen y = false) :
    exec (.doneFlit l hdr xtag gen st) s = .next (if ((t.owe l hdr.vc).householdAllot hdr.household).isNone
      then (t.owe l hdr.vc).logDrop hdr.src 0 else t.owe l hdr.vc).drainFlits := by
  change execDoneFlit l hdr xtag gen st s = _
  rw [execDoneFlit, arrive_here ht (by decide) hdest, hy, Option.filter_some_neg hdone]
  rfl

end
end
end

theorem doneFor_eq_true_iff (s : State) (hdr : FlitHdr) (gen : Bool) (y : Xfer) : s.doneFor hdr gen y = true ↔
    y.phase = .opened ∧ y.gen = gen ∧ y.house = hdr.src ∧ s.reg (0x3100 + y.allot) 0x0F = hdr.household := by
  simp [State.doneFor]
  tauto

/-- The tag of a transfer that has ended is closed from then on. -/
theorem find_xfers_endXfer (s : State) (tag : Nat) (x : Xfer) (st : Status) :
    (s.endXfer tag x st).xfers.find tag = some { x with phase := .closed s.timer } := by
  unfold State.endXfer
  dsimp only
  split <;> exact Tbl.find_set_self ..


/-- A tag is free again, under the other generation, once 1 ms has passed since its transfer closed. -/
theorem execTransferTagReuse_of_closed {s : State} {xtag at' : Nat} {y : Xfer} (hy : s.xfers.find xtag = some y)
    (hphase : y.phase = .closed at') : exec (.transferTagReuse xtag) s = if at' + 1000000 ≤ s.timer
      then .next { s with xfers := s.xfers.set xtag { y with phase := .free, gen := !y.gen } } else .next s := by
  change execTransferTagReuse xtag s = _
  rw [execTransferTagReuse, hy]
  dsimp only
  rw [hphase]

theorem execIdleFlit_of_taken {s t : State} {l : Nat} {hdr : FlitHdr} (ht : s.linkTake l hdr 0 = some t) :
    exec (.idleFlit l hdr) s = .next t.drainFlits := by
  change s.arrive l hdr 0 0 .none id = _
  rw [State.arrive, ht]
  dsimp only
  rw [if_neg fun hother => absurd hother.1 (by decide), if_pos rfl, id]

theorem execFlitReserved_of_taken {s t : State} {l : Nat} {hdr : FlitHdr} (ht : s.linkTake l hdr 7 = some t) :
    exec (.flitReserved l hdr) s = .next ((t.owe l hdr.vc).logDropped hdr.src).drainFlits := by
  change execFlitReserved l hdr s = _
  rw [execFlitReserved, ht]

section
variable {s : State} {l : Nat} {hdr : FlitHdr}

/-- A command whose meaning is an arrival, on a flit that its link does not take. -/
theorem exec_of_stray {c : Instr} {kind ctx : Nat} {body : FlitBody} {here : State → State}
    (harrival : exec c s = s.arrive l hdr kind ctx body here) (hstray : s.linkTake l hdr kind = none) :
    exec c s = .next (s.linkStray l hdr kind) := harrival.trans (arrive_of_stray hstray)

/-- DATA for another house goes on with its tag, its generation and its offset as they came. -/
theorem execDataFlit_elsewhere {t : State} {xtag off : Nat} {gen : Bool} {bs : List Byte} (h : s.linkTake l hdr 4 = some t)
    (hdest : hdr.dest ≠ s.house) : exec (.dataFlit l hdr xtag gen off bs) s = .next ({ t with flitWait := t.flitWait ++
      [({ since := s.timer, mayUp := hdr.vc == 2 || hdr.vc == 3 || s.upStep l, held := some (l, hdr.vc)
          flit := { kind := 4, vc := hdr.vc, dest := hdr.dest, src := hdr.src, household := hdr.household
                    ctx := xtag * 2 ^ 36 + b2n gen * 2 ^ 35 + off, body := .bytes bs, alt := hdr.alt } } : WaitFlit)] } : State).drainFlits := by
  change execDataFlit l hdr xtag gen off bs s = _
  rw [execDataFlit, arrive_elsewhere h (by decide) hdest]

end

/-- Settles O35: what a link takes is the next flit of a channel that it carries, whose effect is `State.takeFlit`; every arrival is one
of a stray flit, of one for this device or of one for another, and OPEN, DATA and DONE are said once each by whether the transfer is open
and the household has a receive window. -/
theorem fabricTransfers : Obligations.FabricTransfers := by
  unfold Obligations.FabricTransfers
  refine ⟨⟨fun s t l hdr kind htake => ?_, fun s l hdr xtag total off gen mk bs st ctx body v h e => ?_⟩,
    fun s t l hdr xtag gen => ?_⟩
  · obtain ⟨hcarries, hseq, ht⟩ := linkTake_eq_some htake
    refine ⟨s.takeFlit l hdr, ht, hcarries, hseq, ?_, ?_, ?_, ?_, ?_, rfl, fun k hk => link_takeFlit_ne s hdr hk,
      fun k hk => Tbl.find_set_ne _ _ hk⟩
    all_goals rw [link_takeFlit_self]
    · rw [hseq]; rfl
    · exact mem_replay_take _ hdr _
    · exact fun v hv => creditOf_take_ne _ hdr _ hv
    · exact creditOf_take_self ..
    · rfl
  · exact ⟨exec_of_stray (execIdleFlit.eq_def ..), exec_of_stray (execHelloReceive.eq_def ..),
      exec_of_stray (execTopologyReceive.eq_def ..), exec_of_stray (execOpenFlit.eq_def ..), exec_of_stray (execDataFlit.eq_def ..),
      exec_of_stray (execDoneFlit.eq_def ..),
      fun hstray => ⟨exec_of_stray (execMootFlitOpen.eq_def ..) hstray, exec_of_stray (execShardArrival.eq_def ..) hstray⟩,
      fun _ => ⟨linkStray_of_replaced, fun hcurrent => linkStray_of_current hcurrent _⟩,
      fun k => k.replaced_eq_true_iff hdr, fun _ => execDataFlit_elsewhere⟩
  · refine ⟨execIdleFlit_of_taken,
      fun hx hdest => ⟨fun _ _ htake => execOpenFlit_of_closed hdest htake hx, fun _ _ htake => execDataFlit_of_closed hdest htake hx⟩,
      fun _ _ _ htake hdest hx hw => execOpenFlit_of_window hdest htake hx hw,
      fun _ _ _ _ htake hdest hx hw => ⟨execDataFlit_of_allowed hdest htake hx hw, fun _ => execDataFlit_of_refused hdest htake hx hw⟩,
      fun _ hdest hx hw => ⟨fun _ _ htake => execOpenFlit_of_no_window hdest htake hx hw,
        fun _ _ htake => execDataFlit_of_no_window hdest htake hx hw⟩,
      fun st y htake hdest hy => ⟨fun hopened hgen hhouse hhousehold => ?_, fun hother => ?_⟩,
      fun y at' hy hphase => ?_, fun _ => rfl, execFlitReserved_of_taken⟩
    · have hdone := (doneFor_eq_true_iff (t.owe l hdr.vc) hdr gen y).mpr ⟨hopened, hgen, hhouse, hhousehold⟩
      exact ⟨execDoneFlit_of_open hdest htake hy hdone, find_xfers_endXfer ..⟩
    · have hdone : (t.owe l hdr.vc).doneFor hdr gen y = false := by
        rw [← Bool.not_eq_true, doneFor_eq_true_iff]
        tauto
      rw [execDoneFlit_of_other hdest htake hy hdone]
      exact ⟨fun hlocal => by rw [if_neg (by simp [Option.isSome_iff_ne_none.mp hlocal])], fun hnone => by rw [hnone]; rfl⟩
    · rw [execTransferTagReuse_of_closed hy hphase]
      exact ⟨fun hfree => if_pos hfree, fun hwait => if_neg (Nat.not_le.mpr hwait)⟩

end Sys2Proof.Machine
end

section
/-! What the end of operations, changes that wait for halts, and queue pairs that fail leave of HBM's pages, the Carters' jobs and the
Larder (spec/10 R286, R292, R311). -/

namespace Sys2Proof.Machine

/-! ### What the end of operations leaves of HBM, the Carters and the Larder -/

/-- The pages of HBM, the Carters' jobs and the Larder's entries. -/
def State.holdings (s : State) : Tbl PageDesc × Tbl Job × Tbl LEntry := (s.hbmPages, s.jobs, s.larder)

theorem larder_of_holdings {s t : State} (h : t.holdings = s.holdings) : t.larder = s.larder := congrArg (fun x => x.2.2) h

theorem holdings_ite {s t u : State} (c : Prop) [Decidable c] (ht : t.holdings = s.holdings) (hu : u.holdings = s.holdings) :
    (if c then t else u).holdings = s.holdings := by
  split
  · exact ht
  · exact hu

theorem holdings_foldl {β : Type} {f : State → β → State} (h : ∀ s b, (f s b).holdings = s.holdings) (l : List β) (s : State) :
    (l.foldl f s).holdings = s.holdings := by
  induction l generalizing s with
  | nil => rfl
  | cons b l ih => exact (ih _).trans (h s b)

theorem holdings_modCtx (s : State) (a c : Nat) (f : Ctx → Ctx) : (s.modCtx a c f).holdings = s.holdings := rfl

theorem holdings_zeroRange (s : State) (lo hi : Nat) : (s.zeroRange lo hi).holdings = s.holdings := rfl

theorem PostFrame.holdings {s t : State} (h : PostFrame s t) : t.holdings = s.holdings := by
  rw [h]
  rfl

theorem CtxFrame.holdings {s t : State} (h : CtxFrame s t) : t.holdings = s.holdings := by
  rw [h]
  rfl

theorem MemFrame.holdings {s t : State} (h : MemFrame s t) : t.holdings = s.holdings := by
  rw [h]
  rfl

theorem holdings_writeVa (s : State) (a va : Nat) (bs : List Byte) : (s.writeVa a va bs).holdings = s.holdings :=
  (writeVa_memFrame ..).holdings

theorem holdings_writeP (s : State) (a va : Nat) (bs : List PByte) : (s.writeP a va bs).holdings = s.holdings := holdings_writeVa ..

theorem holdings_count (s : State) (a : Nat) (e : Ev) : (s.count a e).holdings = s.holdings := by
  have hadd (t : State) (sub n : Nat) : (if n = 0 then t else t.bumpReg (0x5000 + a) sub n).holdings = t.holdings :=
    holdings_ite _ rfl rfl
  simp only [State.count, hadd]

/-! #### Passes and operations that end (spec/04 R110, R118, spec/10 R311) -/

theorem holdings_putRecord (s : State) (a c : Nat) (r : HeldRec) : (s.putRecord a c r).holdings = s.holdings := by
  unfold State.putRecord
  dsimp only
  split
  · rfl
  · split
    · rfl
    · split
      · rfl
      · split
        · rfl
        · exact holdings_writeVa ..

theorem holdings_writeRecord (s : State) (a c : Nat) (p : PassRun) (st : Status) (mark : Option Nat) :
    (s.writeRecord a c p st mark).holdings = s.holdings := holdings_putRecord ..

theorem holdings_discardPasses (a c : Nat) (st : Status) (fuel : Nat) (s : State) :
    (s.discardPasses a c st fuel).holdings = s.holdings := by
  induction fuel generalizing s with
  | zero => rfl
  | succ fuel ih =>
    unfold State.discardPasses
    split
    · next p rest _ =>
      dsimp only
      cases p.status with
      | none => exact (ih _).trans (holdings_writeRecord ..)
      | some r => exact (ih _).trans (holdings_writeRecord ..)
    · rfl

theorem holdings_skWrite (s : State) (a c : Nat) (w : SkW) : (s.skWrite a c w).holdings = s.holdings := by
  cases w with
  | loft va bits codes => exact holdings_writeVa ..
  | loftScales va es => exact holdings_writeVa ..
  | _ => rfl

theorem holdings_skPartial (s : State) (a c : Nat) (x : Ctx) (r : SkimRun) : (s.skPartial a c x r).holdings = s.holdings := by
  unfold State.skPartial
  split
  · rfl
  · exact (holdings_count ..).trans (holdings_foldl (fun (t : State) (st : SkStep) => holdings_skWrite t a c st.w) _ _)

theorem holdings_faultSkim (s : State) (a c i : Nat) (r : SkimRun) : (s.faultSkim a c i r).holdings = s.holdings :=
  holdings_ite (s := s) _ (holdings_skPartial ..) rfl

theorem holdings_drainSkims (a c fuel : Nat) (s : State) : (s.drainSkims a c fuel).holdings = s.holdings :=
  (drainSkims_ctxFrame ..).holdings

theorem holdings_copyRows (a c fuel : Nat) (s : State) (src dst : Nat) (bs : List PByte) :
    (s.copyRows a c fuel src dst bs).1.holdings = s.holdings := by
  induction fuel generalizing s src dst bs with
  | zero => rfl
  | succ fuel ih =>
    unfold State.copyRows
    split
    · rfl
    · dsimp only
      rw [ih]
      exact holdings_ite _ (holdings_writeP ..) rfl

theorem holdings_placeVa (s : State) (a c : Nat) (src : Option Nat) (dst : Nat) (bs : List PByte) :
    (s.placeVa a c src dst bs).s.holdings = s.holdings := by
  unfold State.placeVa
  split
  · exact holdings_copyRows ..
  · exact holdings_writeP ..

theorem holdings_putCopy (s : State) (a c : Nat) (x : Ctx) (q : QOp) (bs : List PByte) : (s.putCopy a c x q bs).s.holdings = s.holdings := by
  unfold State.putCopy
  split
  · rfl
  · exact holdings_placeVa ..

theorem holdings_stopPartial (s : State) (a c : Nat) (x : Ctx) (t : TrowelRun) : (s.stopPartial a c x t).holdings = s.holdings := by
  unfold State.stopPartial
  dsimp only
  split
  · exact holdings_count ..
  · rw [holdings_count, holdings_putCopy]
    split <;> exact holdings_count ..

theorem holdings_faultTrowel (s : State) (a c i : Nat) (t : TrowelRun) : (s.faultTrowel a c i t).holdings = s.holdings :=
  holdings_ite (s := s) _ (holdings_stopPartial ..) rfl

theorem holdings_trowelMarkUp (s : State) (a c : Nat) (q : QOp) : (s.trowelMarkUp a c q).holdings = s.holdings := by
  unfold State.trowelMarkUp
  split
  · rfl
  · dsimp only
    split <;> rfl

theorem holdings_trowelDone (s : State) (a c : Nat) (t : TrowelRun) (st : Status) (noted : Bool) :
    (s.trowelDone a c t st noted).holdings = s.holdings :=
  (holdings_trowelMarkUp _ a c t.q).trans (holdings_ite _ rfl rfl)

theorem holdings_drainTrowels (a c fuel : Nat) (s : State) : (s.drainTrowels a c fuel).holdings = s.holdings := by
  induction fuel generalizing s with
  | zero => rfl
  | succ fuel ih =>
    unfold State.drainTrowels
    split
    · split
      · exact (ih _).trans (holdings_trowelDone ..)
      · rfl
    · rfl

/-! #### Flits and the reduction tree (spec/13 R376 to R390, spec/14 R404 to R420) -/

theorem holdings_leaveBy (s : State) (i l : Nat) (w : WaitFlit) : (s.leaveBy i l w).holdings = s.holdings := by
  unfold State.leaveBy
  dsimp only
  split <;> split <;> rfl

theorem holdings_giveSlots (fuel : Nat) (s : State) : (s.giveSlots fuel).holdings = s.holdings := by
  induction fuel generalizing s with
  | zero => rfl
  | succ fuel ih =>
    unfold State.giveSlots
    split
    · rfl
    · rw [ih, holdings_leaveBy]

theorem holdings_returnCredits (l fuel : Nat) (s : State) : (s.returnCredits l fuel).holdings = s.holdings := by
  induction fuel generalizing s with
  | zero => rfl
  | succ fuel ih => exact holdings_ite _ (ih _) rfl

theorem holdings_sendFlits (s : State) (fs : List Flit) : (s.sendFlits fs).holdings = s.holdings :=
  (holdings_foldl (fun _ _ => holdings_ite _ (holdings_returnCredits ..) rfl) _ _).trans (holdings_giveSlots _ _)

theorem holdings_mootTimers (s : State) (g : Nat) : (s.mootTimers g).holdings = s.holdings := by
  unfold State.mootTimers
  dsimp only
  split
  · split
    · rfl
    · split <;> rfl
  · split <;> rfl

theorem holdings_tryClose (s : State) (g b : Nat) : (s.tryClose g b).holdings = s.holdings := by
  unfold State.tryClose
  split
  · rfl
  · dsimp only
    split
    · split <;> rfl
    · rfl

theorem holdings_mootAdvance (g b fuel : Nat) (s : State) : (s.mootAdvance g b fuel).holdings = s.holdings := by
  induction fuel generalizing s with
  | zero => rfl
  | succ fuel ih =>
    unfold State.mootAdvance
    split
    · rfl
    · split
      · rfl
      · dsimp only
        split
        · split
          · rfl
          · rw [holdings_tryClose]
            split
            · exact holdings_sendFlits ..
            · split
              · rfl
              · exact holdings_sendFlits ..
        · split
          · exact ih _
          · split
            · split
              · rfl
              · exact (ih _).trans (holdings_count ..)
            · split <;> rfl

theorem holdings_contribute (s : State) (g b : Nat) (p : MPart) : (s.contribute g b p).holdings = s.holdings := by
  refine (holdings_mootTimers _ g).trans ((holdings_mootAdvance g b _ _).trans ?_)
  unfold State.modBucket
  split <;> rfl

theorem holdings_unland (s : State) (g bucket : Nat) : (s.unland g bucket).holdings = s.holdings := by
  unfold State.unland
  dsimp only
  split <;> rfl

theorem holdings_publishDone (s : State) (q : QOp) : (s.publishDone q).holdings = s.holdings := by
  unfold State.publishDone
  dsimp only
  split
  · rfl
  · split
    · rfl
    · rw [holdings_tryClose]
      split
      · exact holdings_unland ..
      · rfl

theorem holdings_drainMoots (a c fuel : Nat) (s : State) : (s.drainMoots a c fuel).holdings = s.holdings := by
  induction fuel generalizing s with
  | zero => rfl
  | succ fuel ih =>
    unfold State.drainMoots
    split
    · dsimp only
      split
      · exact ih _
      · exact (ih _).trans (holdings_ite _ (holdings_publishDone ..) rfl)
      · rfl
    · rfl

theorem holdings_endMoot (s : State) (a c i : Nat) (r : MootRun) (st : Status) : (s.endMoot a c i r st).holdings = s.holdings := by
  unfold State.endMoot
  split
  · exact holdings_contribute ..
  · rfl
  · rfl

/-! #### Faults of operations on a range that is unmapped (spec/09 R271) -/

theorem holdings_stopAt {s t : State} {a c : Nat} {e : Engine} {cause : FaultCause} {va len op : Nat}
    (h : s.stopAt a c e cause va len = some (op, t)) : t.holdings = s.holdings := by
  cases e with
  | lath =>
    obtain ⟨p, -, hp⟩ := Option.map_eq_some_iff.mp h
    rw [← (Prod.mk.inj hp).2]
  | skimmer =>
    dsimp only [State.stopAt] at h
    split at h
    · cases h
    · split at h
      · cases h
      · obtain ⟨r, -, hr⟩ := Option.map_eq_some_iff.mp h
        rw [← (Prod.mk.inj hr).2, holdings_drainSkims, holdings_faultSkim]
  | trowel =>
    dsimp only [State.stopAt] at h
    split at h
    · cases h
    · split at h
      · cases h
      · obtain ⟨r, -, hr⟩ := Option.map_eq_some_iff.mp h
        rw [← (Prod.mk.inj hr).2, holdings_drainTrowels, holdings_faultTrowel]
  | moot =>
    dsimp only [State.stopAt] at h
    split at h
    · cases h
    · obtain ⟨r, -, hr⟩ := Option.map_eq_some_iff.mp h
      rw [← (Prod.mk.inj hr).2, State.settleMoots, holdings_drainMoots, holdings_endMoot]
  | _ => cases h

theorem holdings_stopUsers (a c : Nat) (e : Engine) (va len fuel : Nat) (s : State) :
    (s.stopUsers a c e va len fuel).1.holdings = s.holdings := by
  induction fuel generalizing s with
  | zero => rfl
  | succ fuel ih =>
    unfold State.stopUsers
    split
    · rfl
    · next hstop =>
      split
      · exact holdings_stopAt hstop
      · exact (ih _).trans (holdings_stopAt hstop)

theorem holdings_writeFaultRecord (s : State) (a c va : Nat) (e : Engine) (cause : FaultCause) (op resume : Nat) :
    (s.writeFaultRecord a c va e cause op resume).holdings = s.holdings :=
  (logEvent_frame ..).holdings.trans (holdings_writeVa ..)

theorem holdings_takeFault (s : State) (a c : Nat) (e : Engine) (cause : FaultCause) (va op : Nat) :
    (s.takeFault a c e cause va op).holdings = s.holdings := by
  rw [State.takeFault]
  dsimp only
  rw [holdings_writeFaultRecord, holdings_modCtx, holdings_discardPasses]

theorem holdings_faultRange (s : State) (a c va len : Nat) : (s.faultRange a c va len).holdings = s.holdings := by
  have hengines (l : List Engine) (acc : State × Option (Engine × Nat)) : (l.foldl (fun (acc : State × Option (Engine × Nat)) e =>
      let x := acc.1.ctx a c
      let q := acc.1.stopUsers a c e va len (x.skims.length + x.trowels.length + x.moots.length + 1)
      (q.1, acc.2.orElse (fun _ => q.2))) acc).1.holdings = acc.1.holdings := by
    induction l generalizing acc with
    | nil => rfl
    | cons e l ih => exact (ih _).trans (holdings_stopUsers ..)
  unfold State.faultRange
  dsimp only
  split
  · exact hengines ..
  · exact (holdings_takeFault ..).trans (hengines ..)

/-! #### Changes that wait for halts (spec/10 R286, R292) -/

theorem holdings_endOnCore (s : State) (a c : Nat) : (s.endOnCore a c).holdings = s.holdings := by
  refine holdings_foldl (fun t e => holdings_ite _ ((cmdDone_frame ..).holdings.trans ?_) rfl) _ s
  exact holdings_ite (s := t) _ rfl rfl

theorem holdings_zeroLoftFrame (s : State) (c f : Nat) : (s.zeroLoftFrame c f).holdings = s.holdings := holdings_zeroRange ..

theorem holdings_trimLoft (s : State) (a c n : Nat) : (s.trimLoft a c n).holdings = s.holdings :=
  holdings_foldl (fun t (e : Nat × PageDesc) => holdings_zeroLoftFrame t c e.2.frame) _ s

theorem holdings_addLoft (a c fuel : Nat) (s : State) (j : Nat) : (s.addLoft a c j fuel).holdings = s.holdings := by
  induction fuel generalizing s j with
  | zero => rfl
  | succ fuel ih => exact holdings_ite _ rfl (ih _ _)

theorem holdings_tuneLoft (s : State) (a c : Nat) : (s.tuneLoft a c).holdings = s.holdings :=
  holdings_ite _ (holdings_addLoft ..) (holdings_ite _ (holdings_trimLoft ..) (holdings_ite _ rfl rfl))

theorem holdings_dropContext (s : State) (a c : Nat) : (s.dropContext a c).holdings = s.holdings := by
  unfold State.dropContext
  extract_lets win s0 s1
  calc
    _ = s1.holdings := rfl
    _ = s0.holdings := (holdings_trimLoft ..).trans (holdings_endOnCore ..)
    _ = s.holdings := holdings_foldl (fun t d => holdings_faultRange t a d win windowSize) _ s

theorem holdings_addContext (s : State) (a c : Nat) : (s.addContext a c).holdings = s.holdings := rfl

theorem holdings_divideHawk (s : State) (c : Nat) : (s.divideHawk c).holdings = s.holdings :=
  holdings_foldl (fun t (e : Nat × Nat) => holdings_modCtx t e.1 c _) _ _

theorem holdings_settleSet (s : State) (c : Nat) : (s.settleSet c).holdings = s.holdings := by
  refine holdings_ite _ rfl ?_
  rw [holdings_divideHawk, holdings_foldl fun t a => holdings_addContext t a c, holdings_foldl fun t a => holdings_dropContext t a c]

theorem holdings_settleOne (s : State) (a c : Nat) : (s.settleOne a c).holdings = s.holdings :=
  holdings_ite _ (holdings_ite _ (holdings_tuneLoft ..) (holdings_tuneLoft s a c)) rfl

theorem holdings_tuneHolder (s : State) (c : Nat) : (s.tuneHolder c).holdings = s.holdings := by
  unfold State.tuneHolder
  dsimp only
  split
  · exact holdings_ite _ rfl rfl
  · rfl

theorem holdings_settleCore (s : State) (c : Nat) : (s.settleCore c).holdings = s.holdings :=
  holdings_ite _ rfl ((holdings_tuneHolder ..).trans ((holdings_foldl (fun t a => holdings_settleOne t a c) _ _).trans
    (holdings_settleSet s c)))

/-- A queue pair that fails keeps them too (spec/17 R498). -/
theorem holdings_failQp (s : State) (qp : Nat) : (s.failQp qp).holdings = s.holdings := by
  unfold State.failQp
  split
  · rfl
  · exact holdings_foldl (fun t n => (flushCompletions_frame ..).holdings) _ _

end Sys2Proof.Machine
end

section
/-! Resets of allotments: the entries of the Larder that a reset withdraws, and the pages of HBM and the jobs that it takes (spec/10 R317,
spec/11 R335). -/

namespace Sys2Proof.Machine

/-! ### Tables -/

theorem Tbl.mem_of_find {α : Type} {t : Tbl α} {k : Nat} {v : α} (h : t.find k = some v) : (k, v) ∈ t := by
  induction t with
  | nil => cases h
  | cons e t ih =>
    obtain ⟨k', w⟩ := e
    rw [Tbl.find] at h
    split at h
    · next hk =>
      cases h
      exact hk ▸ List.mem_cons_self
    · exact List.mem_cons_of_mem _ (ih h)

theorem Tbl.mem_set {α : Type} {t : Tbl α} {k : Nat} {v : α} {e : Nat × α} (h : e ∈ t.set k v) : e = (k, v) ∨ e ∈ t := by
  induction t with
  | nil => exact .inl (List.mem_singleton.mp h)
  | cons f t ih =>
    obtain ⟨k', w⟩ := f
    rw [Tbl.set] at h
    split at h
    · exact List.mem_cons.mp h
    · split at h
      · exact (List.mem_cons.mp h).imp_right (List.mem_cons_of_mem _)
      · rcases List.mem_cons.mp h with rfl | h
        · exact .inr List.mem_cons_self
        · exact (ih h).imp_right (List.mem_cons_of_mem _)

/-! ### Withdrawal of Larder entries (spec/11 R335) -/

/-- Every entry of the Larder in t stands in s, under the same owner, and is withdrawn in t if it is in s. -/
structure LarderFades (s t : State) : Prop where
  entry : ∀ h e', t.larder.find h = some e' → ∃ e, s.larder.find h = some e ∧ e'.owner = e.owner ∧ (e.state = 5 → e'.state = 5)

theorem LarderFades.of_eq {s t : State} (h : t.larder = s.larder) : LarderFades s t :=
  ⟨fun _ e he => ⟨e, h ▸ he, rfl, id⟩⟩

theorem LarderFades.trans {s t u : State} (hst : LarderFades s t) (htu : LarderFades t u) : LarderFades s u := by
  refine ⟨fun h e'' he'' => ?_⟩
  obtain ⟨e', he', howner', hstate'⟩ := htu.entry h e'' he''
  obtain ⟨e, he, howner, hstate⟩ := hst.entry h e' he'
  exact ⟨e, he, howner'.trans howner, hstate' ∘ hstate⟩

theorem LarderFades.ite {s t u : State} (c : Prop) [Decidable c] (ht : LarderFades s t) (hu : LarderFades s u) :
    LarderFades s (if c then t else u) := by
  split
  · exact ht
  · exact hu

theorem LarderFades.of_erase {s t : State} {h : Nat} (hlarder : t.larder = s.larder.erase h) : LarderFades s t := by
  refine ⟨fun k e he => ?_⟩
  rw [hlarder] at he
  by_cases hk : k = h
  · rw [hk, Tbl.find_erase_self] at he
    cases he
  · rw [Tbl.find_erase_ne _ hk] at he
    exact ⟨e, he, rfl, id⟩

theorem larder_modEntry {s : State} {h : Nat} {e : LEntry} (he : s.larder.find h = some e) (f : LEntry → LEntry) :
    (s.modEntry h f).larder = s.larder.set h (f e) := by
  rw [State.modEntry, he]

theorem modEntry_fades (s : State) (h : Nat) {f : LEntry → LEntry} (howner : ∀ e, (f e).owner = e.owner)
    (hstate : ∀ e, e.state = 5 → (f e).state = 5) : LarderFades s (s.modEntry h f) := by
  cases he : s.larder.find h with
  | none => exact .of_eq (by rw [State.modEntry, he])
  | some e =>
    refine ⟨fun k e' hk => ?_⟩
    rw [larder_modEntry he, Tbl.find_set] at hk
    split at hk
    · next heq =>
      cases hk
      exact ⟨e, heq ▸ he, howner e, hstate e⟩
    · exact ⟨e', hk, rfl, id⟩

theorem larder_foldl {β : Type} {f : State → β → State} (h : ∀ s b, (f s b).larder = s.larder) (l : List β) (s : State) :
    (l.foldl f s).larder = s.larder := by
  induction l generalizing s with
  | nil => rfl
  | cons b l ih => exact (ih _).trans (h s b)

theorem larder_actionDone (s : State) (sess idx sub : Nat) (st : Status) : (s.actionDone sess idx sub st).larder = s.larder := by
  unfold State.actionDone
  split
  · rfl
  · split <;> rfl

theorem larder_reportLarder (s : State) (sess owner adapt : Nat) (st : Status) :
    (s.reportLarder sess owner adapt st).larder = s.larder := by
  unfold State.reportLarder State.modSession
  dsimp only
  split <;> rfl

theorem larder_wakeActions (s : State) (owner adapt : Nat) (sess : List Nat) (st : Status) :
    (s.wakeActions owner adapt sess st).larder = s.larder :=
  larder_foldl (fun t n => (larder_actionDone ..).trans (larder_reportLarder t n owner adapt st)) sess s

theorem larder_faultAll (s : State) (a va len : Nat) (cs : List Nat) :
    (cs.foldl (fun u c => u.faultRange a c va len) s).larder = s.larder :=
  larder_foldl (fun u c => larder_of_holdings (holdings_faultRange u a c va len)) cs s

theorem larder_freeEntry {s : State} {h : Nat} {e : LEntry} (he : s.larder.find h = some e) :
    (s.freeEntry h).larder = s.larder.erase h := by
  unfold State.freeEntry
  split
  · next hnone => cases hnone.symm.trans he
  · next x hx =>
    obtain rfl := Option.some.inj (hx.symm.trans he)
    extract_lets fault s1 s2 s3
    have h1 : s1.larder = s.larder := by
      unfold s1
      split
      · exact larder_faultAll ..
      · rfl
    have h2 : s2.larder = s1.larder := by
      unfold s2
      split
      · exact larder_faultAll ..
      · rfl
    have h3 : s3.larder = s2.larder := larder_foldl (fun t _ => larder_of_holdings (holdings_zeroRange t _ _)) x.frames s2
    exact congrArg (Tbl.erase · h) (h3.trans (h2.trans h1))

theorem freeEntry_fades (s : State) (h : Nat) : LarderFades s (s.freeEntry h) := by
  cases he : s.larder.find h with
  | none => exact .of_eq (by rw [State.freeEntry, he])
  | some e => exact .of_erase (larder_freeEntry he)

theorem dropEntry_fades (s : State) (h : Nat) (e : LEntry) : LarderFades s (s.dropEntry h e) := by
  have hdraw : LarderFades s s.drawStatus.2 := .of_eq rfl
  exact .ite _ (freeEntry_fades s h) ((hdraw.trans (freeEntry_fades ..)).trans (.of_eq (larder_wakeActions ..)))

theorem tryFree_fades (s : State) (h : Nat) : LarderFades s (s.tryFree h) := by
  unfold State.tryFree
  split
  · exact .of_eq rfl
  · exact .ite _ (dropEntry_fades ..) (.of_eq rfl)

theorem failWaiting_fades (s : State) (h : Nat) (e : LEntry) (st : Status) (naming : Bool) :
    LarderFades s (s.failWaiting h e st naming) := by
  unfold State.failWaiting
  extract_lets held hit more
  have hstreams (f : Allot → Allot) : LarderFades s (s.modAllot e.owner f) := .of_eq rfl
  refine (hstreams _).trans (modEntry_fades _ h ?_ ?_)
  · exact fun _ => rfl
  · exact fun _ => id

theorem clearOwnerMapped_fades (s : State) (h : Nat) : LarderFades s (s.modEntry h (fun x => { x with ownerMapped := false })) :=
  modEntry_fades s h (fun _ => rfl) fun _ => id

/-- An entry as a withdrawal leaves it at first. -/
def LEntry.withdrawn (now : Nat) (x : LEntry) : LEntry :=
  { x with state := 5, tenantPin := false, filling := none, ended := none, waiters := [], accepters := [], withdrawnAt := some now }

theorem markWithdrawn_fades (s : State) (h : Nat) : LarderFades s (s.modEntry h (LEntry.withdrawn s.timer)) :=
  modEntry_fades s h (fun _ => rfl) fun _ _ => rfl

/-- What a withdrawal does once its entry is marked: it may free the entry, and changes no other but for its mapping and its pins. -/
theorem withdraw_of_find {s : State} {h : Nat} {e : LEntry} (he : s.larder.find h = some e) (hstate : e.state ≠ 5) :
    LarderFades (s.modEntry h (LEntry.withdrawn s.timer)) (s.withdraw h) := by
  unfold State.withdraw
  split
  · next hnone => cases hnone.symm.trans he
  · next x hx =>
    obtain rfl := Option.some.inj (hx.symm.trans he)
    rw [if_neg hstate]
    extract_lets s1 slots s2 s3 s4
    have hdrop (t : State) : LarderFades t (t.dropWork h fun _ => true) := .of_eq rfl
    have hcount (t : State) : LarderFades t (t.countEntries x.owner) := .of_eq rfl
    have h1 : LarderFades (s.modEntry h (LEntry.withdrawn s.timer)) s1 := (hdrop _).trans (failWaiting_fades ..)
    have h2 : LarderFades s1 s2 :=
      .of_eq (larder_foldl (fun t (g : Nat × GreenSlot) => larder_of_holdings (holdings_writeVa ..)) slots s1)
    have h3 : LarderFades s2 s3 := .of_eq (larder_wakeActions ..)
    have h4 : LarderFades s3 s4 := .ite _ (.of_eq rfl) (.ite _ (clearOwnerMapped_fades ..) (.of_eq rfl))
    exact (((h1.trans h2).trans h3).trans h4).trans ((hcount s4).trans (tryFree_fades ..))

theorem withdraw_fades (s : State) (h : Nat) : LarderFades s (s.withdraw h) := by
  cases he : s.larder.find h with
  | none => exact .of_eq (by rw [State.withdraw, he])
  | some e =>
    by_cases hstate : e.state = 5
    · exact .of_eq (by rw [State.withdraw, he]; exact congrArg State.larder (if_pos hstate))
    · exact (markWithdrawn_fades s h).trans (withdraw_of_find he hstate)

/-- An entry that is withdrawn and stands still has state 5. -/
theorem state_of_find_withdraw {s : State} {h : Nat} {e' : LEntry} (he' : (s.withdraw h).larder.find h = some e') : e'.state = 5 := by
  obtain ⟨e, he, -, hkeep⟩ := (withdraw_fades s h).entry h e' he'
  by_cases hstate : e.state = 5
  · exact hkeep hstate
  · obtain ⟨x, hx, -, hx5⟩ := (withdraw_of_find he hstate).entry h e' he'
    rw [larder_modEntry he, Tbl.find_set_self] at hx
    exact hx5 (Option.some.inj hx ▸ rfl)

/-! ### The Larder of an allotment that is reset (spec/10 R317) -/

/-- One entry withdrawn, unmapped for its owner, and freed where nothing holds it. -/
def State.wipeEntry (s : State) (h : Nat) : State :=
  ((s.withdraw h).modEntry h (fun x => { x with ownerMapped := false })).tryFree h

theorem wipeEntry_fades (s : State) (h : Nat) : LarderFades (s.withdraw h) (s.wipeEntry h) :=
  (clearOwnerMapped_fades ..).trans (tryFree_fades ..)

theorem state_of_find_wipeEntry {s : State} {h : Nat} {e' : LEntry} (he' : (s.wipeEntry h).larder.find h = some e') : e'.state = 5 := by
  obtain ⟨e, he, -, hkeep⟩ := (wipeEntry_fades s h).entry h e' he'
  exact hkeep (state_of_find_withdraw he)

/-- Once the entries of a list are wiped one after another, each of them that stands still has state 5. -/
theorem foldl_wipeEntry (l : List (Nat × LEntry)) (s : State) :
    LarderFades s (l.foldl (fun t e => t.wipeEntry e.1) s) ∧
      ∀ x ∈ l, ∀ e', (l.foldl (fun t e => t.wipeEntry e.1) s).larder.find x.1 = some e' → e'.state = 5 := by
  induction l generalizing s with
  | nil => exact ⟨.of_eq rfl, fun x hx => by cases hx⟩
  | cons y l ih =>
    obtain ⟨hfades, hlater⟩ := ih (s.wipeEntry y.1)
    refine ⟨((withdraw_fades s y.1).trans (wipeEntry_fades s y.1)).trans hfades, List.forall_mem_cons.mpr ⟨fun e' he' => ?_, hlater⟩⟩
    obtain ⟨e, he, -, hkeep⟩ := hfades.entry y.1 e' he'
    exact hkeep (state_of_find_wipeEntry he)

/-- No entry of an allotment is other than withdrawn. -/
def LarderGone (s : State) (n : Nat) : Prop := ∀ h e, s.larder.find h = some e → e.owner = n → e.state = 5

theorem LarderGone.of_eq {s t : State} {n : Nat} (hgone : LarderGone s n) (h : t.larder = s.larder) : LarderGone t n := by
  rwa [LarderGone, h]

theorem wipeLarder_gone (s : State) (n : Nat) : LarderGone (s.wipeLarder n) n := by
  intro h e' he' howner'
  have hlarder : (s.wipeLarder n).larder = ((s.entriesOf n).foldl (fun t e => t.wipeEntry e.1) s).larder :=
    larder_foldl (fun (t : State) (q : FillReq) => larder_actionDone t.drawStatus.2 q.sess 0x3301 0x05 t.drawStatus.1) _ _
  rw [hlarder] at he'
  obtain ⟨hfades, hwiped⟩ := foldl_wipeEntry (s.entriesOf n) s
  obtain ⟨e, he, howner, -⟩ := hfades.entry h e' he'
  exact hwiped (h, e) (List.mem_filter.mpr ⟨Tbl.mem_of_find he, by simp [← howner, howner']⟩) e' he'

/-! ### The Carters' jobs of an allotment that is reset -/

/-- No job of the Carters is an allotment's. -/
def NoJobs (s : State) (n : Nat) : Prop := ∀ e ∈ s.jobs, e.2.allot ≠ n

theorem startRecheck_noJobs {s : State} {n : Nat} (hlarder : LarderGone s n) (hjobs : NoJobs s n) : NoJobs s.startRecheck n := by
  unfold State.startRecheck
  split
  · exact hjobs
  · split
    · exact hjobs
    · split
      · exact hjobs
      · next h _ _ e he =>
        split
        · next hstate =>
          intro j hj
          rcases Tbl.mem_set hj with rfl | hj
          · intro howner
            have hgone := hlarder h e he howner
            omega
          · exact hjobs j hj
        · exact hjobs

theorem nextJob_mem {s : State} {p : Nat} {e : Nat × Job} (h : s.nextJob p = some e) : e ∈ s.jobs := by
  unfold State.nextJob at h
  extract_lets js at h
  have hsub {x : Nat × Job} (hx : x ∈ js) : x ∈ s.jobs := (List.mem_filter.mp hx).1
  split at h
  · next hfind =>
    cases h
    exact hsub (List.mem_of_find?_eq_some hfind)
  · exact hsub (List.mem_of_mem_head? h)

theorem fillCarter_spec (p fuel : Nat) {s : State} {n : Nat} (hjobs : NoJobs s n) :
    NoJobs (s.fillCarter p fuel) n ∧ (s.fillCarter p fuel).hbmPages = s.hbmPages := by
  induction fuel generalizing s with
  | zero => exact ⟨hjobs, rfl⟩
  | succ fuel ih =>
    unfold State.fillCarter
    split
    · exact ⟨hjobs, rfl⟩
    · split
      · exact ⟨hjobs, rfl⟩
      · next e hnext =>
        refine ih fun j hj => ?_
        rcases Tbl.mem_set hj with rfl | hj
        · exact hjobs e (nextJob_mem hnext)
        · exact hjobs j hj

theorem hbmPages_startRecheck (s : State) : s.startRecheck.hbmPages = s.hbmPages := by
  unfold State.startRecheck
  split
  · rfl
  · split
    · rfl
    · split
      · rfl
      · split <;> rfl

theorem divideCache_spec (s : State) (p : Nat) : (s.divideCache p).jobs = s.jobs ∧ (s.divideCache p).hbmPages = s.hbmPages := by
  unfold State.divideCache
  dsimp only
  split <;> exact ⟨rfl, rfl⟩

theorem fillCarters_spec {s : State} {n : Nat} (hlarder : LarderGone s n) (hjobs : NoJobs s n) :
    NoJobs s.fillCarters n ∧ s.fillCarters.hbmPages = s.hbmPages := by
  have hports (l : List Nat) (t : State) (ht : NoJobs t n) :
      NoJobs (l.foldl (fun t p => (t.divideCache p).fillCarter p 4) t) n ∧
        (l.foldl (fun t p => (t.divideCache p).fillCarter p 4) t).hbmPages = t.hbmPages := by
    induction l generalizing t with
    | nil => exact ⟨ht, rfl⟩
    | cons p l ih =>
      obtain ⟨hdivJobs, hdivPages⟩ := divideCache_spec t p
      obtain ⟨hfillJobs, hfillPages⟩ := fillCarter_spec p 4 (s := t.divideCache p) (n := n) (by rwa [NoJobs, hdivJobs])
      obtain ⟨hrestJobs, hrestPages⟩ := ih _ hfillJobs
      exact ⟨hrestJobs, hrestPages.trans (hfillPages.trans hdivPages)⟩
  obtain ⟨hdone, hpages⟩ := hports (List.range 4) s.startRecheck (startRecheck_noJobs hlarder hjobs)
  exact ⟨hdone, hpages.trans (hbmPages_startRecheck s)⟩

/-! ### The reset of an allotment (spec/10 R317) -/

theorem wipeHbm_spec (s : State) (n : Nat) : (s.wipeHbm n).jobs = s.jobs ∧ (s.wipeHbm n).larder = s.larder ∧
    ∀ e ∈ (s.wipeHbm n).hbmPages, e.1 / 2 ^ 26 ≠ n := by
  unfold State.wipeHbm
  extract_lets mine s1 fs
  have hzero : s1.holdings = s.holdings := holdings_foldl (fun t (e : Nat × PageDesc) => holdings_zeroRange t _ _) mine s
  refine ⟨congrArg (fun x => x.2.1) hzero, congrArg (fun x => x.2.2) hzero, fun e he => ?_⟩
  simpa using (List.mem_filter.mp he).2

/-- With the jobs and the Larder of an allotment gone, what is left of its reset leaves it no page of HBM and no job. -/
theorem finishReset_holdings {s : State} {n : Nat} (hgone : LarderGone s n) (hjobs : NoJobs s n) (qps : Tbl Qp) (cores : List Nat) :
    let t := cores.foldl (fun t c => t.settleCore c) (qps.foldl (fun t e => t.failQp e.1) (s.wipeHbm n).fillCarters)
    (∀ e ∈ t.hbmPages, e.1 / 2 ^ 26 ≠ n) ∧ NoJobs t n := by
  intro t
  obtain ⟨hwipeJobs, hwipeLarder, hwipePages⟩ := wipeHbm_spec s n
  obtain ⟨hfillJobs, hfillPages⟩ := fillCarters_spec (hgone.of_eq hwipeLarder) (s := s.wipeHbm n) (by rwa [NoJobs, hwipeJobs])
  have hrest : t.holdings = (s.wipeHbm n).fillCarters.holdings :=
    (holdings_foldl holdings_settleCore cores _).trans (holdings_foldl (fun t e => holdings_failQp t e.1) qps _)
  obtain ⟨hpages, htail⟩ := Prod.mk.inj hrest
  obtain ⟨hjobsEq, -⟩ := Prod.mk.inj htail
  rw [hpages, hfillPages, NoJobs, hjobsEq]
  exact ⟨hwipePages, hfillJobs⟩

/-- A reset leaves the allotment no page of HBM and no job. -/
theorem resetAllot_holdings (s : State) (n : Nat) :
    (∀ e ∈ (s.resetAllot n).hbmPages, e.1 / 2 ^ 26 ≠ n) ∧ NoJobs (s.resetAllot n) n := by
  unfold State.resetAllot
  extract_lets green s1 s2 s3 s4 s5 s6 s7 s8
  have hlarder : s7.larder = (s5.wipeLarder n).larder := rfl
  have hjobs : NoJobs s7 n := fun e he => by simpa using (List.mem_filter.mp he).2
  exact finishReset_holdings ((wipeLarder_gone s5 n).of_eq hlarder) hjobs _ _

end Sys2Proof.Machine
end

section
/-! Definitions and resets of allotments, and definitions of Moot groups, as the commands of a session (spec/10 R284 to R286, R317,
spec/14 R409). -/

namespace Sys2Proof.Machine

/-! ### The commands of a session that may write their objects -/

section
variable {s : State} {sess n : Nat} (hup : s.answers = true) (hidle : s.sessionIdle sess = true)
include hup hidle

theorem execAllotmentApply_of_mayApply (hmay : s.mayApply sess (0x3100 + n) 0x1F = true) : exec (.allotmentApply sess n) s =
    .next ((s.applyAllotment sess n).1.emit (.wrote sess (0x3100 + n) 0x1F (s.applyAllotment sess n).2)) :=
  rowOf_of_mayApply hup hidle hmay _

theorem execMootGroupApply_of_mayApply (hmay : s.mayApply sess (0x4000 + n) 0x0E = true) : exec (.mootGroupApply sess n) s =
    .next ((s.applyGroup sess n).1.emit (.wrote sess (0x4000 + n) 0x0E (s.applyGroup sess n).2)) :=
  rowOf_of_mayApply hup hidle hmay _

theorem execAllotmentReset_of_mayApply (hmay : s.mayApply sess (0x3100 + n) 0x1E = true) : exec (.allotmentReset sess n) s =
    .next ((s.applyReset sess n).1.emit (.wrote sess (0x3100 + n) 0x1E (s.applyReset sess n).2)).settle :=
  rowOf_of_mayApply hup hidle hmay _

end

/-! ### Resets (spec/10 R317) -/

section
variable {s : State} {sess n : Nat} (hn : n < 256) (hmay : s.mayApply sess (0x3100 + n) 0x1E = true)
include hn hmay

theorem applyReset_of_defined (hdefined : s.reg (0x3100 + n) 1 = 1) : s.applyReset sess n = (s.resetAllot n, .ok) :=
  (if_neg (by simp [hmay, hn])).trans (if_neg (not_not.mpr hdefined))

theorem applyReset_of_undefined (hundefined : s.reg (0x3100 + n) 1 ≠ 1) :
    s.applyReset sess n = s.refuseApply sess (0x3100 + n) 0x1E .accessDenied :=
  (if_neg (by simp [hmay, hn])).trans (if_pos hundefined)

end

/-! ### The fields of a definition (spec/10 R285, R286) -/

theorem defSubs_lt {i : Nat} (hi : i ∈ defSubs) : 1 < i ∧ i < 256 := by
  revert i
  decide

/-- The subindices of a definition are objects of their own. -/
theorem defFields_pairwise (idx : Nat) (v : Nat → Nat) :
    (defSubs.map fun i => (idx, i, v i)).Pairwise fun e f => objKey e.1 e.2.1 ≠ objKey f.1 f.2.1 := by
  have hsubs : defSubs.Pairwise (· ≠ ·) := by decide
  exact List.pairwise_map.mpr (hsubs.imp fun hne hkey => hne (Nat.add_left_cancel hkey))

theorem reg_takeDefinition {i : Nat} (hi : i ∈ defSubs) (s : State) (sess idx sub : Nat) (v : Nat → Nat) :
    (s.takeFields sess idx sub (defSubs.map fun i => (idx, i, v i))).reg idx i = v i := by
  rw [reg_takeFields]
  exact reg_putFields_of_mem (defFields_pairwise idx v) s (List.mem_map_of_mem hi)

/-- Whether an allotment is defined is no field of its definition. -/
theorem reg_takeDefinition_state (s : State) (sess idx sub : Nat) (v : Nat → Nat) :
    (s.takeFields sess idx sub (defSubs.map fun i => (idx, i, v i))).reg idx 1 = s.reg idx 1 := by
  rw [reg_takeFields]
  refine reg_putFields_of_ne (fun e he hkey => ?_) s
  obtain ⟨i, hi, rfl⟩ := List.mem_map.mp he
  obtain ⟨hone, hbyte⟩ := defSubs_lt hi
  exact absurd ((objKey_inj (by decide) hbyte).mp hkey).2 (by omega)

/-- A new allotment defined: its state is 1, and its generation the next. -/
def State.define (s : State) (n : Nat) : State := (s.setReg (0x3100 + n) 1 1).bumpReg 0x1120 n 1

theorem reg_define_ne (s : State) {n i : Nat} (hn : n < 256) (hi : 1 < i ∧ i < 256) :
    (s.define n).reg (0x3100 + n) i = s.reg (0x3100 + n) i := by
  have hgeneration : objKey (0x3100 + n) i ≠ objKey 0x1120 n := fun hkey => absurd ((objKey_inj hi.2 hn).mp hkey).1 (by omega)
  have hstate : objKey (0x3100 + n) i ≠ objKey (0x3100 + n) 1 := fun hkey => absurd ((objKey_inj hi.2 (by decide)).mp hkey).2 (by omega)
  rw [State.define, State.reg_bumpReg_ne _ _ hgeneration, State.reg_setReg_ne _ _ hstate]

theorem reg_define_state (s : State) {n : Nat} (hn : n < 256) : (s.define n).reg (0x3100 + n) 1 = 1 := by
  have hgeneration : objKey (0x3100 + n) 1 ≠ objKey 0x1120 n := fun hkey => absurd ((objKey_inj (by decide) hn).mp hkey).1 (by omega)
  rw [State.define, State.reg_bumpReg_ne _ _ hgeneration, State.reg_setReg_self]

/-- The state after a definition has been put in force, its fields taken in t, where s is the state that asked for it. -/
def State.enforce (s t : State) (sess n : Nat) (v : Nat → Nat) : State :=
  let idx := 0x3100 + n
  let s3 := t.takeFields sess idx 0x1F (defSubs.map fun i => (idx, i, v i))
  let s4 := if s.reg idx 1 = 0 then s3.define n else s3
  let s5 := ((s4.setReg 0x1121 n (s4.configDigest n)).tuneGrant n (b2n (s.reg idx 1 != 0 && s.wellGrant n))).tuneConfidential n (s.reg idx 0x0D)
  let cores := (List.range 128).filter (fun c => bitAt (s.reg idx 2) c || bitAt (v 2) c || (s5.ctx? n c).isSome)
  (cores.foldl (fun t c => t.settleCore c) s5).tuneWatchdog n

section
variable {s : State} {sess n : Nat} (hn : n < 256) (hmay : s.mayApply sess (0x3100 + n) 0x1F = true)
include hn hmay

theorem applyAllotment_of_refused :
    let raw := fun i => s.applying sess (0x3100 + n) i
    let shared := Nat.land (raw 3) (raw 2)
    let conf := if n == 0 || s.isGreen n then 0 else raw 0x0D
    let v := fun i => if i = 3 then shared else if i = 0x0D then conf else raw i
    (n ≠ 0 ∧ s.reg 0x1100 0x01 ≠ 2) ∨ s.defRefused n v = true ∨
      (conf ≠ 0 ∧ s.reg (0x3100 + n) 0x0D = 0 ∧ (s.allot n).macsec.keyed = false) →
    s.applyAllotment sess n = s.refuseApply sess (0x3100 + n) 0x1F .accessDenied := by
  intro raw shared conf v hrefused
  refine (if_neg (by simp [hmay, hn])).trans (if_pos ?_)
  rwa [Bool.not_eq_true']

/-- A definition that keeps what was asked for is enforced whole. -/
theorem applyAllotment_of_accepted :
    let raw := fun i => s.applying sess (0x3100 + n) i
    let shared := Nat.land (raw 3) (raw 2)
    let conf := if n == 0 || s.isGreen n then 0 else raw 0x0D
    let v := fun i => if i = 3 then shared else if i = 0x0D then conf else raw i
    ¬ ((n ≠ 0 ∧ s.reg 0x1100 0x01 ≠ 2) ∨ s.defRefused n v = true ∨
      (conf ≠ 0 ∧ s.reg (0x3100 + n) 0x0D = 0 ∧ (s.allot n).macsec.keyed = false)) →
    shared = raw 3 → conf = raw 0x0D → s.applyAllotment sess n = (s.enforce s sess n v, .ok) := by
  intro raw shared conf v haccepted hshared hconf
  refine (if_neg (by simp [hmay, hn])).trans ((if_neg ?_).trans ?_)
  · rwa [Bool.not_eq_true']
  · extract_lets r s1 s2 s3 s4 s5 cores
    have hs2 : s2 = s := (if_pos hconf).trans (if_pos hshared)
    refine Prod.ext ?_ (if_pos ⟨hshared, hconf⟩)
    change s.enforce s2 sess n v = s.enforce s sess n v
    rw [hs2]

end

/-! ### Resets that end (spec/10 R317, spec/15 R446, R451) -/

theorem execAllotmentResetDone_of_free {s : State} {n : Nat} (hzeroing : s.reg (0x3100 + n) 1 = 2) (hfree : s.activating = none) :
    let s2 := (s.allotCores n).foldl (fun t c => t.settleCore c) (s.setReg (0x3100 + n) 1 1)
    let s3 := if s2.wellGrant n then s2.logWell n 0x03 else s2
    exec (.allotmentResetDone n) s = .next (if s.isGreen n then s3.mapGreen else s3) :=
  if_pos ⟨hzeroing, by rw [hfree]; rfl⟩

theorem execAllotmentResetDone_of_activating {s : State} {n : Nat} (h : s.activating ≠ none) : exec (.allotmentResetDone n) s = .next s :=
  if_neg fun hfree => h (Option.isNone_iff_eq_none.mp hfree.2)

/-! ### Moot groups (spec/14 R409) -/

theorem groupFields_pairwise (s : State) (sess : Nat) {g : Nat} (hg : g < 12) :
    (s.groupFields sess g).Pairwise fun e f => objKey e.1 e.2.1 ≠ objKey f.1 f.2.1 := by
  have hranges (m : Nat) : (List.range m).Pairwise (· ≠ ·) := List.nodup_range
  refine List.pairwise_map.mpr (List.pairwise_append.mpr ⟨?_, ?_, ?_⟩)
  · exact List.pairwise_map.mpr ((hranges 9).imp fun hne => by simp only [objKey]; omega)
  · exact List.pairwise_map.mpr ((hranges 512).imp fun hne => by simp only [objKey]; omega)
  · intro e he f hf
    obtain ⟨i, hi, rfl⟩ := List.mem_map.mp he
    obtain ⟨r, hr, rfl⟩ := List.mem_map.mp hf
    rw [List.mem_range] at hi hr
    simp only [objKey]
    omega

theorem mem_groupFields_of_slot (s : State) (sess g : Nat) {i : Nat} (hone : 1 ≤ i) (hnine : i ≤ 9) :
    (0x4000 + g, i, s.applying sess (0x4000 + g) i) ∈ s.groupFields sess g := by
  refine List.mem_map.mpr ⟨(0x4000 + g, i), List.mem_append_left _ (List.mem_map.mpr ⟨i - 1, List.mem_range.mpr (by omega), ?_⟩), rfl⟩
  rw [Nat.sub_add_cancel hone]

theorem mem_groupFields_of_member (s : State) (sess g : Nat) {r : Nat} (hr : r < 512) :
    (0x4040 + 4 * g + r / 128, r % 128 + 1, s.applying sess (0x4040 + 4 * g + r / 128) (r % 128 + 1)) ∈ s.groupFields sess g :=
  List.mem_map.mpr ⟨_, List.mem_append_right _ (List.mem_map.mpr ⟨r, List.mem_range.mpr hr, rfl⟩), rfl⟩

/-- The state of a group is no field of its definition. -/
theorem groupFields_ne_state (s : State) (sess : Nat) {g : Nat} (hg : g < 12) {e : Nat × Nat × Nat} (he : e ∈ s.groupFields sess g) :
    objKey (0x4000 + g) 0x0A ≠ objKey e.1 e.2.1 := by
  obtain ⟨k, hk, rfl⟩ := List.mem_map.mp he
  rcases List.mem_append.mp hk with hk | hk
  · obtain ⟨i, hi, rfl⟩ := List.mem_map.mp hk
    rw [List.mem_range] at hi
    simp only [objKey]
    omega
  · obtain ⟨r, hr, rfl⟩ := List.mem_map.mp hk
    rw [List.mem_range] at hr
    simp only [objKey]
    omega

theorem reg_modGroup (s : State) (g : Nat) (f : MGroup → MGroup) (i j : Nat) : (s.modGroup g f).reg i j = s.reg i j := rfl

theorem reg_useFrames (s : State) (fs : List Nat) (i j : Nat) : (s.useFrames fs).reg i j = s.reg i j := rfl

theorem reg_dropFrames (s : State) (fs : List Nat) (i j : Nat) : (s.dropFrames fs).reg i j = s.reg i j := by
  have hzero (t : State) : (fs.foldl (fun t f => t.zeroRange (f * 0x200000) ((f + 1) * 0x200000)) t).regs = t.regs := by
    induction fs generalizing t with
    | nil => rfl
    | cons f fs ih => exact ih _
  exact congrArg (fun regs => Tbl.get (objDefault i j) regs (objKey i j)) (hzero s)

section
variable {s : State} {sess g : Nat} (hg : g < 12) (hmay : s.mayApply sess (0x4000 + g) 0x0E = true)
include hg hmay

theorem applyGroup_of_refused :
    let fs := s.groupFields sess g
    let w := fun i => s.applying sess (0x4000 + g) i
    let members := (List.range 512).map (fun r => s.applying sess (0x4040 + 4 * g + r / 128) (r % 128 + 1))
    let changed := fs.any (fun e => s.reg e.1 e.2.1 != e.2.2 && !(e.1 == 0x4000 + g && e.2.1 == 4))
    s.groupRefused g w members changed = true → s.applyGroup sess g = s.refuseApply sess (0x4000 + g) 0x0E .accessDenied := by
  intro fs w members changed hrefused
  exact (if_neg (by simp [hmay, hg])).trans (if_pos hrefused)

/-- An accepted definition of a group puts every one of its fields in force, and its state, unless the group is open. -/
theorem applyGroup_of_accepted :
    let fs := s.groupFields sess g
    let w := fun i => s.applying sess (0x4000 + g) i
    let members := (List.range 512).map (fun r => s.applying sess (0x4040 + 4 * g + r / 128) (r % 128 + 1))
    let changed := fs.any (fun e => s.reg e.1 e.2.1 != e.2.2 && !(e.1 == 0x4000 + g && e.2.1 == 4))
    s.groupRefused g w members changed = false → ∃ t, s.applyGroup sess g = (t, .ok) ∧
      (∀ e ∈ fs, t.reg e.1 e.2.1 = e.2.2) ∧ t.mState g = if s.mState g = 2 then 2 else if w 1 = 0 then 0 else 1 := by
  intro fs w members changed haccepted
  unfold State.applyGroup
  rw [if_neg (by simp [hmay, hg]), if_neg (Bool.eq_false_iff.mp haccepted)]
  extract_lets keep s1 s2 frames s3
  have hs1 (i j : Nat) : s1.reg i j = s.reg i j := by
    unfold s1
    split
    · rfl
    · exact reg_dropFrames ..
  have hs3 (i j : Nat) : s3.reg i j = (s1.putFields fs).reg i j := by
    refine Eq.trans ?_ (reg_takeFields s1 sess (0x4000 + g) 0x0E fs i j)
    unfold s3
    split
    · rfl
    · exact (reg_modGroup ..).trans (reg_useFrames ..)
  have hfields : ∀ e ∈ fs, s3.reg e.1 e.2.1 = e.2.2 := fun e he =>
    (hs3 ..).trans (reg_putFields_of_mem (groupFields_pairwise s sess hg) s1 he)
  have hstate : s3.mState g = s.mState g :=
    (hs3 ..).trans ((reg_putFields_of_ne (fun e he => groupFields_ne_state s sess hg he) s1).trans (hs1 ..))
  by_cases hopen : s.mState g = 2
  · rw [if_pos hopen]
    exact ⟨s3, rfl, hfields, by rw [hstate, if_pos hopen, hopen]⟩
  · rw [if_neg hopen]
    refine ⟨_, rfl, fun e he => ?_, by rw [if_neg hopen]; exact State.reg_setReg_self ..⟩
    exact (State.reg_setReg_ne _ _ (groupFields_ne_state s sess hg he).symm).trans (hfields e he)

end

/-- Settles O45: what a refused definition or reset leaves, the fields that an accepted definition of an allotment or of a group puts in
force, and what a reset takes from the allotment and gives back at its end. -/
theorem definitionsApply : Obligations.DefinitionsApply := by
  intro s sess n hup hidle hn idx raw shared conf v refused
  refine ⟨fun hmay hrefused => ?_, fun hmay haccepted hshared hconf => ?_, fun hmay hdefined => ⟨?_, resetAllot_holdings s n⟩,
    fun hmay hundefined => ?_, execAllotmentResetDone_of_free, execAllotmentResetDone_of_activating,
    fun g hg hmay => ?_⟩
  · rw [execAllotmentApply_of_mayApply hup hidle hmay, applyAllotment_of_refused hn hmay hrefused, State.refuseApply]
  · intro s3 s4 s5 cores
    have hraw {i : Nat} : v i = raw i := by
      unfold v
      split
      · next hi => rw [hi, hshared]
      · split
        · next hi => rw [hi, hconf]
        · rfl
    refine ⟨?_, fun i hi => ?_, ?_⟩
    · rw [execAllotmentApply_of_mayApply hup hidle hmay, applyAllotment_of_accepted hn hmay haccepted hshared hconf]
      rfl
    · have hs3 : s3.reg idx i = raw i := (reg_takeDefinition hi ..).trans hraw
      unfold s4
      split
      · exact (reg_define_ne s3 hn (defSubs_lt hi)).trans hs3
      · exact hs3
    · unfold s4
      split
      · exact reg_define_state s3 hn
      · exact reg_takeDefinition_state ..
  · rw [execAllotmentReset_of_mayApply hup hidle hmay, applyReset_of_defined hn hmay hdefined]
  · rw [execAllotmentReset_of_mayApply hup hidle hmay, applyReset_of_undefined hn hmay hundefined, State.refuseApply]
  · intro fs w members changed
    refine ⟨fun hrefused => ?_, fun haccepted => ?_⟩
    · rw [execMootGroupApply_of_mayApply hup hidle hmay, applyGroup_of_refused hg hmay hrefused, State.refuseApply]
    · obtain ⟨t, happly, hfields, hstate⟩ := applyGroup_of_accepted hg hmay haccepted
      refine ⟨t.emit (.wrote sess (0x4000 + g) 0x0E .ok), ?_, fun i hone hnine => ?_, fun r hr => ?_, hstate⟩
      · rw [execMootGroupApply_of_mayApply hup hidle hmay, happly]
      · have hslot := hfields _ (mem_groupFields_of_slot s sess g hone hnine)
        exact hslot
      · have hmember := hfields _ (mem_groupFields_of_member s sess g hr)
        have hlength : r < members.length := by rwa [List.length_map, List.length_range]
        rw [State.reg_emit, hmember, List.getD_eq_getElem _ _ hlength, List.getElem_map, List.getElem_range]

end Sys2Proof.Machine
end

section
/-! Memory: what each operation of the model leaves of it. -/

namespace Sys2Proof.Machine

@[simp] theorem mem_ite (c : Prop) [Decidable c] (t u : State) : (if c then t else u).mem = if c then t.mem else u.mem := apply_ite ..

theorem mem_foldl {β : Type} {f : State → β → State} (h : ∀ s b, (f s b).mem = s.mem) (l : List β) (s : State) :
    (l.foldl f s).mem = s.mem := by
  induction l generalizing s with
  | nil => rfl
  | cons b l ih => exact (ih _).trans (h s b)

@[simp] theorem mem_bumpReg (s : State) (idx sub n : Nat) : (s.bumpReg idx sub n).mem = s.mem := rfl

@[simp] theorem mem_perf (s : State) (a sub n : Nat) : (s.perf a sub n).mem = s.mem := by
  unfold State.perf
  simp

@[simp] theorem mem_countWaits (s : State) : (s.countWaits).mem = s.mem := by
  rw [(countWaits_waitsFrame s).1]

@[simp] theorem mem_drawBool (s : State) : (s.drawBool).2.mem = s.mem := rfl

@[simp] theorem mem_settleFlash (s : State) : (s.settleFlash).mem = s.mem := by
  refine mem_foldl (fun t e => ?_) s.flashWait _
  dsimp only
  repeat' split
  all_goals simp

@[simp] theorem mem_dropOperatorKeys (s : State) : (s.dropOperatorKeys).mem = s.mem := rfl

@[simp] theorem mem_endTransition (s : State) : (s.endTransition).mem = s.mem := by
  unfold State.endTransition
  simp

@[simp] theorem mem_showStaged (s : State) : (s.showStaged).mem = s.mem := rfl

@[simp] theorem mem_modAllot (s : State) (a : Nat) (f : Allot → Allot) : (s.modAllot a f).mem = s.mem := rfl

@[simp] theorem mem_petWatchdog (s : State) (a : Nat) : (s.petWatchdog a).mem = s.mem := rfl

@[simp] theorem mem_logEvent (s : State) (e : Event) : (s.logEvent e).mem = s.mem := rfl

@[simp] theorem mem_dropPort (s : State) (port reason a : Nat) : (s.dropPort port reason a).mem = s.mem := by
  unfold State.dropPort
  simp

@[simp] theorem mem_modStream (s : State) (a n : Nat) (f : Stream → Stream) : (s.modStream a n f).mem = s.mem := rfl

@[simp] theorem mem_sendQp (s : State) (qp : Nat) (o : Out) (bytes : Nat) : (s.sendQp qp o bytes).mem = s.mem := by
  unfold State.sendQp
  split <;> simp

@[simp] theorem mem_flushCompletions (s : State) (a n fuel : Nat) : (s.flushCompletions a n fuel).mem = s.mem := by
  rw [flushCompletions_frame]

@[simp] theorem mem_flush (s : State) (a n : Nat) : (s.flush a n).mem = s.mem := by
  unfold State.flush
  simp

@[simp] theorem mem_post (s : State) (a n : Nat) (c : Completion) : (s.post a n c).mem = s.mem := by
  unfold State.post
  simp

@[simp] theorem mem_cmdDone (s : State) (a id core : Nat) (st : Status) : (s.cmdDone a id core st).mem = s.mem := by
  unfold State.cmdDone
  split <;> simp

@[simp] theorem mem_endBlocks (s : State) (a c fuel : Nat) : (s.endBlocks a c fuel).mem = s.mem := by
  induction fuel generalizing s with
  | zero => rfl
  | succ fuel ih =>
    unfold State.endBlocks
    dsimp only
    repeat' split
    all_goals simp [ih]

@[simp] theorem mem_moveOn (s : State) (a c : Nat) (x : Ctx) (pc : Nat) : (s.moveOn a c x pc).mem = s.mem := by
  unfold State.moveOn
  simp

@[simp] theorem mem_gWrite (s : State) (a c : Nat) (x : Ctx) (rd : Reg) (v : W64) : (s.gWrite a c x rd v).mem = s.mem := by
  unfold State.gWrite
  simp

@[simp] theorem mem_modCore (s : State) (c : Nat) (f : Core → Core) : (s.modCore c f).mem = s.mem := rfl

@[simp] theorem mem_translate (s : State) (a c : Nat) (fp : Footprint) : (s.translate a c fp).mem = s.mem := rfl

@[simp] theorem mem_translateVa (s : State) (a c va len : Nat) : (s.translateVa a c va len).mem = s.mem := rfl

@[simp] theorem mem_modCtx (s : State) (a c : Nat) (f : Ctx → Ctx) : (s.modCtx a c f).mem = s.mem := rfl

@[simp] theorem mem_selfHalt (s : State) (a c : Nat) (st : Status) : (s.selfHalt a c st).mem = s.mem := rfl

@[simp] theorem mem_gDrop (s : State) (a c : Nat) (x : Ctx) (st : Status) : (s.gDrop a c x st).mem = s.mem := by
  unfold State.gDrop
  simp

@[simp] theorem mem_noteHazard (s : State) (a c : Nat) : (s.noteHazard a c).mem = s.mem := by
  unfold State.noteHazard
  simp

@[simp] theorem mem_selfHaltNoted (s : State) (a c : Nat) (st : Status) : (s.selfHaltNoted a c st).mem = s.mem := rfl

@[simp] theorem mem_hang (s : State) (a c : Nat) : (s.hang a c).mem = s.mem := rfl

@[simp] theorem mem_gBranch (s : State) (a c : Nat) (x : Ctx) (words : ℤ) : (s.gBranch a c x words).mem = s.mem := by
  unfold State.gBranch
  simp

@[simp] theorem mem_gTally (s : State) (a c : Nat) (x : Ctx) (bs : List Byte) : (s.gTally a c x bs).mem = s.mem := by
  unfold State.gTally
  simp

@[simp] theorem mem_gPush (s : State) (a c : Nat) (x : Ctx) (rb : Reg) (shift : Nat) (ids : List Nat) : (s.gPush a c x rb shift ids).mem = s.mem := by
  have hfold (l : List (Option (Option Nat))) : (l.foldl (fun (t : State) e => match e with
      | some (some va) => t.translateVa a c va 1
      | _ => t) s).mem = s.mem := mem_foldl (fun t e => by split <;> simp) l s
  unfold State.gPush
  dsimp only
  repeat' split
  · rfl
  · exact (mem_moveOn ..).trans (hfold _)
  · exact (mem_selfHalt ..).trans (hfold _)

@[simp] theorem mem_zeroHawk (s : State) (c lo hi : Nat) : (s.zeroHawk c lo hi).mem = s.mem := rfl

@[simp] theorem mem_haltCommands (s : State) (a c : Nat) (x : Ctx) (st : Status) : (s.haltCommands a c x st).mem = s.mem := by
  simp [State.haltCommands, mem_foldl]

@[simp] theorem mem_restartQueue (s : State) (a c : Nat) : (s.restartQueue a c).mem = s.mem := by
  unfold State.restartQueue
  dsimp only
  repeat' split
  all_goals simp

@[simp] theorem mem_engineDone (s : State) (a c : Nat) (e : Engine) (idx : Nat) (st : Status) (mark : Option Nat) : (s.engineDone a c e idx st mark).mem = s.mem := rfl

@[simp] theorem mem_drainSkims (s : State) (a c fuel : Nat) : (s.drainSkims a c fuel).mem = s.mem := by
  induction fuel generalizing s with
  | zero => rfl
  | succ fuel ih =>
    unfold State.drainSkims
    repeat' split
    all_goals simp [ih]

@[simp] theorem mem_drawNat (s : State) : (s.drawNat).2.mem = s.mem := rfl

@[simp] theorem mem_count (s : State) (a : Nat) (e : Ev) : (s.count a e).mem = s.mem := by
  unfold State.count
  simp

@[simp] theorem mem_trowelMarkUp (s : State) (a c : Nat) (q : QOp) : (s.trowelMarkUp a c q).mem = s.mem := by
  fun_cases State.trowelMarkUp <;> simp [*]

@[simp] theorem mem_trowelDone (s : State) (a c : Nat) (t : TrowelRun) (st : Status) (noted : Bool) : (s.trowelDone a c t st noted).mem = s.mem := by
  unfold State.trowelDone
  simp

@[simp] theorem mem_drainTrowels (s : State) (a c fuel : Nat) : (s.drainTrowels a c fuel).mem = s.mem := by
  induction fuel generalizing s with
  | zero => rfl
  | succ fuel ih =>
    unfold State.drainTrowels
    repeat' split
    all_goals simp [ih]

@[simp] theorem mem_drawBytes (s : State) (n : Nat) : (s.drawBytes n).2.mem = s.mem := rfl

@[simp] theorem mem_putHawk (s : State) (a c : Nat) (x : Ctx) (off : Nat) (bs : List PByte) (src : Nat → Nat → List (Nat × Nat)) (seen : Tbl UnitSrc) : (s.putHawk a c x off bs src seen).1.mem = s.mem := rfl

@[simp] theorem mem_addPoison (s : State) (ws : List Nat) : (s.addPoison ws).mem = s.mem := rfl

@[simp] theorem mem_carryPoison (s : State) (a va : Nat) (bs : List PByte) : (s.carryPoison a va bs).mem = s.mem := rfl

@[simp] theorem mem_setBucket (s : State) (g b : Nat) (k : Bucket) : (s.setBucket g b k).mem = s.mem := rfl

@[simp] theorem mem_tryClose (s : State) (g b : Nat) : (s.tryClose g b).mem = s.mem := by
  unfold State.tryClose
  dsimp only
  repeat' split
  all_goals rfl

@[simp] theorem mem_unland (s : State) (g bucket : Nat) : (s.unland g bucket).mem = s.mem := by
  unfold State.unland
  simp

@[simp] theorem mem_publishDone (s : State) (q : QOp) : (s.publishDone q).mem = s.mem := by
  unfold State.publishDone
  dsimp only
  split <;> simp

@[simp] theorem mem_drainMoots (s : State) (a c fuel : Nat) : (s.drainMoots a c fuel).mem = s.mem := by
  induction fuel generalizing s with
  | zero => rfl
  | succ fuel ih =>
    unfold State.drainMoots
    repeat' split
    all_goals simp [ih]

@[simp] theorem mem_settleMoots (s : State) (a c : Nat) : (s.settleMoots a c).mem = s.mem := by
  unfold State.settleMoots
  simp

@[simp] theorem mem_modGroup (s : State) (g : Nat) (f : MGroup → MGroup) : (s.modGroup g f).mem = s.mem := rfl

@[simp] theorem mem_mootTimers (s : State) (g : Nat) : (s.mootTimers g).mem = s.mem := by
  fun_cases State.mootTimers <;> simp

@[simp] theorem mem_wire (s : State) (l : Nat) (x : Sent) : (s.wire l x).mem = s.mem := rfl

@[simp] theorem mem_transmit (s : State) (l : Nat) (f : Flit) (mayUp : optParam Bool true) : (s.transmit l f mayUp).mem = s.mem := rfl

@[simp] theorem mem_returnCredits (s : State) (l fuel : Nat) : (s.returnCredits l fuel).mem = s.mem := by
  induction fuel generalizing s with
  | zero => rfl
  | succ fuel ih =>
    unfold State.returnCredits
    repeat' split
    all_goals simp [ih]

@[simp] theorem mem_returnAll (s : State) : (s.returnAll).mem = s.mem := mem_foldl (fun t e => by split <;> simp) s.links s

@[simp] theorem mem_modLink (s : State) (l : Nat) (f : Link → Link) : (s.modLink l f).mem = s.mem := rfl

@[simp] theorem mem_owe (s : State) (l vc : Nat) : (s.owe l vc).mem = s.mem := rfl

@[simp] theorem mem_leaveBy (s : State) (i l : Nat) (w : WaitFlit) : (s.leaveBy i l w).mem = s.mem := by
  unfold State.leaveBy
  dsimp only
  repeat' split
  all_goals simp

@[simp] theorem mem_giveSlots (s : State) (fuel : Nat) : (s.giveSlots fuel).mem = s.mem := by
  induction fuel generalizing s with
  | zero => rfl
  | succ fuel ih =>
    unfold State.giveSlots
    repeat' split
    all_goals simp [ih]

@[simp] theorem mem_drainFlits (s : State) : (s.drainFlits).mem = s.mem := by
  unfold State.drainFlits
  simp

@[simp] theorem mem_sendFlits (s : State) (fs : List Flit) : (s.sendFlits fs).mem = s.mem := by
  unfold State.sendFlits
  simp

@[simp] theorem mem_mootAdvance (s : State) (g b fuel : Nat) : (s.mootAdvance g b fuel).mem = s.mem := by
  induction fuel generalizing s with
  | zero => rfl
  | succ fuel ih =>
    unfold State.mootAdvance
    dsimp only
    repeat' split
    all_goals simp [ih]

@[simp] theorem mem_mootRun (s : State) (g b : Nat) : (s.mootRun g b).mem = s.mem := by
  unfold State.mootRun
  simp

@[simp] theorem mem_modBucket (s : State) (g b : Nat) (f : Bucket → Bucket) : (s.modBucket g b f).mem = s.mem := by
  unfold State.modBucket
  split <;> simp

@[simp] theorem mem_contribute (s : State) (g b : Nat) (p : MPart) : (s.contribute g b p).mem = s.mem := by
  unfold State.contribute
  simp

@[simp] theorem mem_setPhase (s : State) (a c i : Nat) (ph : MootPhase) : (s.setPhase a c i ph).mem = s.mem := rfl

@[simp] theorem mem_endMoot (s : State) (a c i : Nat) (r : MootRun) (st : Status) : (s.endMoot a c i r st).mem = s.mem := by
  unfold State.endMoot
  repeat' split
  all_goals simp

@[simp] theorem mem_drawStatus (s : State) : (s.drawStatus).2.mem = s.mem := rfl

@[simp] theorem mem_endOnCore (s : State) (a c : Nat) : (s.endOnCore a c).mem = s.mem := by
  refine mem_foldl (fun t e => ?_) (s.allot a).cmds s
  dsimp only
  split
  · split <;> simp
  · rfl

@[simp] theorem mem_addContext (s : State) (a c : Nat) : (s.addContext a c).mem = s.mem := rfl

@[simp] theorem mem_divideHawk (s : State) (c : Nat) : (s.divideHawk c).mem = s.mem := (mem_foldl (fun t e => mem_modCtx ..) _ _).trans (mem_modCore ..)

@[simp] theorem mem_tuneHolder (s : State) (c : Nat) : (s.tuneHolder c).mem = s.mem := by
  unfold State.tuneHolder
  dsimp only
  split <;> simp

@[simp] theorem mem_addLoft (s : State) (a c j fuel : Nat) : (s.addLoft a c j fuel).mem = s.mem := by
  induction fuel generalizing s j with
  | zero => rfl
  | succ fuel ih =>
    unfold State.addLoft
    dsimp only
    repeat' split
    all_goals simp [ih]

@[simp] theorem mem_askRemoval (s : State) (a va len : Nat) (kind : RemovalKind) : (s.askRemoval a va len kind).mem = s.mem := rfl

@[simp] theorem mem_issued (s : State) (a c : Nat) (x : Ctx) : (s.issued a c x).mem = s.mem := by
  unfold State.issued
  simp

@[simp] theorem mem_refuseLoad (s : State) (a c : Nat) (x : Ctx) (q : QOp) (st : Status) : (s.refuseLoad a c x q st).mem = s.mem := by
  unfold State.refuseLoad
  simp

@[simp] theorem mem_refuseOther (s : State) (a c : Nat) (x : Ctx) (q : QOp) (st : Status) : (s.refuseOther a c x q st).mem = s.mem := rfl

@[simp] theorem mem_startFabric (s : State) (a c : Nat) (x : Ctx) (q : QOp) (t0 : TrowelRun) : (s.startFabric a c x q t0).mem = s.mem := by
  unfold State.startFabric
  dsimp only
  repeat' split
  all_goals simp

@[simp] theorem mem_appendRing (s : State) (a c : Nat) (x : Ctx) (ring count : Nat) (bs : List PByte) (src : Nat → Nat → List (Nat × Nat)) (seen : Tbl UnitSrc) : (s.appendRing a c x ring count bs src seen).1.mem = s.mem := by
  unfold State.appendRing
  dsimp only
  repeat' split
  all_goals simp

@[simp] theorem mem_endTrowel (s : State) (a c : Nat) (t : TrowelRun) (rest : List TrowelRun) (st : Status) (noted : Bool) : (s.endTrowel a c t rest st noted).mem = s.mem := by
  unfold State.endTrowel
  simp

@[simp] theorem mem_releaseRing (s : State) (a c : Nat) (q : QOp) (n : Nat) : (s.releaseRing a c q n).mem = s.mem := rfl

@[simp] theorem mem_openBucket (s : State) (a c : Nat) (q : QOp) : (s.openBucket a c q).mem = s.mem := rfl

@[simp] theorem mem_forwardShard (s : State) (g bucket : Nat) (m : MStream) (good : Bool) : (s.forwardShard g bucket m good).mem = s.mem := by
  unfold State.forwardShard
  split <;> simp

@[simp] theorem mem_nodeExpire (s : State) (g b : Nat) : (s.nodeExpire g b).mem = s.mem := by
  unfold State.nodeExpire
  split <;> simp

@[simp] theorem mem_partialArrives (s : State) (g b : Nat) (k : Bucket) (level : Nat) (m : MStream) (good : Bool) : (s.partialArrives g b k level m good).mem = s.mem := by
  unfold State.partialArrives
  repeat' split
  all_goals simp

@[simp] theorem mem_fecCount (s : State) (l seq : Nat) : (s.fecCount l seq).mem = s.mem := rfl

@[simp] theorem mem_resend (s : State) (l : Nat) : (s.resend l).mem = s.mem := mem_foldl (fun t x => mem_wire ..) _ _

theorem mem_linkTake (s : State) (l : Nat) (h : FlitHdr) (kind : Nat) : ∀ t, s.linkTake l h kind = some t → t.mem = s.mem := by
  unfold State.linkTake
  split <;> simp

@[simp] theorem mem_linkStray (s : State) (l : Nat) (h : FlitHdr) (kind : Nat) : (s.linkStray l h kind).mem = s.mem := by
  unfold State.linkStray
  split <;> simp

@[simp] theorem mem_logDrop (s : State) (src a : Nat) : (s.logDrop src a).mem = s.mem := rfl

@[simp] theorem mem_noteRefusal (s : State) (idx sub : Nat) (st : Status) (r : optParam Role Role.f) : (s.noteRefusal idx sub st r).mem = s.mem := rfl

@[simp] theorem mem_refuseApply (s : State) (sess idx sub : Nat) (st : Status) : (s.refuseApply sess idx sub st).1.mem = s.mem := rfl

@[simp] theorem mem_modSession (s : State) (n : Nat) (f : Session → Session) : (s.modSession n f).mem = s.mem := by
  unfold State.modSession
  split <;> simp

@[simp] theorem mem_dropPend (s : State) (sess idx sub : Nat) : (s.dropPend sess idx sub).mem = s.mem := by
  unfold State.dropPend
  simp

@[simp] theorem mem_putReg (s : State) (idx sub v : Nat) : (s.putReg idx sub v).mem = s.mem := by
  unfold State.putReg
  split <;> simp

@[simp] theorem mem_putFields (s : State) (vals : List (Nat × Nat × Nat)) : (s.putFields vals).mem = s.mem := mem_foldl (fun t e => by split <;> simp) vals s

@[simp] theorem mem_takeFields (s : State) (sess idx sub : Nat) (vals : List (Nat × Nat × Nat)) : (s.takeFields sess idx sub vals).mem = s.mem := by
  unfold State.takeFields
  simp

@[simp] theorem mem_useFrames (s : State) (fs : List Nat) : (s.useFrames fs).mem = s.mem := rfl

@[simp] theorem mem_accept (s : State) (a stream id core : Nat) (k : Cmd) : (s.accept a stream id core k).mem = s.mem := by
  unfold State.accept
  dsimp only
  split <;> simp

@[simp] theorem mem_acceptDone (s : State) (a stream id core : Nat) (k : Cmd) (st : Status) : (s.acceptDone a stream id core k st).mem = s.mem := by
  fun_cases State.acceptDone <;> simp

@[simp] theorem mem_logProgram (s : State) (a : Nat) (x : List Byte) : (s.logProgram a x).mem = s.mem := rfl

@[simp] theorem mem_armWatchdog (s : State) (a : Nat) : (s.armWatchdog a).mem = s.mem := by
  unfold State.armWatchdog
  simp

@[simp] theorem mem_sendAnswer (s : State) (sess txid : Nat) (bytes : List Byte) : (s.sendAnswer sess txid bytes).mem = s.mem := by
  fun_cases State.sendAnswer <;> simp [*]

@[simp] theorem mem_takeMgmt (s : State) (sess : Nat) : (s.takeMgmt sess).mem = s.mem := by
  unfold State.takeMgmt
  split <;> simp

@[simp] theorem mem_endSession (s : State) (n : Nat) : (s.endSession n).mem = s.mem := by
  unfold State.endSession
  split <;> simp

@[simp] theorem mem_endSessions (s : State) (p : Session → Bool) : (s.endSessions p).mem = s.mem := by
  simp [State.endSessions, mem_foldl]

@[simp] theorem mem_modEntry (s : State) (h : Nat) (f : LEntry → LEntry) : (s.modEntry h f).mem = s.mem := by
  unfold State.modEntry
  split <;> simp

@[simp] theorem mem_actionDone (s : State) (sess idx sub : Nat) (st : Status) : (s.actionDone sess idx sub st).mem = s.mem := by
  unfold State.actionDone
  split <;> simp

@[simp] theorem mem_reportLarder (s : State) (sess owner adapt : Nat) (st : Status) : (s.reportLarder sess owner adapt st).mem = s.mem := by
  fun_cases State.reportLarder <;> simp [*]

@[simp] theorem mem_joinFill (s : State) (q : FillReq) (h : Nat) (e : LEntry) : (s.joinFill q h e).mem = s.mem := by
  unfold State.joinFill
  dsimp only
  repeat' split
  all_goals simp

@[simp] theorem mem_countEntries (s : State) (owner : Nat) : (s.countEntries owner).mem = s.mem := rfl

@[simp] theorem mem_dropWork (s : State) (h : Nat) (p : LarderWork → Bool) : (s.dropWork h p).mem = s.mem := rfl

@[simp] theorem mem_fitQuota (s : State) (n : Nat) : (s.fitQuota n).mem = s.mem := rfl

@[simp] theorem mem_wakeActions (s : State) (owner adapt : Nat) (sess : List Nat) (st : Status) : (s.wakeActions owner adapt sess st).mem = s.mem := by
  simp [State.wakeActions, mem_foldl]

@[simp] theorem mem_addJob (s : State) (j : Job) : (s.addJob j).mem = s.mem := rfl

@[simp] theorem mem_workEnds (s : State) (n h : Nat) (st : Status) : (s.workEnds n h st).mem = s.mem := mem_modEntry ..

@[simp] theorem mem_countBound (s : State) : (s.countBound).mem = s.mem := rfl

@[simp] theorem mem_stripHawk (s : State) (g c n : Nat) : (s.stripHawk g c n).mem = s.mem := rfl

@[simp] theorem mem_zeroHawkPart (s : State) (c : Nat) (x : Ctx) : (s.zeroHawkPart c x).mem = s.mem := rfl

@[simp] theorem mem_failWaiting (s : State) (h : Nat) (e : LEntry) (st : Status) (naming : Bool) : (s.failWaiting h e st naming).mem = s.mem := by
  unfold State.failWaiting
  split <;> simp

@[simp] theorem mem_countQps (s : State) (a : Nat) : (s.countQps a).mem = s.mem := rfl

@[simp] theorem mem_failQp (s : State) (qp : Nat) : (s.failQp qp).mem = s.mem := by
  unfold State.failQp
  split
  · rfl
  · simp [mem_foldl]

@[simp] theorem mem_fillCarter (s : State) (p fuel : Nat) : (s.fillCarter p fuel).mem = s.mem := by
  induction fuel generalizing s with
  | zero => rfl
  | succ fuel ih =>
    unfold State.fillCarter
    repeat' split
    all_goals simp [ih]

@[simp] theorem mem_divideCache (s : State) (p : Nat) : (s.divideCache p).mem = s.mem := by
  unfold State.divideCache
  dsimp only
  split <;> simp

@[simp] theorem mem_startRecheck (s : State) : (s.startRecheck).mem = s.mem := by
  unfold State.startRecheck
  dsimp only
  repeat' split
  all_goals simp

@[simp] theorem mem_fillCarters (s : State) : (s.fillCarters).mem = s.mem := by
  simp [State.fillCarters, mem_foldl]

@[simp] theorem mem_logClamp (s : State) (idx sub old new role fuel : Nat) : (s.logClamp idx sub old new role fuel).mem = s.mem := by
  induction fuel with
  | zero => rfl
  | succ fuel ih =>
    unfold State.logClamp
    dsimp only
    split <;> simp [ih]

@[simp] theorem mem_noteClamp (s : State) (idx sub old new : Nat) (r : Role) : (s.noteClamp idx sub old new r).mem = s.mem := by
  unfold State.noteClamp
  simp

@[simp] theorem mem_zeroTrace (s : State) : (s.zeroTrace).mem = s.mem := rfl

@[simp] theorem mem_stopTrace (s : State) (p : Nat → Bool) : (s.stopTrace p).mem = s.mem := rfl

@[simp] theorem mem_tuneConfidential (s : State) (n old : Nat) : (s.tuneConfidential n old).mem = s.mem := by
  unfold State.tuneConfidential
  split
  · simp [mem_foldl]
  · rfl

@[simp] theorem mem_dropCached (s : State) (a va len : Nat) : (s.dropCached a va len).mem = s.mem := rfl

@[simp] theorem mem_modWell (s : State) (slot : Nat) (f : WellSlot → WellSlot) : (s.modWell slot f).mem = s.mem := rfl

@[simp] theorem mem_logWeight (s : State) (a : Nat) (x : List Byte) : (s.logWeight a x).mem = s.mem := rfl

@[simp] theorem mem_logWell (s : State) (a kind : Nat) : (s.logWell a kind).mem = s.mem := by
  unfold State.logWell
  split <;> simp

@[simp] theorem mem_snapshot (s : State) (sess n : Nat) : (s.snapshot sess n).1.mem = s.mem := by
  unfold State.snapshot
  dsimp only
  repeat' split
  all_goals simp

@[simp] theorem mem_numberSelf (s : State) : (s.numberSelf).mem = s.mem := by
  unfold State.numberSelf
  repeat' split
  all_goals simp

@[simp] theorem mem_pruneTopo (s : State) : (s.pruneTopo).mem = s.mem := rfl

@[simp] theorem mem_linkTo (s : State) (l st : Nat) : (s.linkTo l st).mem = s.mem := rfl

@[simp] theorem mem_judgeLink (s : State) (l : Nat) : (s.judgeLink l).mem = s.mem := by
  unfold State.judgeLink
  dsimp only
  split <;> simp

@[simp] theorem mem_markClash (s : State) (l : Nat) : (s.markClash l).mem = s.mem := by
  unfold State.markClash
  dsimp only
  split <;> simp

@[simp] theorem mem_settleLinks (s : State) : (s.settleLinks).mem = s.mem := by
  simp [State.settleLinks, mem_foldl]

@[simp] theorem mem_sendOn (s : State) (l : Nat) (f : Flit) : (s.sendOn l f).mem = s.mem := by
  unfold State.sendOn
  simp

@[simp] theorem mem_flood (s : State) (e : TopoEntry) (ls : List Nat) : (s.flood e ls).mem = s.mem := by
  simp [State.flood, mem_foldl]

@[simp] theorem mem_announce (s : State) : (s.announce).mem = s.mem := by
  unfold State.announce
  dsimp only
  simp

@[simp] theorem mem_endXfer (s : State) (tag : Nat) (x : Xfer) (st : Status) : (s.endXfer tag x st).mem = s.mem := by
  unfold State.endXfer
  dsimp only
  split <;> simp

@[simp] theorem mem_dropDeparted (s : State) : (s.dropDeparted).mem = s.mem := by
  refine (mem_foldl (fun t w => ?_) _ _).trans (mem_foldl (fun t e => by split <;> simp) s.xfers s)
  cases w.held <;> simp

@[simp] theorem mem_publishRoutes (s : State) : (s.publishRoutes).mem = s.mem := mem_foldl (fun t h => by dsimp only; split <;> simp) (List.range 512) s

@[simp] theorem mem_postJob (s : State) (a stream : Nat) (r : JobRec) (blocks : Nat) (st : Status) : (s.postJob a stream r blocks st).mem = s.mem := by
  unfold State.postJob
  simp

@[simp] theorem mem_endJob (s : State) (n : Nat) (j : Job) (blocks : Nat) (st : Status) : (s.endJob n j blocks st).mem = s.mem := by
  fun_cases State.endJob <;> simp

@[simp] theorem mem_loseJobs (s : State) (on : Nat → Bool) : (s.loseJobs on).mem = s.mem := (mem_fillCarters _).trans (mem_foldl (fun t e => by split <;> simp) _ s)

@[simp] theorem mem_darkPort (s : State) (p : Nat) : (s.darkPort p).mem = s.mem := by
  simp [State.darkPort, mem_foldl]

@[simp] theorem mem_applyPort (s : State) (sess p : Nat) : (s.applyPort sess p).1.mem = s.mem := by
  unfold State.applyPort
  dsimp only
  repeat' split
  all_goals simp

@[simp] theorem mem_applyPlain (s : State) (sess idx sub : Nat) (fields : List Nat) : (s.applyPlain sess idx sub fields).1.mem = s.mem := by
  unfold State.applyPlain
  repeat' split
  all_goals simp

@[simp] theorem mem_setSupply (s : State) (w mv : Nat) : (s.setSupply w mv).mem = s.mem := rfl

@[simp] theorem mem_applySetpoint (s : State) (sess ward : Nat) : (s.applySetpoint sess ward).1.mem = s.mem := by
  unfold State.applySetpoint
  dsimp only
  repeat' split
  all_goals simp [*]

@[simp] theorem mem_stripArm (s : State) (sess : Nat) : (s.stripArm sess).1.mem = s.mem := by
  unfold State.stripArm
  dsimp only
  repeat' split
  all_goals simp

@[simp] theorem mem_applyPower (s : State) (sess : Nat) : (s.applyPower sess).1.mem = s.mem := by
  unfold State.applyPower
  simp

@[simp] theorem mem_applyThermal (s : State) (sess : Nat) : (s.applyThermal sess).1.mem = s.mem := by
  unfold State.applyThermal
  dsimp only
  split <;> simp

@[simp] theorem mem_askReset (s : State) (sess : Nat) : (s.askReset sess).1.mem = s.mem := by
  fun_cases State.askReset <;> simp

@[simp] theorem mem_deferMgmt (s : State) (sess : Nat) : (s.deferMgmt sess).1.mem = s.mem := by
  unfold State.deferMgmt
  dsimp only
  split <;> simp

@[simp] theorem mem_applyRoutes (s : State) (sess : Nat) : (s.applyRoutes sess).1.mem = s.mem := by
  unfold State.applyRoutes
  split
  · rfl
  · simp [mem_foldl]

@[simp] theorem mem_setWellReg (s : State) (slot sub v : Nat) : (s.setWellReg slot sub v).mem = s.mem := rfl

@[simp] theorem mem_makeReady (s : State) (h kind : Nat) : (s.makeReady h kind).mem = s.mem := by
  unfold State.makeReady
  dsimp only
  split <;> simp

theorem mem_fwStage (s : State) (comp len : Nat) : ∀ t, s.fwStage comp len = some t → t.mem = s.mem := by
  unfold State.fwStage
  dsimp only
  split <;> simp

@[simp] theorem mem_reply (s : State) (sess : Option Nat) (ans : SpdmAns) : (s.reply sess ans).mem = s.mem := by
  unfold State.reply
  repeat' split
  all_goals simp

@[simp] theorem mem_dropSigning (s : State) : (s.dropSigning).mem = s.mem := by
  simp [State.dropSigning, mem_foldl]

@[simp] theorem mem_dropNonce (s : State) : (s.dropNonce).mem = s.mem := rfl

theorem mem_fwActivate (s : State) (comp : Nat) : ∀ t, s.fwActivate comp = some t → t.mem = s.mem := by
  unfold State.fwActivate
  dsimp only
  repeat' split
  all_goals simp

@[simp] theorem mem_fwCommit (s : State) (comp : Nat) : (s.fwCommit comp).mem = s.mem := by
  unfold State.fwCommit
  repeat' split
  all_goals simp

theorem mem_fwDo (s : State) (action comp len : Nat) : ∀ t, s.fwDo action comp len = some t → t.mem = s.mem := by
  intro t ht
  unfold State.fwDo at ht
  split at ht
  · exact mem_fwStage _ _ _ t ht
  · exact mem_fwActivate _ _ t ht
  all_goals
    obtain rfl := Option.some.inj ht
    simp

@[simp] theorem mem_applyFw (s : State) (sess : Nat) : (s.applyFw sess).1.mem = s.mem := by
  unfold State.applyFw
  dsimp only
  repeat' split
  · rfl
  · simp
  · next t ht => simp [mem_fwDo _ _ _ _ _ ht]

@[simp] theorem mem_writeObject (s : State) (sess idx sub v : Nat) : (s.writeObject sess idx sub v).1.mem = s.mem := by
  unfold State.writeObject
  dsimp only
  repeat' split
  all_goals simp

@[simp] theorem mem_wakeLink (s : State) (l : Nat) : (s.wakeLink l).mem = s.mem := by
  unfold State.wakeLink
  repeat' split
  all_goals simp

@[simp] theorem mem_writeOperatorKey (s : State) (sess slot digest : Nat) : (s.writeOperatorKey sess slot digest).1.mem = s.mem := by
  fun_cases State.writeOperatorKey <;> simp

@[simp] theorem mem_stripToken (s : State) (sess : Nat) (t : MakerToken) : (s.stripToken sess t).1.mem = s.mem := by
  unfold State.stripToken
  dsimp only
  repeat' split
  all_goals simp

@[simp] theorem mem_takeRecord (s : State) (a stream : Nat) : (s.takeRecord a stream).mem = s.mem := by
  unfold State.takeRecord
  dsimp only
  repeat' split
  all_goals simp

@[simp] theorem mem_crierTake (s : State) (a stream : Nat) : (s.crierTake a stream).mem = s.mem := by
  unfold State.crierTake
  dsimp only
  repeat' split
  all_goals simp

@[simp] theorem mem_dropUnknown (s : State) (a : Nat) : (s.dropUnknown a).mem = s.mem := by
  unfold State.dropUnknown
  dsimp only
  repeat' split
  all_goals simp

@[simp] theorem mem_noQp (s : State) (qp : Nat) : (s.noQp qp).mem = s.mem := by
  unfold State.noQp
  repeat' split
  all_goals simp

@[simp] theorem mem_meterHost (s : State) (a n : Nat) : (s.meterHost a n).mem = s.mem := rfl

@[simp] theorem mem_portArrive (s : State) (p : Nat) : (s.portArrive p).mem = s.mem := by
  unfold State.portArrive
  dsimp only
  repeat' split
  all_goals simp

@[simp] theorem mem_readDesc (s : State) (a n : Nat) : (s.readDesc a n).mem = s.mem := by
  unfold State.readDesc
  dsimp only
  repeat' split
  all_goals simp

/-- The state in which a doorbell is judged: the descriptor is read anew while every record has been consumed (spec/17 R495). -/
def State.ringRead (s : State) (a n : Nat) : State := if (s.stream a n).left = 0 then s.readDesc a n else s

/-- A doorbell of value d judged by its stream y. -/
def State.ringOn (s : State) (a n port d : Nat) (y : Stream) : State :=
  match y.desc with
  | none => s
  | some e =>
    if 2 ^ e.ringLog2 < (d + 2 ^ 32 - y.consumed % 2 ^ 32) % 2 ^ 32 then s.dropPort port 0x06 a
    else s.modStream a n (fun z => { z with doorbell := d })

/-- State.ring is unfolded as a function, and its stream is made opaque: to compare the applications the kernel would evaluate the
stream's counts. -/
theorem ring_eq (s : State) (a n port d : Nat) :
    s.ring a n port d = (s.ringRead a n).ringOn a n port d ((s.ringRead a n).stream a n) := by
  suffices h : ∀ f, f = @State.ring → ∀ t, t = s.ringRead a n → ∀ z, z = t.stream a n → f s a n port d = t.ringOn a n port d z from
    h _ rfl _ rfl _ rfl
  intro f hf t ht z hz
  delta State.ring at hf
  rw [hf]
  beta_reduce
  extract_lets x s1 y
  have hread : s1 = t := ht.symm
  have hstream : y = z := by rw [hz, ← hread]
  rw [hstream, hread]
  unfold State.ringOn
  cases z.desc <;> rfl

@[simp] theorem mem_ringRead (s : State) (a n : Nat) : (s.ringRead a n).mem = s.mem := by
  unfold State.ringRead
  split <;> simp

@[simp] theorem mem_ringOn (s : State) (a n port d : Nat) (y : Stream) : (s.ringOn a n port d y).mem = s.mem := by
  unfold State.ringOn
  split
  · rfl
  · split <;> simp

@[simp] theorem mem_ring (s : State) (a n port d : Nat) : (s.ring a n port d).mem = s.mem := by
  rw [ring_eq, mem_ringOn, mem_ringRead]

@[simp] theorem mem_bell (s : State) (qp stream d : Nat) : (s.bell qp stream d).mem = s.mem := by
  unfold State.bell
  dsimp only
  repeat' split
  all_goals simp

@[simp] theorem mem_larderRead (s : State) (j : Job) (raddr len : Nat) (remote : List Byte) : (s.larderRead j raddr len remote).mem = s.mem := by
  unfold State.larderRead
  simp

@[simp] theorem mem_manifestComes (s : State) (n : Nat) (j : Job) (h : Nat) (remote : List Byte) : (s.manifestComes n j h remote).mem = s.mem := by
  unfold State.manifestComes
  repeat' split
  all_goals simp

@[simp] theorem mem_workMoved (s : State) (n : Nat) (j : Job) (h : Nat) : (s.workMoved n j h).mem = s.mem := by
  unfold State.workMoved
  repeat' split
  all_goals simp

@[simp] theorem mem_blockRechecked (s : State) (n : Nat) (j : Job) (h : Nat) (e : LEntry) : (s.blockRechecked n j h e).mem = s.mem := by
  unfold State.blockRechecked
  simp

@[simp] theorem mem_translateBlock (s : State) (j : Job) : (s.translateBlock j).mem = s.mem := rfl

@[simp] theorem mem_endTurn (s : State) (a c : Nat) (next : Option Nat) (r : SwitchReason) : (s.endTurn a c next r).mem = s.mem := rfl

@[simp] theorem mem_endMoots (s : State) (a c : Nat) (st : Status) : (s.endMoots a c st).mem = s.mem := by
  simp [State.endMoots, mem_foldl]

@[simp] theorem mem_stopJobs (s : State) (a : Nat) (st : Status) : (s.stopJobs a st).mem = s.mem := rfl

@[simp] theorem mem_takeNumber (s : State) (e : TopoEntry) : (s.takeNumber e).mem = s.mem := by
  unfold State.takeNumber
  repeat' split
  all_goals simp

@[simp] theorem mem_putEntry (s : State) (l : Nat) (e : TopoEntry) : (s.putEntry l e).mem = s.mem := by
  unfold State.putEntry
  simp

@[simp] theorem mem_logDropped (s : State) (src : Nat) : (s.logDropped src).mem = s.mem := rfl

@[simp] theorem mem_settleInbound (s : State) (src xtag : Nat) : (s.settleInbound src xtag).mem = s.mem := by
  unfold State.settleInbound
  dsimp only
  repeat' split
  all_goals simp [*]

@[simp] theorem mem_askSign (s : State) (r : SignReq) : (s.askSign r).mem = s.mem := by
  unfold State.askSign
  repeat' split
  all_goals simp

@[simp] theorem mem_openSession (s : State) (path : LmpPath) (r : Requester) : (s.openSession path r).mem = s.mem := rfl

@[simp] theorem mem_lych (s : State) (sess : Nat) (st : Status) (data : optParam (List Byte) []) : (s.lych sess st data).mem = s.mem := by
  unfold State.lych
  simp

@[simp] theorem mem_nakQp (s : State) (qp : Nat) (invalid : Bool) : (s.nakQp qp invalid).mem = s.mem := by
  unfold State.nakQp
  simp

@[simp] theorem mem_countCnp (s : State) (p sent received : Nat) : (s.countCnp p sent received).mem = s.mem := rfl

@[simp] theorem mem_measure (s : State) : (s.measure).mem = s.mem := by
  unfold State.measure
  simp

@[simp] theorem mem_markPasses (s : State) (w : Nat) (f : PassRun → PassRun) : (s.markPasses w f).mem = s.mem := rfl

@[simp] theorem mem_evalWard (s : State) (w cause : Nat) : (s.evalWard w cause).mem = s.mem := by
  unfold State.evalWard
  repeat' split
  all_goals simp

@[simp] theorem mem_beginHold (s : State) (w : Nat) : (s.beginHold w).mem = s.mem := rfl

@[simp] theorem mem_applyMgmt (s : State) (sess : Nat) : (s.applyMgmt sess).1.mem = s.mem := by
  unfold State.applyMgmt
  simp

@[simp] theorem mem_wellDone (s : State) (slot : Nat) (l : List (Nat × Status)) : (s.wellDone slot l).mem = s.mem := by
  simp [State.wellDone, mem_foldl]

@[simp] theorem mem_wellSealed (s : State) (slot : Nat) : (s.wellSealed slot).mem = s.mem := by
  fun_cases State.wellSealed <;> simp

@[simp] theorem mem_release (s : State) (phase : Nat) : (s.release phase).mem = s.mem := by
  unfold State.release
  split
  · simp [mem_foldl]
  · simp
  · refine (mem_foldl (fun t l => mem_wakeLink ..) _ _).trans (mem_foldl (fun t p => ?_) _ s)
    split <;> simp
  · rfl

@[simp] theorem mem_runImage (s : State) (i : Nat) : (s.runImage i).mem = s.mem := by
  fun_cases State.runImage <;> simp

@[simp] theorem mem_fuseSeed (s : State) (identity : Nat) : (s.fuseSeed identity).mem = s.mem := rfl

end Sys2Proof.Machine
end

section
/-! Memory: each operation that writes keeps its canonical form. -/

namespace Sys2Proof.Machine

/-! ### The canonical form of memory, kept -/

theorem wf_of_mem_eq {s t : State} (h : t.mem = s.mem) (hm : Mem.wf s.mem = true) : Mem.wf t.mem = true := h ▸ hm

@[simp] theorem wf_ite (c : Prop) [Decidable c] {m n : List Host.Cell} (hm : Mem.wf m = true) (hn : Mem.wf n = true) :
    Mem.wf (if c then m else n) = true := by
  split
  · exact hm
  · exact hn

theorem wf_foldl {β : Type} {f : State → β → State} (hf : ∀ s b, Mem.wf s.mem = true → Mem.wf (f s b).mem = true) (l : List β) {s : State}
    (h : Mem.wf s.mem = true) : Mem.wf (l.foldl f s).mem = true := by
  induction l generalizing s with
  | nil => exact h
  | cons b l ih => exact ih (hf s b h)

/-- The memory of a state has its canonical form: the same as a predicate of the state, which the kernel compares by its argument, where
comparing two memories would evaluate the states. -/
def State.MemForm (s : State) : Prop := Mem.wf s.mem = true

theorem State.MemForm.of_eq {s t : State} (hs : s.MemForm) (h : t.mem = s.mem) : t.MemForm := wf_of_mem_eq h hs

theorem State.MemForm.pair {α : Type} {t : State} (h : t.MemForm) (x : α) : (t, x).1.MemForm := h

theorem State.MemForm.setJobs {t : State} (h : t.MemForm) (l : Tbl Job) : ({ t with jobs := l } : State).MemForm := h

theorem State.MemForm.setLanded {t : State} (ht : t.MemForm) (g b : Nat) (k : Bucket) (slots : Tbl Nat) :
    ({ t.setBucket g b k with landingSlots := slots } : State).MemForm := ht

theorem State.MemForm.elimMark {t : State} (ht : t.MemForm) (c : Option Nat) (a : Nat) (f : Ctx → Ctx) :
    (c.elim t (fun core => t.modCtx a core f)).MemForm := by
  cases c <;> exact ht

theorem State.MemForm.ite {t u : State} (c : Prop) [Decidable c] (h : t.MemForm) (hu : u.MemForm) : (if c then t else u).MemForm := by
  split
  · exact h
  · exact hu

@[simp] theorem wf_store (s : State) (pa : Nat) (bs : List Byte) (hm : Mem.wf s.mem = true) : Mem.wf (s.store pa bs).mem = true :=
  State.wf_store s pa bs hm

@[simp] theorem wf_zeroRange (s : State) (lo hi : Nat) (hm : Mem.wf s.mem = true) : Mem.wf (s.zeroRange lo hi).mem = true :=
  State.wf_zeroRange s lo hi hm

@[simp] theorem wf_writeVa (s : State) (a va : Nat) (bs : List Byte) (hm : Mem.wf s.mem = true) : Mem.wf (s.writeVa a va bs).mem = true :=
  State.wf_writeVa s a va bs hm

@[simp] theorem wf_writeP (s : State) (a va : Nat) (bs : List PByte) (hm : Mem.wf s.mem = true) : Mem.wf (s.writeP a va bs).mem = true :=
  State.wf_writeP s a va bs hm

@[simp] theorem wf_deviceReset (s : State) (mode : PowerMode) (cause : Nat) (hm : Mem.wf s.mem = true) :
    Mem.wf (s.deviceReset mode cause).mem = true := by
  rw [deviceReset_eq]
  rfl

@[simp] theorem wf_tick (s : State) (hm : Mem.wf s.mem = true) : Mem.wf (s.tick).mem = true := by
  unfold State.tick
  split <;> simp [hm]

@[simp] theorem wf_putRecord (s : State) (a c : Nat) (r : HeldRec) (hm : Mem.wf s.mem = true) : Mem.wf (s.putRecord a c r).mem = true := by
  unfold State.putRecord
  dsimp only
  repeat' split
  all_goals simp [hm]

@[simp] theorem wf_writeRecord (s : State) (a c : Nat) (p : PassRun) (st : Status) (mark : Option Nat) (hm : Mem.wf s.mem = true) :
    Mem.wf (s.writeRecord a c p st mark).mem = true := by
  simp [State.writeRecord, hm]

@[simp] theorem wf_discardPasses (s : State) (a c : Nat) (st : Status) (fuel : Nat) (hm : Mem.wf s.mem = true) :
    Mem.wf (s.discardPasses a c st fuel).mem = true := by
  induction fuel generalizing s with
  | zero => exact hm
  | succ fuel ih =>
    unfold State.discardPasses
    repeat' split
    all_goals simp [ih, hm]

@[simp] theorem wf_writeFaultRecord (s : State) (a c va : Nat) (e : Engine) (cause : FaultCause) (op resume : Nat) (hm : Mem.wf s.mem = true) :
    Mem.wf (s.writeFaultRecord a c va e cause op resume).mem = true := by
  unfold State.writeFaultRecord
  extract_lets i at' place
  exact wf_of_mem_eq (mem_logEvent _ _) (wf_writeVa _ _ _ _ hm)

@[simp] theorem wf_takeFault (s : State) (a c : Nat) (e : Engine) (cause : FaultCause) (va op : Nat) (hm : Mem.wf s.mem = true) :
    Mem.wf (s.takeFault a c e cause va op).mem = true := by
  simp [State.takeFault, hm]

@[simp] theorem wf_gPoison (s : State) (a c : Nat) (x : Ctx) (va : Nat) (hm : Mem.wf s.mem = true) :
    Mem.wf (s.gPoison a c x va).mem = true := by
  simp [State.gPoison, hm]

@[simp] theorem wf_gLoad (s : State) (a c : Nat) (x : Ctx) (rd ra : Reg) (off : W16) (n : Nat) (hm : Mem.wf s.mem = true) :
    Mem.wf (s.gLoad a c x rd ra off n).mem = true := by
  unfold State.gLoad
  dsimp only
  split <;> simp [hm]

@[simp] theorem wf_gStore (s : State) (a c : Nat) (x : Ctx) (rs ra : Reg) (off : W16) (n : Nat) (hm : Mem.wf s.mem = true) :
    Mem.wf (s.gStore a c x rs ra off n).mem = true := by
  fun_cases State.gStore <;> simp +zetaDelta [hm]

@[simp] theorem wf_zeroRng (s : State) (a c : Nat) (r : Rng) (hm : Mem.wf s.mem = true) : Mem.wf (s.zeroRng a c r).mem = true := by
  refine wf_foldl (fun t run ht => ?_) (rngRuns r) hm
  split <;> simp [ht]

@[simp] theorem wf_zeroRngs (s : State) (a c : Nat) (rs : List Rng) (hm : Mem.wf s.mem = true) : Mem.wf (s.zeroRngs a c rs).mem = true := by
  simp +contextual [State.zeroRngs, wf_foldl, hm]

@[simp] theorem wf_closeEpoch (s : State) (a c : Nat) (p : Epoch) (hm : Mem.wf s.mem = true) : Mem.wf (s.closeEpoch a c p).mem = true := by
  unfold State.closeEpoch
  dsimp only
  split
  · simp +contextual [wf_foldl, hm]
  · simp [hm]

@[simp] theorem wf_closeEpochs (s : State) (a c : Nat) (hm : Mem.wf s.mem = true) : Mem.wf (s.closeEpochs a c).mem = true := wf_foldl (fun _ _ ht => wf_closeEpoch _ _ _ _ ht) _ hm

@[simp] theorem wf_skWrite (s : State) (a c : Nat) (w : SkW) (hm : Mem.wf s.mem = true) : Mem.wf (s.skWrite a c w).mem = true := by
  unfold State.skWrite
  split <;> simp [hm]

@[simp] theorem wf_skSteps (s : State) (a c : Nat) (l : List SkStep) (hm : Mem.wf s.mem = true) : Mem.wf (s.skSteps a c l).mem = true := by
  simp +contextual [State.skSteps, wf_foldl, hm]

@[simp] theorem wf_skPartial (s : State) (a c : Nat) (x : Ctx) (r : SkimRun) (hm : Mem.wf s.mem = true) :
    Mem.wf (s.skPartial a c x r).mem = true := by
  unfold State.skPartial
  split <;> simp [hm]

@[simp] theorem wf_faultSkim (s : State) (a c i : Nat) (r : SkimRun) (hm : Mem.wf s.mem = true) : Mem.wf (s.faultSkim a c i r).mem = true := by
  simp [State.faultSkim, hm]

@[simp] theorem wf_copyRows (s : State) (a c fuel x4 x5 : Nat) (x6 : List PByte) (hm : Mem.wf s.mem = true) :
    Mem.wf (s.copyRows a c fuel x4 x5 x6).1.mem = true := by
  induction fuel generalizing s x4 x5 x6 with
  | zero => exact hm
  | succ fuel ih =>
    unfold State.copyRows
    dsimp only
    repeat' split
    all_goals simp [ih, hm]

@[simp] theorem wf_placeVa (s : State) (a c : Nat) (src : Option Nat) (dst : Nat) (bs : List PByte) (hm : Mem.wf s.mem = true) :
    Mem.wf (s.placeVa a c src dst bs).s.mem = true := by
  unfold State.placeVa
  split <;> simp [hm]

@[simp] theorem mem_placeHawk (s : State) (a c : Nat) (x : Ctx) (src : Option Nat) (off : Nat) (bs : List PByte) (seen : Tbl UnitSrc) :
    (s.placeHawk a c x src off bs seen).s.mem = s.mem := by
  simp [State.placeHawk]

@[simp] theorem mem_placeRing (s : State) (a c : Nat) (x : Ctx) (t : TrowelRun) (src : Option Nat) (bs : List PByte) :
    (s.placeRing a c x t src bs).s.mem = s.mem := by
  unfold State.placeRing
  dsimp only
  split <;> simp

@[simp] theorem wf_placeRow (s : State) (a c : Nat) (x : Ctx) (t : TrowelRun) (src : Option Nat) (dst : Nat) (bs : List PByte)
    (hm : Mem.wf s.mem = true) : Mem.wf (s.placeRow a c x t src dst bs).s.mem = true := by
  unfold State.placeRow
  split <;> simp [hm]

@[simp] theorem wf_putCopy (s : State) (a c : Nat) (x : Ctx) (q : QOp) (bs : List PByte) (hm : Mem.wf s.mem = true) :
    Mem.wf (s.putCopy a c x q bs).s.mem = true := by
  unfold State.putCopy
  dsimp only
  split <;> simp [hm]

@[simp] theorem wf_stopPartial (s : State) (a c : Nat) (x : Ctx) (t : TrowelRun) (hm : Mem.wf s.mem = true) :
    Mem.wf (s.stopPartial a c x t).mem = true := by
  unfold State.stopPartial
  dsimp only
  split
  · simp [hm]
  · simp only [mem_count]
    refine wf_putCopy _ _ _ _ _ _ ?_
    split <;> simp [hm]

@[simp] theorem wf_faultTrowel (s : State) (a c i : Nat) (t : TrowelRun) (hm : Mem.wf s.mem = true) :
    Mem.wf (s.faultTrowel a c i t).mem = true := by
  simp [State.faultTrowel, hm]

theorem wf_stopAt (s : State) (a c : Nat) (e : Engine) (cause : FaultCause) (va len : Nat) (hm : Mem.wf s.mem = true) :
    ∀ t, s.stopAt a c e cause va len = some t → Mem.wf t.2.mem = true := by
  unfold State.stopAt
  dsimp only
  repeat' split
  all_goals simp [hm]

@[simp] theorem wf_stopUsers (s : State) (a c : Nat) (e : Engine) (va len fuel : Nat) (hm : Mem.wf s.mem = true) :
    Mem.wf (s.stopUsers a c e va len fuel).1.mem = true := by
  induction fuel generalizing s with
  | zero => exact hm
  | succ fuel ih =>
    unfold State.stopUsers
    split
    · exact hm
    · next op t ht =>
      have hwf := wf_stopAt s a c e .pageRemoved va len hm _ ht
      split
      · exact hwf
      · exact ih t hwf

@[simp] theorem wf_faultRange (s : State) (a c va len : Nat) (hm : Mem.wf s.mem = true) : Mem.wf (s.faultRange a c va len).mem = true := by
  have hfold (l : List Engine) (acc : State × Option (Engine × Nat)) (h : Mem.wf acc.1.mem = true) :
      Mem.wf (l.foldl (fun (acc : State × Option (Engine × Nat)) e =>
        let x := acc.1.ctx a c
        let q := acc.1.stopUsers a c e va len (x.skims.length + x.trowels.length + x.moots.length + 1)
        (q.1, acc.2.orElse (fun _ => q.2))) acc).1.mem = true := by
    induction l generalizing acc with
    | nil => exact h
    | cons e l ih => exact ih _ (wf_stopUsers _ _ _ _ _ _ _ h)
  unfold State.faultRange
  dsimp only
  split
  · exact hfold engines _ hm
  · exact wf_takeFault _ _ _ _ _ _ _ (hfold engines _ hm)

@[simp] theorem wf_zeroLoftFrame (s : State) (c f : Nat) (hm : Mem.wf s.mem = true) : Mem.wf (s.zeroLoftFrame c f).mem = true := by
  simp [State.zeroLoftFrame, hm]

@[simp] theorem wf_trimLoft (s : State) (a c n : Nat) (hm : Mem.wf s.mem = true) : Mem.wf (s.trimLoft a c n).mem = true := by
  simp +contextual [State.trimLoft, wf_foldl, hm]

@[simp] theorem wf_dropContext (s : State) (a c : Nat) (hm : Mem.wf s.mem = true) : Mem.wf (s.dropContext a c).mem = true := by
  refine wf_trimLoft _ a c 0 ?_
  rw [mem_endOnCore]
  exact wf_foldl (fun _ _ ht => wf_faultRange _ _ _ _ _ ht) _ hm

@[simp] theorem wf_settleSet (s : State) (c : Nat) (hm : Mem.wf s.mem = true) : Mem.wf (s.settleSet c).mem = true := by
  unfold State.settleSet
  dsimp only
  split
  · exact hm
  · rw [mem_divideHawk, mem_foldl fun _ _ => mem_addContext ..]
    exact wf_foldl (fun _ _ ht => wf_dropContext _ _ _ ht) _ hm

@[simp] theorem wf_tuneLoft (s : State) (a c : Nat) (hm : Mem.wf s.mem = true) : Mem.wf (s.tuneLoft a c).mem = true := by
  unfold State.tuneLoft
  dsimp only
  split <;> simp [hm]

@[simp] theorem wf_settleOne (s : State) (a c : Nat) (hm : Mem.wf s.mem = true) : Mem.wf (s.settleOne a c).mem = true := by
  simp [State.settleOne, hm]

@[simp] theorem wf_settleCore (s : State) (c : Nat) (hm : Mem.wf s.mem = true) : Mem.wf (s.settleCore c).mem = true := by
  unfold State.settleCore
  split
  · exact hm
  · rw [mem_tuneHolder]
    exact wf_foldl (fun _ _ ht => wf_settleOne _ _ _ ht) _ (wf_settleSet _ _ hm)

@[simp] theorem wf_drainPasses (s : State) (a c fuel : Nat) (hm : Mem.wf s.mem = true) : Mem.wf (s.drainPasses a c fuel).mem = true := by
  induction fuel generalizing s with
  | zero => exact hm
  | succ fuel ih =>
    unfold State.drainPasses
    dsimp only
    repeat' split
    all_goals simp [ih, hm]

@[simp] theorem wf_refusePass (s : State) (a c : Nat) (x : Ctx) (q : QOp) (passo : Bool) (table : List Byte) (st : Status) (hm : Mem.wf s.mem = true) :
    Mem.wf (s.refusePass a c x q passo table st).mem = true := by
  simp [State.refusePass, hm]

@[simp] theorem wf_refuseLath (s : State) (a c : Nat) (x : Ctx) (q : QOp) (table : List Byte) (st : Status) (hm : Mem.wf s.mem = true) :
    Mem.wf (s.refuseLath a c x q table st).mem = true := by
  unfold State.refuseLath
  split <;> simp [hm]

@[simp] theorem wf_refuseHead (s : State) (a c : Nat) (x : Ctx) (q : QOp) (table : List Byte) (st : Status) (hm : Mem.wf s.mem = true) :
    Mem.wf (s.refuseHead a c x q table st).mem = true := by
  simp [State.refuseHead, hm]

@[simp] theorem wf_faultAtStart (s : State) (a c : Nat) (x : Ctx) (r : PassRun) (va : Nat) (hm : Mem.wf s.mem = true) :
    Mem.wf (s.faultAtStart a c x r va).mem = true := by
  simp [State.faultAtStart, hm]

@[simp] theorem wf_moveRow (s : State) (a c : Nat) (x : Ctx) (t : TrowelRun) (p : RowPlace) (hm : Mem.wf s.mem = true) :
    Mem.wf (s.moveRow a c x t p).1.mem = true := by
  unfold State.moveRow
  dsimp only
  repeat' split
  all_goals simp [hm]

@[simp] theorem wf_settleTally (s : State) (a : Nat) (q : QOp) (crc : Nat) (whole : Bool) (hm : Mem.wf s.mem = true) :
    Mem.wf (s.settleTally a q crc whole).1.mem = true := by
  unfold State.settleTally
  repeat' split
  all_goals simp [hm]

@[simp] theorem wf_finishFabric (s : State) (a c : Nat) (t : TrowelRun) (rest : List TrowelRun) (done : Status) (hm : Mem.wf s.mem = true) :
    Mem.wf (s.finishFabric a c t rest done).mem = true := by
  simp [State.finishFabric, hm]

@[simp] theorem wf_finishRows (s : State) (a c : Nat) (t : TrowelRun) (rest : List TrowelRun) (hm : Mem.wf s.mem = true) :
    Mem.wf (s.finishRows a c t rest).mem = true := by
  simp [State.finishRows, hm]

@[simp] theorem wf_finishRing (s : State) (a c : Nat) (x : Ctx) (t : TrowelRun) (rest : List TrowelRun) (hm : Mem.wf s.mem = true) :
    Mem.wf (s.finishRing a c x t rest).mem = true := by
  unfold State.finishRing
  dsimp only
  repeat' split
  all_goals simp [hm]

@[simp] theorem wf_finishCopy (s : State) (a c : Nat) (x : Ctx) (t : TrowelRun) (rest : List TrowelRun) (hm : Mem.wf s.mem = true) :
    Mem.wf (s.finishCopy a c x t rest).mem = true := by
  unfold State.finishCopy
  dsimp only
  split
  · simp [hm]
  · split <;> simp [hm]

@[simp] theorem wf_mootWrite (s : State) (a : Nat) (c : Option Nat) (places : List VRange) (ws : List (Nat × List Byte)) (hm : Mem.wf s.mem = true) :
    Mem.wf (s.mootWrite a c places ws).mem = true := by
  unfold State.mootWrite
  split
  · simp +contextual [wf_foldl, hm]
  · cases c <;> simp [hm]

@[simp] theorem wf_publishRecord (s : State) (a c g step bucket roll samples faulty length : Nat) (st : Status) (hm : Mem.wf s.mem = true) :
    Mem.wf (s.publishRecord a c g step bucket roll samples faulty length st).mem = true := by
  simp [State.publishRecord, hm]

@[simp] theorem wf_finishPublish (s : State) (a c i : Nat) (r : MootRun) (hm : Mem.wf s.mem = true) :
    Mem.wf (s.finishPublish a c i r).mem = true := by
  unfold State.finishPublish
  repeat' split
  all_goals simp [hm]

@[simp] theorem wf_wakePublish (s : State) (a : Nat) (hm : Mem.wf s.mem = true) : Mem.wf (s.wakePublish a).mem = true := by
  refine wf_foldl (fun t c ht => ?_) _ hm
  rw [mem_settleMoots]
  exact wf_foldl (fun _ _ hu => wf_finishPublish _ _ _ _ _ hu) _ ht

@[simp] theorem wf_shardArrives (s : State) (g b : Nat) (k : Bucket) (m : MStream) (good sent : Bool) (hm : Mem.wf s.mem = true) :
    Mem.wf (s.shardArrives g b k m good sent).mem = true := by
  simp [State.shardArrives, hm]

@[simp] theorem wf_deliverMoot (s : State) (g b level : Nat) (m : MStream) (good sent : Bool) (hm : Mem.wf s.mem = true) :
    Mem.wf (s.deliverMoot g b level m good sent).mem = true := by
  unfold State.deliverMoot
  repeat' split
  all_goals simp [hm]

@[simp] theorem wf_takeEarly (s : State) (g step bucket : Nat) (hm : Mem.wf s.mem = true) : Mem.wf (s.takeEarly g step bucket).mem = true := by
  simp +contextual [State.takeEarly, wf_foldl, hm]

@[simp] theorem wf_mootMessage (s : State) (g b level : Nat) (m : MStream) (good : Bool) (hm : Mem.wf s.mem = true) :
    Mem.wf (s.mootMessage g b level m good).mem = true := by
  unfold State.mootMessage
  split <;> simp [hm]

@[simp] theorem wf_mootClose (s : State) (g : Nat) (c : MootCtx) (v : W32) (hm : Mem.wf s.mem = true) :
    Mem.wf (s.mootClose g c v).mem = true := by
  unfold State.mootClose
  dsimp only
  split <;> simp [hm]

@[simp] theorem wf_land (s : State) (g b : Nat) (k : Bucket) (p : MPart) (hm : Mem.wf s.mem = true) : Mem.wf (s.land g b k p).mem = true := by
  have hwrite (a : Nat) (c : Option Nat) (places : List VRange) (ws : List (Nat × List Byte)) : (s.mootWrite a c places ws).MemForm :=
    wf_mootWrite s a c places ws hm
  suffices h : ∀ f, f = @State.land → (f s g b k p).MemForm from h _ rfl
  intro f hf
  delta State.land at hf
  rw [hf]
  exact ((hwrite _ _ _ _).setLanded g b _ _).elimMark _ _ _

@[simp] theorem wf_loseGroup (s : State) (g : Nat) (hm : Mem.wf s.mem = true) : Mem.wf (s.loseGroup g).mem = true := by
  simp +contextual [State.loseGroup, wf_foldl, hm]

@[simp] theorem wf_dropFrames (s : State) (fs : List Nat) (hm : Mem.wf s.mem = true) : Mem.wf (s.dropFrames fs).mem = true := by
  simp +contextual [State.dropFrames, wf_foldl, hm]

@[simp] theorem wf_applyGroup (s : State) (sess g : Nat) (hm : Mem.wf s.mem = true) : Mem.wf (s.applyGroup sess g).1.mem = true := by
  unfold State.applyGroup
  dsimp only
  repeat' split
  all_goals simp [hm]

@[simp] theorem wf_runReset (s : State) (hm : Mem.wf s.mem = true) : Mem.wf (s.runReset).mem = true := by
  simp [State.runReset, hm]

@[simp] theorem wf_freeEntry (s : State) (h : Nat) (hm : Mem.wf s.mem = true) : Mem.wf (s.freeEntry h).mem = true := by
  have hfault (t : State) (a va len : Nat) (ht : Mem.wf t.mem = true) :
      Mem.wf ((t.allotCores a).foldl (fun u c => u.faultRange a c va len) t).mem = true :=
    wf_foldl (fun _ _ hu => wf_faultRange _ _ _ _ _ hu) _ ht
  unfold State.freeEntry
  dsimp only
  split
  · exact hm
  · rw [mem_countEntries, mem_fitQuota, mem_dropWork]
    refine wf_foldl (fun _ _ ht => wf_zeroRange _ _ _ ht) _ ?_
    repeat' split
    all_goals simp [hfault, hm]

@[simp] theorem wf_dropEntry (s : State) (h : Nat) (e : LEntry) (hm : Mem.wf s.mem = true) : Mem.wf (s.dropEntry h e).mem = true := by
  simp [State.dropEntry, hm]

@[simp] theorem wf_evict (s : State) (h : Nat) (hm : Mem.wf s.mem = true) : Mem.wf (s.evict h).mem = true := by
  unfold State.evict
  split <;> simp [hm]

@[simp] theorem wf_evictUntil (s : State) (owner : Nat) (ok : State → Bool) (fuel : Nat) (hm : Mem.wf s.mem = true) :
    Mem.wf (s.evictUntil owner ok fuel).mem = true := by
  induction fuel generalizing s with
  | zero => exact hm
  | succ fuel ih =>
    unfold State.evictUntil
    repeat' split
    all_goals simp [ih, hm]

@[simp] theorem wf_takeEntry (s : State) (owner adapt : Nat) (src : FillSrc) (pin : Bool) (waiters : List Nat) (hm : Mem.wf s.mem = true) :
    Mem.wf (s.takeEntry owner adapt src pin waiters).1.mem = true := by
  unfold State.takeEntry
  dsimp only
  split <;> simp [hm]

@[simp] theorem wf_takePages (s : State) (h : Nat) (e : LEntry) (len : Nat) (hm : Mem.wf s.mem = true) :
    Mem.wf (s.takePages h e len).1.mem = true := by
  fun_cases State.takePages <;> simp +zetaDelta [hm]

@[simp] theorem wf_fillRoom (s : State) (n : Nat) (j : Job) (h : Nat) (e : LEntry) (install : Bool) (hm : Mem.wf s.mem = true) :
    Mem.wf (s.fillRoom n j h e install).mem = true := by
  have hends : (s.workEnds n h .accessDenied).MemForm := State.MemForm.of_eq hm (mem_workEnds ..)
  have hpages : (s.takePages h e j.rec'.len).1.MemForm := wf_takePages s h e j.rec'.len hm
  suffices h : ∀ f, f = @State.fillRoom → (f s n j h e install).MemForm from h _ rfl
  intro f hf
  delta State.fillRoom at hf
  rw [hf]
  exact State.MemForm.ite _ hends (hpages.setJobs _)

@[simp] theorem wf_wakeRooms (s : State) (hm : Mem.wf s.mem = true) : Mem.wf (s.wakeRooms).mem = true := by
  have hroom (t : State) (p : Nat × Job) (ht : Mem.wf t.mem = true) : Mem.wf (match p.2.larder with
      | some (h, .room install) => (match t.larder.find h with
        | some e => t.fillRoom p.1 p.2 h e install
        | none => t)
      | _ => t).mem = true := by
    repeat' split
    · exact wf_fillRoom _ _ _ _ _ _ ht
    all_goals exact ht
  exact wf_foldl hroom s.jobs hm

@[simp] theorem wf_wakeFills (s : State) (hm : Mem.wf s.mem = true) : Mem.wf (s.wakeFills).mem = true := by
  unfold State.wakeFills
  split
  · exact hm
  · refine wf_foldl (fun t q ht => ?_) s.fillWait (wf_wakeRooms s hm)
    dsimp only
    repeat' split
    all_goals simp [ht]

@[simp] theorem wf_tryFree (s : State) (h : Nat) (hm : Mem.wf s.mem = true) : Mem.wf (s.tryFree h).mem = true := by
  unfold State.tryFree
  split <;> simp [hm]

@[simp] theorem wf_releasePin (s : State) (h : Nat) (hm : Mem.wf s.mem = true) : Mem.wf (s.releasePin h).mem = true := by
  simp [State.releasePin, hm]

@[simp] theorem wf_abortGreen (s : State) (hm : Mem.wf s.mem = true) : Mem.wf (s.abortGreen).mem = true := by
  refine (congrArg Mem.wf (mem_countBound _)).trans (wf_foldl (fun t e ht => ?_) s.greenSlots hm)
  dsimp only
  repeat' split
  all_goals simp [ht]

@[simp] theorem wf_zeroSlot (s : State) (slot : Nat) (hm : Mem.wf s.mem = true) : Mem.wf (s.zeroSlot slot).mem = true := by
  simp [State.zeroSlot, hm]

@[simp] theorem wf_zeroTagged (s : State) (g c n : Nat) (hm : Mem.wf s.mem = true) : Mem.wf (s.zeroTagged g c n).mem = true := by
  refine wf_foldl (fun t e ht => wf_foldl (fun u i hu => ?_) _ ht) _ hm
  split <;> simp [hu]

@[simp] theorem wf_stripGreen (s : State) (n : Nat) (hm : Mem.wf s.mem = true) : Mem.wf (s.stripGreen n).mem = true := by
  unfold State.stripGreen
  dsimp only
  split
  · exact hm
  · rw [mem_countBound]
    refine wf_foldl (fun t c ht => ?_) _ (wf_foldl (fun t e ht => ?_) _ hm)
    · simp [ht]
    · split <;> simp [ht]

@[simp] theorem wf_wipeCore (s : State) (n c : Nat) (hm : Mem.wf s.mem = true) : Mem.wf (s.wipeCore n c).mem = true := by
  simp [State.wipeCore, hm]

@[simp] theorem wf_withdraw (s : State) (h : Nat) (hm : Mem.wf s.mem = true) : Mem.wf (s.withdraw h).mem = true := by
  have hslots (t : State) (l : List (Nat × GreenSlot)) (ht : Mem.wf t.mem = true) :
      Mem.wf (l.foldl (fun t g => t.writeVa t.greenAllot (bindingVa g.1) (bindingWord 2 g.2.well h)) t).mem = true :=
    wf_foldl (fun _ _ hu => wf_writeVa _ _ _ _ hu) l ht
  unfold State.withdraw
  dsimp only
  split
  · exact hm
  · split
    · exact hm
    · refine wf_tryFree _ _ ?_
      rw [mem_countEntries]
      repeat' split
      all_goals simp [hslots, hm]

@[simp] theorem wf_wipeLarder (s : State) (n : Nat) (hm : Mem.wf s.mem = true) : Mem.wf (s.wipeLarder n).mem = true := by
  refine wf_foldl (fun t q ht => by simp [ht]) _ (wf_foldl (fun t e ht => ?_) _ hm)
  exact wf_tryFree _ _ ((congrArg Mem.wf (mem_modEntry ..)).trans (wf_withdraw _ _ ht))

@[simp] theorem wf_wipeHbm (s : State) (n : Nat) (hm : Mem.wf s.mem = true) : Mem.wf (s.wipeHbm n).mem = true := by
  simp +contextual [State.wipeHbm, wf_foldl, hm]

@[simp] theorem wf_resetAllot (s : State) (n : Nat) (hm : Mem.wf s.mem = true) : Mem.wf (s.resetAllot n).mem = true := by
  unfold State.resetAllot
  extract_lets green s1 s2 s3 s4 s5 s6 s7 s8
  have h2 : Mem.wf s2.mem = true := wf_of_mem_eq (mem_endSessions _ _) hm
  have h3 : Mem.wf s3.mem = true := wf_foldl (fun _ _ ht => wf_loseGroup _ _ ht) _ h2
  have h4 : Mem.wf s4.mem = true := by
    simp only [s4]
    split
    · exact wf_abortGreen _ h3
    · exact wf_stripGreen _ _ h3
  have h5 : Mem.wf s5.mem = true := wf_foldl (fun _ _ ht => wf_wipeCore _ _ _ ht) _ h4
  have h6 : Mem.wf s6.mem = true := wf_of_mem_eq (mem_modAllot ..) (wf_wipeLarder _ _ h5)
  have h7 : s7.mem = s6.mem := by simp only [s7]
  have hwiped : Mem.wf (s7.wipeHbm n).mem = true := wf_wipeHbm _ _ (wf_of_mem_eq h7 h6)
  have h8 : s8.mem = (s7.wipeHbm n).mem := by simp only [s8, mem_foldl fun _ _ => mem_failQp .., mem_fillCarters]
  exact wf_foldl (fun _ _ ht => wf_settleCore _ _ ht) _ (wf_of_mem_eq h8 hwiped)

@[simp] theorem wf_applyReset (s : State) (sess n : Nat) (hm : Mem.wf s.mem = true) : Mem.wf (s.applyReset sess n).1.mem = true := by
  unfold State.applyReset
  dsimp only
  repeat' split
  all_goals simp [hm]

@[simp] theorem wf_putPage (s0 : State) (a va : Nat) (d : Option PageDesc) (hm : Mem.wf s0.mem = true) :
    Mem.wf (s0.putPage a va d).mem = true := by
  unfold State.putPage
  dsimp only
  repeat' split
  all_goals simp [hm]

@[simp] theorem wf_trimWell (s : State) (slot n : Nat) (hm : Mem.wf s.mem = true) : Mem.wf (s.trimWell slot n).mem = true := by
  simp +contextual [State.trimWell, wf_foldl, hm]

@[simp] theorem wf_freezeWell (s : State) (slot : Nat) (hm : Mem.wf s.mem = true) : Mem.wf (s.freezeWell slot).mem = true := by
  unfold State.freezeWell
  dsimp only
  rw [mem_modWell]
  split
  · split
    · exact wf_trimWell _ _ _ hm
    · exact wf_store _ _ _ (wf_trimWell _ _ _ hm)
  · exact wf_trimWell _ _ _ hm

@[simp] theorem wf_growWell (s : State) (slot n : Nat) (hm : Mem.wf s.mem = true) : Mem.wf (s.growWell slot n).mem = true := by
  simp +contextual [State.growWell, wf_foldl, hm]

@[simp] theorem wf_resizeWell (s : State) (slot : Nat) (hm : Mem.wf s.mem = true) : Mem.wf (s.resizeWell slot).mem = true := by
  unfold State.resizeWell
  split <;> simp [hm]

@[simp] theorem wf_doRemoval (s : State) (r : Removal) (hm : Mem.wf s.mem = true) : Mem.wf (s.doRemoval r).mem = true := by
  unfold State.doRemoval
  repeat' split
  all_goals simp [hm]

@[simp] theorem wf_tryRemoval (s : State) (i : Nat) (hm : Mem.wf s.mem = true) : Mem.wf (s.tryRemoval i).mem = true := by
  unfold State.tryRemoval
  split <;> simp [hm]

@[simp] theorem wf_removeRight (s : State) (a va len : Nat) (kind : RemovalKind) (hm : Mem.wf s.mem = true) :
    Mem.wf (s.removeRight a va len kind).mem = true := by
  simp [State.removeRight, hm]

@[simp] theorem wf_tuneGrant (s : State) (n old : Nat) (hm : Mem.wf s.mem = true) : Mem.wf (s.tuneGrant n old).mem = true := by
  unfold State.tuneGrant
  dsimp only
  split <;> simp [hm]

@[simp] theorem wf_applyAllotment (s : State) (sess n : Nat) (hm : Mem.wf s.mem = true) : Mem.wf (s.applyAllotment sess n).1.mem = true := by
  unfold State.applyAllotment
  extract_lets idx raw shared open' conf v now r s1 s2 s3 s4 s5 cores
  have h2 : s2.mem = s.mem := by simp [s2, s1]
  have h4 : s4.mem = s.mem := by simp [s4, s3, h2]
  have h5 : Mem.wf s5.mem = true := wf_of_mem_eq (mem_tuneConfidential ..) (wf_tuneGrant _ _ _ (wf_of_mem_eq h4 hm))
  have hcores : Mem.wf (cores.foldl (fun t c => t.settleCore c) s5).mem = true := wf_foldl (fun _ _ ht => wf_settleCore _ _ ht) _ h5
  split
  · exact hm
  · split
    · exact wf_of_mem_eq (mem_refuseApply ..) hm
    · exact wf_of_mem_eq (mem_tuneWatchdog ..) hcores

theorem wf_applyDefinition (s : State) (sess n sub : Nat) (hm : Mem.wf s.mem = true) :
    ∀ t, s.applyDefinition sess n sub = some t → Mem.wf t.1.mem = true := by
  intro t ht
  unfold State.applyDefinition applied at ht
  split at ht
  · obtain rfl := Option.some.inj ht
    simp [hm]
  · split at ht
    · obtain rfl := Option.some.inj ht
      simp [hm]
    · cases ht

@[simp] theorem wf_housesLeft (s : State) (houses : List Nat) (hm : Mem.wf s.mem = true) : Mem.wf (s.housesLeft houses).mem = true := by
  have hlose (t : State) (g : Nat) (ht : Mem.wf t.mem = true) : Mem.wf (if t.hasMember g houses then t.loseGroup g else t).mem = true := by
    split
    · exact wf_loseGroup _ _ ht
    · exact ht
  unfold State.housesLeft
  extract_lets s1
  have h1 : Mem.wf s1.mem = true := wf_foldl hlose (List.range 12) hm
  generalize s1 = t at h1
  exact h1

@[simp] theorem wf_refabric (s : State) (linksChanged : Bool) (hm : Mem.wf s.mem = true) : Mem.wf (s.refabric linksChanged).mem = true := by
  simp +contextual [State.refabric, wf_foldl, hm]

@[simp] theorem wf_downLink (s : State) (l : Nat) (signal : Bool) (hm : Mem.wf s.mem = true) : Mem.wf (s.downLink l signal).mem = true := by
  simp [State.downLink, hm]

@[simp] theorem wf_retrain (s : State) (sess l : Nat) (hm : Mem.wf s.mem = true) : Mem.wf (s.retrain sess l).1.mem = true := by
  unfold State.retrain
  repeat' split
  all_goals simp [hm]

@[simp] theorem wf_applyFabric (s : State) (sess : Nat) (hm : Mem.wf s.mem = true) : Mem.wf (s.applyFabric sess).1.mem = true := by
  unfold State.applyFabric
  dsimp only
  repeat' split
  all_goals simp [hm]

@[simp] theorem wf_unmapGreen (s : State) (hm : Mem.wf s.mem = true) : Mem.wf (s.unmapGreen).mem = true := by
  unfold State.unmapGreen
  dsimp only
  split
  · exact hm
  · refine wf_foldl (fun t va ht => wf_putPage _ _ _ _ ?_) _ hm
    exact wf_foldl (fun _ _ hu => wf_faultRange _ _ _ _ _ hu) _ ht

@[simp] theorem wf_mapRegion (s : State) (a base : Nat) (w : Bool) (i fuel : Nat) (hm : Mem.wf s.mem = true) :
    Mem.wf (s.mapRegion a base w i fuel).mem = true := by
  induction fuel generalizing s i with
  | zero => exact hm
  | succ fuel ih =>
    unfold State.mapRegion
    dsimp only
    simp [ih, hm]

@[simp] theorem wf_mapGreen (s : State) (hm : Mem.wf s.mem = true) : Mem.wf (s.mapGreen).mem = true := by
  unfold State.mapGreen
  dsimp only
  split
  · exact hm
  · iterate 5 refine wf_mapRegion _ _ _ _ _ _ ?_
    exact hm

@[simp] theorem wf_applyGreen (s : State) (sess : Nat) (hm : Mem.wf s.mem = true) : Mem.wf (s.applyGreen sess).1.mem = true := by
  unfold State.applyGreen
  dsimp only
  repeat' split
  all_goals simp [hm]

@[simp] theorem wf_sizeWell (s : State) (slot : Nat) (hm : Mem.wf s.mem = true) : Mem.wf (s.sizeWell slot).mem = true := by
  unfold State.sizeWell
  dsimp only
  repeat' split
  all_goals simp [hm]

@[simp] theorem wf_beginSeal (s : State) (sess slot : Nat) (st : Status) (hm : Mem.wf s.mem = true) :
    Mem.wf (s.beginSeal sess slot st).mem = true := by
  simp [State.beginSeal, hm]

@[simp] theorem wf_larderSwitch (s : State) (slot : Nat) (hm : Mem.wf s.mem = true) : Mem.wf (s.larderSwitch slot).mem = true := by
  refine wf_foldl (fun t p ht => ?_) s.larder hm
  repeat' split
  all_goals simp [ht]

@[simp] theorem wf_switchWell (s : State) (slot : Nat) (hm : Mem.wf s.mem = true) : Mem.wf (s.switchWell slot).mem = true := by
  unfold State.switchWell
  dsimp only
  rw [mem_foldl fun _ _ => mem_logWell ..]
  refine wf_wakeFills _ (wf_larderSwitch _ _ ?_)
  split <;> simp [hm]

@[simp] theorem wf_beginClear (s : State) (sess slot : Nat) (st : Status) (hm : Mem.wf s.mem = true) :
    Mem.wf (s.beginClear sess slot st).mem = true := by
  simp [State.beginClear, hm]

@[simp] theorem wf_wellDo (s : State) (sess slot action : Nat) (st : Status) (hm : Mem.wf s.mem = true) :
    Mem.wf (s.wellDo sess slot action st).1.mem = true := by
  unfold State.wellDo
  split <;> simp [hm]

@[simp] theorem wf_wellApply (s : State) (sess slot : Nat) (hm : Mem.wf s.mem = true) : Mem.wf (s.wellApply sess slot).1.mem = true := by
  unfold State.wellApply
  dsimp only
  repeat' split
  all_goals simp [hm]

@[simp] theorem wf_askFill (s : State) (sess owner adapt : Nat) (src : FillSrc) (pin : Bool) (hm : Mem.wf s.mem = true) :
    Mem.wf (s.askFill sess owner adapt src pin).mem = true := by
  unfold State.askFill
  dsimp only
  split <;> simp [hm]

@[simp] theorem wf_larderDo (s : State) (sess owner adapt action src : Nat) (hm : Mem.wf s.mem = true) :
    Mem.wf (s.larderDo sess owner adapt action src).1.mem = true := by
  unfold State.larderDo
  repeat' split
  all_goals simp [hm]

@[simp] theorem wf_larderApply (s : State) (sess : Nat) (hm : Mem.wf s.mem = true) : Mem.wf (s.larderApply sess).1.mem = true := by
  unfold State.larderApply
  dsimp only
  repeat' split
  all_goals simp [hm]

theorem wf_applySingle (s : State) (sess idx sub : Nat) (hm : Mem.wf s.mem = true) :
    ∀ t, s.applySingle sess idx sub = some t → Mem.wf t.1.mem = true := by
  intro t ht
  unfold State.applySingle applied at ht
  split at ht
  case h_6 => exact Option.some.inj ht ▸ wf_applyFabric s sess hm
  case h_8 => exact Option.some.inj ht ▸ wf_applyGreen s sess hm
  case h_9 => exact Option.some.inj ht ▸ wf_wellApply s sess 0 hm
  case h_10 => exact Option.some.inj ht ▸ wf_wellApply s sess 1 hm
  case h_11 => exact Option.some.inj ht ▸ wf_larderApply s sess hm
  case h_13 => cases ht
  all_goals
    refine wf_of_mem_eq ?_ hm
    obtain rfl := Option.some.inj ht
    simp

theorem wf_applyAt (s : State) (sess idx sub : Nat) (hm : Mem.wf s.mem = true) :
    ∀ t, s.applyAt sess idx sub = some t → Mem.wf t.1.mem = true := by
  have hkept {r : State × Status} {t : State × Option Status} {c : Prop} [Decidable c] (hr : Mem.wf r.1.mem = true)
      (ht : (if c then applied r else none) = some t) : Mem.wf t.1.mem = true := by
    split at ht
    · exact Option.some.inj ht ▸ hr
    · cases ht
  intro t ht
  unfold State.applyAt at ht
  split at ht
  · exact wf_applyDefinition s sess _ sub hm t ht
  · split at ht
    · exact hkept (wf_of_mem_eq (mem_snapshot ..) hm) ht
    · split at ht
      · exact hkept (wf_applyGroup _ _ _ hm) ht
      · split at ht
        · exact hkept (wf_retrain _ _ _ hm) ht
        · split at ht
          · exact hkept (wf_of_mem_eq (mem_applyPort ..) hm) ht
          · split at ht
            · exact hkept (wf_of_mem_eq (mem_applySetpoint ..) hm) ht
            · exact wf_applySingle s sess idx sub hm t ht

@[simp] theorem wf_writeEnable (s : State) (sess l v : Nat) (hm : Mem.wf s.mem = true) : Mem.wf (s.writeEnable sess l v).1.mem = true := by
  unfold State.writeEnable
  dsimp only
  repeat' split
  all_goals simp [hm]

@[simp] theorem wf_shrinkLarder (s : State) (n : Nat) (fits : State → Bool) (fuel : Nat) (hm : Mem.wf s.mem = true) :
    Mem.wf (s.shrinkLarder n fits fuel).mem = true := by
  induction fuel generalizing s with
  | zero => exact hm
  | succ fuel ih =>
    unfold State.shrinkLarder
    repeat' split
    all_goals simp [ih, hm]

@[simp] theorem wf_writeQuota (s : State) (sess idx n v : Nat) (hm : Mem.wf s.mem = true) :
    Mem.wf (s.writeQuota sess idx n v).1.mem = true := by
  unfold State.writeQuota
  repeat' split
  all_goals simp [hm]

@[simp] theorem wf_writeValue (s : State) (sess idx sub v : Nat) (hm : Mem.wf s.mem = true) :
    Mem.wf (s.writeValue sess idx sub v).1.mem = true := by
  have happly (r) (hr : s.applyAt sess idx sub = some r) : r.1.MemForm := wf_applyAt s sess idx sub hm r hr
  have henable (l : Nat) : (s.writeEnable sess l v).1.MemForm := wf_writeEnable s sess l v hm
  have hquota (idx n : Nat) : (s.writeQuota sess idx n v).1.MemForm := wf_writeQuota s sess idx n v hm
  have hkey : (s.writeOperatorKey sess sub v).1.MemForm := State.MemForm.of_eq hm (mem_writeOperatorKey ..)
  have htoken (t) : (s.stripToken sess t).1.MemForm := State.MemForm.of_eq hm (mem_stripToken ..)
  have hnonce : s.dropNonce.MemForm := State.MemForm.of_eq hm (mem_dropNonce s)
  have hbuffer : ({ s with fwBuffer := v } : State).MemForm := hm
  have hobject : (s.writeObject sess idx sub v).1.MemForm := State.MemForm.of_eq hm (mem_writeObject ..)
  suffices h : (s.writeValue sess idx sub v).1.MemForm from h
  unfold State.writeValue
  extract_lets done'
  generalize s.applyAt sess idx sub = o at happly ⊢
  cases o with
  | some r =>
    dsimp only
    split
    · exact happly r rfl
    · exact hm
  | none =>
    dsimp only [done']
    split
    · exact (henable _).pair _
    · split
      · exact hkey.pair _
      · split
        · exact (htoken _).pair _
        · exact hnonce
      · exact (hquota _ _).pair _
      · exact (hquota _ _).pair _
      · exact hbuffer.pair _
      · exact hobject.pair _

@[simp] theorem wf_writeWhole (s : State) (sess : Nat) (d : ObjDef) (o : LmpOp) (v : Nat) (hm : Mem.wf s.mem = true) :
    Mem.wf (s.writeWhole sess d o v).1.mem = true := by
  unfold State.writeWhole
  dsimp only
  repeat' split
  all_goals simp [hm]

@[simp] theorem wf_writeSegment (s : State) (sess : Nat) (x : Session) (d : ObjDef) (o : LmpOp) (hm : Mem.wf s.mem = true) :
    Mem.wf (s.writeSegment sess x d o).1.mem = true := by
  unfold State.writeSegment
  dsimp only
  repeat' split
  all_goals simp [hm]

@[simp] theorem wf_performWrite (s : State) (sess : Nat) (x : Session) (o : LmpOp) (hm : Mem.wf s.mem = true) :
    Mem.wf (s.performWrite sess x o).1.mem = true := by
  unfold State.performWrite
  repeat' split
  all_goals simp [hm]

@[simp] theorem wf_performOp (s : State) (sess : Nat) (o : LmpOp) (hm : Mem.wf s.mem = true) : Mem.wf (s.performOp sess o).1.mem = true := by
  unfold State.performOp
  repeat' split
  all_goals simp [hm]

@[simp] theorem wf_runSession (s : State) (sess fuel : Nat) (hm : Mem.wf s.mem = true) : Mem.wf (s.runSession sess fuel).mem = true := by
  induction fuel generalizing s with
  | zero => exact hm
  | succ fuel ih =>
    unfold State.runSession
    dsimp only
    repeat' split
    all_goals simp [ih, hm]

@[simp] theorem wf_runTurns (s : State) (fuel : Nat) (hm : Mem.wf s.mem = true) : Mem.wf (s.runTurns fuel).mem = true := by
  induction fuel generalizing s with
  | zero => exact hm
  | succ fuel ih =>
    unfold State.runTurns
    repeat' split
    all_goals simp [ih, hm]

@[simp] theorem wf_runSessions (s : State) (hm : Mem.wf s.mem = true) : Mem.wf (s.runSessions).mem = true := by
  simp [State.runSessions, hm]

@[simp] theorem wf_pinFor (s : State) (a adapt : Nat) (hm : Mem.wf s.mem = true) : Mem.wf (s.pinFor a adapt).1.mem = true := by
  unfold State.pinFor
  dsimp only
  repeat' split
  all_goals simp [hm]

@[simp] theorem wf_pinHead (s : State) (a n : Nat) (hm : Mem.wf s.mem = true) : Mem.wf (s.pinHead a n).mem = true := by
  unfold State.pinHead
  split <;> simp [hm]

@[simp] theorem wf_dropStale (s : State) (a n : Nat) (hm : Mem.wf s.mem = true) : Mem.wf (s.dropStale a n).mem = true := by
  simp +contextual [State.dropStale, wf_foldl, hm]

@[simp] theorem wf_pinAhead (s : State) (a n : Nat) (d : StreamDesc) (i : Nat) (hm : Mem.wf s.mem = true) :
    Mem.wf (s.pinAhead a n d i).mem = true := by
  unfold State.pinAhead
  dsimp only
  repeat' split
  all_goals simp [hm]

@[simp] theorem wf_lookStream (s : State) (a n : Nat) (hm : Mem.wf s.mem = true) : Mem.wf (s.lookStream a n).mem = true := by
  have hread : Mem.wf ((s.dropStale a n).pinHead a n).mem = true := wf_pinHead _ _ _ (wf_dropStale _ _ _ hm)
  unfold State.lookStream
  dsimp only
  split
  · exact hread
  · exact wf_foldl (fun _ _ ht => wf_pinAhead _ _ _ _ _ ht) _ hread

@[simp] theorem wf_lookAll (s : State) (hm : Mem.wf s.mem = true) : Mem.wf (s.lookAll).mem = true := by
  refine wf_foldl (fun t e ht => ?_) s.allots hm
  dsimp only
  split
  · exact wf_lookStream _ _ _ ht
  · exact ht

@[simp] theorem wf_settle (s : State) (hm : Mem.wf s.mem = true) : Mem.wf (s.settle).mem = true := wf_runSessions _ (wf_lookAll _ (wf_runSessions _ hm))

@[simp] theorem wf_recordComes (s : State) (n : Nat) (j : Job) (h : Nat) (e : LEntry) (remote : List Byte) (hm : Mem.wf s.mem = true) :
    Mem.wf (s.recordComes n j h e remote).mem = true := by
  unfold State.recordComes
  dsimp only
  split <;> simp [hm]

@[simp] theorem wf_headerComes (s : State) (n : Nat) (j : Job) (h : Nat) (e : LEntry) (hm : Mem.wf s.mem = true) :
    Mem.wf (s.headerComes n j h e).mem = true := by
  unfold State.headerComes
  dsimp only
  repeat' split
  all_goals simp [hm]

@[simp] theorem wf_landBlock (s : State) (n : Nat) (j : Job) (h : Nat) (e : LEntry) (bs : List Byte) (hm : Mem.wf s.mem = true) :
    Mem.wf (s.landBlock n j h e bs).mem = true := by
  simp [State.landBlock, hm]

@[simp] theorem wf_blockComes (s : State) (n : Nat) (j : Job) (h : Nat) (e : LEntry) (remote : List Byte) (hm : Mem.wf s.mem = true) :
    Mem.wf (s.blockComes n j h e remote).mem = true := by
  unfold State.blockComes
  dsimp only
  split <;> simp [hm]

@[simp] theorem wf_blockCopied (s : State) (n : Nat) (j : Job) (h : Nat) (e : LEntry) (hm : Mem.wf s.mem = true) :
    Mem.wf (s.blockCopied n j h e).mem = true := by
  unfold State.blockCopied
  dsimp only
  repeat' split
  all_goals simp [hm]

@[simp] theorem wf_workDone (s : State) (n : Nat) (j : Job) (h : Nat) (w : LarderWork) (remote : List Byte) (hm : Mem.wf s.mem = true) :
    Mem.wf (s.workDone n j h w remote).mem = true := by
  unfold State.workDone
  repeat' split
  all_goals simp [hm]

@[simp] theorem wf_storeBlock (s : State) (a : Nat) (r : JobRec) (k : Nat) (hm : Mem.wf s.mem = true) :
    Mem.wf (s.storeBlock a r k).1.mem = true := by
  unfold State.storeBlock
  dsimp only
  split <;> simp [hm]

@[simp] theorem wf_fetchBlock (s : State) (a : Nat) (r : JobRec) (k : Nat) (remote : List Byte) (hm : Mem.wf s.mem = true) :
    Mem.wf (s.fetchBlock a r k remote).1.mem = true := by
  unfold State.fetchBlock
  dsimp only
  repeat' split
  all_goals simp [hm]

@[simp] theorem wf_moveBlock (s : State) (j : Job) (remote : List Byte) (hm : Mem.wf s.mem = true) :
    Mem.wf (s.moveBlock j remote).1.mem = true := by
  unfold State.moveBlock
  repeat' split
  all_goals simp [hm]

@[simp] theorem wf_refuseSubmit (s : State) (a : Nat) (r : GreenReq) (st : Status) (hm : Mem.wf s.mem = true) :
    Mem.wf (s.refuseSubmit a r st).mem = true := by
  unfold State.refuseSubmit
  dsimp only
  split <;> simp [hm]

@[simp] theorem wf_copyRows' (s : State) (from' src fromPitch to' dst toPitch len : Nat) (rows : List Nat) (hm : Mem.wf s.mem = true) :
    Mem.wf (s.copyRows' from' src fromPitch to' dst toPitch len rows).mem = true := by
  simp +contextual [State.copyRows', wf_foldl, hm]

@[simp] theorem wf_admitRequest (s : State) (a slot : Nat) (r : GreenReq) (hm : Mem.wf s.mem = true) :
    Mem.wf (s.admitRequest a slot r).mem = true := by
  unfold State.admitRequest
  dsimp only
  rw [mem_countBound, mem_modStream]
  refine wf_writeVa _ _ _ _ (wf_writeVa _ _ _ _ (wf_copyRows' _ _ _ _ _ _ _ _ _ (wf_writeVa _ _ _ _ ?_)))
  split <;> simp [hm]

@[simp] theorem wf_submit (s : State) (a : Nat) (hm : Mem.wf s.mem = true) : Mem.wf (s.submit a).mem = true := by
  unfold State.submit
  dsimp only
  repeat' split
  all_goals simp [hm]

@[simp] theorem wf_freeSlot (s : State) (slot : Nat) (g : GreenSlot) (hm : Mem.wf s.mem = true) : Mem.wf (s.freeSlot slot g).mem = true := by
  unfold State.freeSlot
  repeat' split
  all_goals simp [hm]

@[simp] theorem wf_retire (s : State) (slot : Nat) (g : GreenSlot) (st : Status) (rows : Nat) (hm : Mem.wf s.mem = true) :
    Mem.wf (s.retire slot g st rows).mem = true := by
  unfold State.retire
  extract_lets n len chk s1 s2
  have h1 : Mem.wf s1.mem = true := by
    simp only [s1]
    split
    · exact wf_copyRows' _ _ _ _ _ _ _ _ _ hm
    · exact hm
  exact wf_freeSlot _ _ _ (wf_zeroSlot _ _ (wf_of_mem_eq (mem_post ..) h1))

@[simp] theorem wf_retireEntry (s : State) (w : Nat) (hm : Mem.wf s.mem = true) : Mem.wf (s.retireEntry w).mem = true := by
  unfold State.retireEntry
  dsimp only
  repeat' split
  all_goals simp [hm]

@[simp] theorem wf_drainRetires (s : State) (fuel : Nat) (hm : Mem.wf s.mem = true) : Mem.wf (s.drainRetires fuel).mem = true := by
  induction fuel generalizing s with
  | zero => exact hm
  | succ fuel ih =>
    unfold State.drainRetires
    dsimp only
    split
    · exact hm
    · exact ih _ (wf_writeVa _ _ _ _ (wf_retireEntry _ _ hm))

@[simp] theorem wf_stopSkims (s : State) (a c : Nat) (st : Status) (fuel : Nat) (hm : Mem.wf s.mem = true) :
    Mem.wf (s.stopSkims a c st fuel).mem = true := by
  induction fuel generalizing s with
  | zero => exact hm
  | succ fuel ih =>
    unfold State.stopSkims
    repeat' split
    all_goals simp [ih, hm]

@[simp] theorem wf_stopTrowels (s : State) (a c : Nat) (st : Status) (fuel : Nat) (hm : Mem.wf s.mem = true) :
    Mem.wf (s.stopTrowels a c st fuel).mem = true := by
  induction fuel generalizing s with
  | zero => exact hm
  | succ fuel ih =>
    unfold State.stopTrowels
    repeat' split
    all_goals simp [ih, hm]

@[simp] theorem wf_watchdogCore (s : State) (a c : Nat) (hm : Mem.wf s.mem = true) : Mem.wf (s.watchdogCore a c).mem = true := by
  unfold State.watchdogCore
  dsimp only
  rw [mem_endMoots]
  refine wf_stopTrowels _ _ _ _ _ (wf_stopSkims _ _ _ _ _ ?_)
  exact (congrArg Mem.wf (mem_modCtx ..)).trans (wf_discardPasses _ _ _ _ _ hm)

@[simp] theorem wf_pageRequest (s : State) (sess n va : Nat) (req : PageRequest) (hm : Mem.wf s.mem = true) :
    Mem.wf (s.pageRequest sess n va req).1.mem = true := by
  unfold State.pageRequest
  dsimp only
  repeat' split
  all_goals simp [hm]

@[simp] theorem wf_writeHeld (s : State) (a c page : Nat) (hm : Mem.wf s.mem = true) : Mem.wf (s.writeHeld a c page).mem = true := by
  simp +contextual [State.writeHeld, wf_foldl, hm]

@[simp] theorem wf_fillLands (s : State) (h : Nat) (e : LEntry) (hm : Mem.wf s.mem = true) : Mem.wf (s.fillLands h e).mem = true := by
  unfold State.fillLands
  dsimp only
  refine wf_wakeFills _ (wf_tryFree _ _ ?_)
  split
  · refine wf_withdraw _ _ ?_
    repeat' split
    all_goals simp [hm]
  · repeat' split
    all_goals simp [hm]

@[simp] theorem wf_fillFails (s : State) (h : Nat) (e : LEntry) (st : Status) (hm : Mem.wf s.mem = true) :
    Mem.wf (s.fillFails h e st).mem = true := by
  simp [State.fillFails, hm]

@[simp] theorem wf_endFill (s : State) (h : Nat) (hm : Mem.wf s.mem = true) : Mem.wf (s.endFill h).mem = true := by
  fun_cases State.endFill <;> simp [hm]

/-- One piece of an entry's work, which next goes on from (spec/19 R532). -/
def State.finishPiece (s : State) (h : Nat) (record image manifest : List Byte) (next : State → State) : State :=
  match s.larder.find h, s.jobs.find? (fun e => e.2.larder.map Prod.fst == some h) with
  | some e, some (n, j) =>
    (match e.ended, j.larder with
      | none, some (_, w) =>
        if s.jobRests j then s
        else
          let s1 := s.workDone n j h w (w.piece j.blocks record image manifest)
          if s1.jobs.find n = s.jobs.find n then s1 else next s1
      | _, _ => s)
  | _, _ => s

theorem brecOn_succ {α : Type} (F : (t : Nat) → Nat.below (motive := fun _ => α → α) t → α → α) (n : Nat) (a : α) :
    Nat.brecOn (motive := fun _ => α → α) (n + 1) F a =
      F (n + 1) ⟨Nat.brecOn (motive := fun _ => α → α) n F, (Nat.rec (motive := fun t => (α → α) ×' Nat.below (motive := fun _ => α → α) t)
        ⟨F 0 ⟨⟩, ⟨⟩⟩ (fun t ih => ⟨F (t + 1) ⟨ih.1, ih.2⟩, ⟨ih.1, ih.2⟩⟩) n).2⟩ a := rfl

theorem finishWork_succ (s : State) (h : Nat) (record image manifest : List Byte) (fuel : Nat) :
    s.finishWork h record image manifest (fuel + 1) =
      s.fillCarters.finishPiece h record image manifest (fun t => t.finishWork h record image manifest fuel) := by
  suffices key : ∀ f, f = @State.finishWork → f s h record image manifest (fuel + 1) =
      s.fillCarters.finishPiece h record image manifest (fun t => f t h record image manifest fuel) from key _ rfl
  intro f hf
  delta State.finishWork at hf
  rw [hf]
  beta_reduce
  obtain ⟨F, hF⟩ : ∃ F, F = State.finishWork._f h record image manifest := ⟨_, rfl⟩
  rw [← hF, brecOn_succ]
  generalize Nat.brecOn (motive := fun _ => State → State) fuel F = next 
  delta State.finishWork._f at hF
  rw [hF]
  beta_reduce
  generalize s.fillCarters = t
  rfl

theorem wf_finishPiece (s : State) (h : Nat) (record image manifest : List Byte) (next : State → State) (hm : Mem.wf s.mem = true)
    (hnext : ∀ t, Mem.wf t.mem = true → Mem.wf (next t).mem = true) : Mem.wf (s.finishPiece h record image manifest next).mem = true := by
  unfold State.finishPiece
  split
  · split
    · split
      · exact hm
      · refine (congrArg Mem.wf (mem_ite ..)).trans (wf_ite _ ?_ (hnext _ ?_)) <;> exact wf_workDone _ _ _ _ _ _ hm
    · exact hm
  · exact hm

@[simp] theorem wf_finishWork (s : State) (h : Nat) (record image manifest : List Byte) (fuel : Nat) (hm : Mem.wf s.mem = true) :
    Mem.wf (s.finishWork h record image manifest fuel).mem = true := by
  induction fuel generalizing s with
  | zero => exact hm
  | succ fuel ih =>
    rw [finishWork_succ]
    exact wf_finishPiece _ _ _ _ _ _ (wf_of_mem_eq (mem_fillCarters s) hm) ih


@[simp] theorem wf_killSlot (s : State) (slot : Nat) (g : GreenSlot) (st : Status) (hm : Mem.wf s.mem = true) :
    Mem.wf (s.killSlot slot g st).mem = true := by
  have hword : Mem.wf (((s.zeroSlot slot).post g.allot g.req.stream
      { cookie := g.req.cookie, rseq := g.req.rseq, status := st, kind := 0x3 }).mem) = true := by simp [hm]
  unfold State.killSlot
  dsimp only
  split
  · rw [mem_countBound]
    exact wf_writeVa _ _ _ _ hword
  · refine wf_releasePin _ _ ?_
    rw [mem_countBound]
    exact wf_writeVa _ _ _ _ hword

@[simp] theorem wf_recheck (s : State) (h : Nat) (hm : Mem.wf s.mem = true) : Mem.wf (s.recheck h).mem = true := by
  unfold State.recheck
  dsimp only
  repeat' split
  all_goals simp [hm]

@[simp] theorem wf_finishRecheck (s : State) (h : Nat) (hm : Mem.wf s.mem = true) : Mem.wf (s.finishRecheck h).mem = true := by
  fun_cases State.finishRecheck <;> simp [hm]

@[simp] theorem wf_resume (s : State) (hm : Mem.wf s.mem = true) : Mem.wf (s.resume).mem = true := by
  refine wf_lookAll _ (wf_wakeFills _ (wf_foldl (fun _ _ ht => wf_tryFree _ _ ht) _ ?_))
  exact wf_foldl (fun _ _ ht => wf_settleCore _ _ ht) _ hm

@[simp] theorem wf_takeMessage (s : State) (sess : Nat) (x : Session) (bytes : List Byte) (hm : Mem.wf s.mem = true) :
    Mem.wf (s.takeMessage sess x bytes).mem = true := by
  fun_cases State.takeMessage <;> simp [hm]

@[simp] theorem wf_endHold (s : State) (w : Nat) (hm : Mem.wf s.mem = true) : Mem.wf (s.endHold w).mem = true := by
  unfold State.endHold
  dsimp only
  rw [mem_foldl fun _ _ => mem_settleInbound .., mem_foldl fun _ _ => mem_mootRun ..]
  exact wf_foldl (fun _ _ ht => wf_watchdogCore _ _ _ ht) _ (by simp [hm])

@[simp] theorem wf_sampleWard (s : State) (w : Nat) (t : Int) (hm : Mem.wf s.mem = true) : Mem.wf (s.sampleWard w t).mem = true := by
  fun_cases State.sampleWard <;> simp +zetaDelta [hm]

@[simp] theorem wf_wellCleared (s : State) (slot : Nat) (hm : Mem.wf s.mem = true) : Mem.wf (s.wellCleared slot).mem = true := by
  simp [State.wellCleared, hm]

end Sys2Proof.Machine
end

section
/-! Memory: every command keeps its canonical form. -/

namespace Sys2Proof.Machine

/-- A next state keeps the canonical form of memory. -/
def ResForm (r : Res) : Prop := ∀ t, r = .next t → Mem.wf t.mem = true

@[simp] theorem resForm_next (t : State) : ResForm (.next t) ↔ Mem.wf t.mem = true :=
  ⟨fun h => h t rfl, fun h u hu => by cases hu; exact h⟩

section
variable {s : State} (hm : Mem.wf s.mem = true)
include hm

theorem ganger_form (c : Nat) (i : Instr) {f : Nat → Ctx → State} (hf : ∀ a x, Mem.wf (f a x).mem = true) : ResForm (s.ganger c i f) := by
  fun_cases State.ganger s c i f <;> simp [hf, hm]

theorem arrive_form (l : Nat) (h : FlitHdr) (kind ctx : Nat) (body : FlitBody) {here : State → State}
    (hhere : ∀ t, Mem.wf t.mem = true → Mem.wf (here t).mem = true) : ResForm (s.arrive l h kind ctx body here) := by
  unfold State.arrive
  split
  · simp [hm]
  · next t ht =>
    have htake : Mem.wf t.mem = true := wf_of_mem_eq (mem_linkTake s l h kind t ht) hm
    split
    · simp [htake]
    · rw [resForm_next, mem_drainFlits]
      exact hhere _ (by split <;> simp [htake])

theorem onSession_form (sess : Nat) {r : Res} (hr : ResForm r) : ResForm (s.onSession sess r) := by
  unfold State.onSession
  split
  · simp [hm]
  · exact hr

theorem rowOf_form (sess idx sub : Nat) {r : Res} (hr : ResForm r) : ResForm (s.rowOf sess idx sub r) := by
  unfold State.rowOf
  repeat' split
  · exact onSession_form hm sess hr
  · simp [hm]
  · exact onSession_form hm sess (by simp [hm])
  · simp [hm]

theorem lychOn_form (sess : Nat) {f : Session → State} (hf : ∀ x, Mem.wf (f x).mem = true) : ResForm (s.lychOn sess f) := by
  unfold State.lychOn
  repeat' split
  all_goals simp [hf, hm]

theorem issueLath_form (c : Nat) (i : Instr) (w : W128) : ResForm (s.issueLath c i w) :=
  ganger_form hm _ _ (fun a x => by simp [hm])

theorem issueSkim_form (c : Nat) (i : Instr) (w : W128) : ResForm (s.issueSkim c i w) :=
  ganger_form hm _ _ (fun a x => by simp [hm])

theorem mootFlit_form (hdr : FlitHdr) {f : State → State} (hf : ∀ t, Mem.wf t.mem = true → Mem.wf (f t).mem = true) :
    Mem.wf (s.mootFlit hdr f).mem = true := by
  unfold State.mootFlit
  dsimp only
  repeat' split
  all_goals simp [hf, hm]

omit hm in
theorem askedAlone_form {r : State × Option Status} (hr : Mem.wf r.1.mem = true) (sess idx sub : Nat) :
    ResForm (State.askedAlone r sess idx sub) := by
  unfold State.askedAlone
  split <;> simp [hr]

theorem larderRow_form (sess k : Nat) : ResForm (s.larderRow sess k) := by
  apply rowOf_form hm
  repeat' split
  · simp [hm]
  · exact askedAlone_form (wf_larderApply s sess hm) _ _ _
  · simp [hm]

theorem wellRow_form (sess slot k : Nat) : ResForm (s.wellRow sess slot k) := by
  apply rowOf_form hm
  repeat' split
  · simp [hm]
  · exact askedAlone_form (wf_wellApply s sess slot hm) _ _ _
  · simp [hm]

theorem quotaRow_form (sess idx n v : Nat) : ResForm (s.quotaRow sess idx n v) := by
  apply rowOf_form hm
  split <;> simp [hm]

theorem fwApplied_form (sess k : Nat) : ResForm (s.fwApplied sess k) := by
  unfold State.fwApplied
  split
  · apply onSession_form hm
    split <;> simp [State.wrote, hm]
  · simp [hm]

end

theorem resForm_ite {c : Prop} [Decidable c] {a b : Res} (ha : ResForm a) (hb : ResForm b) : ResForm (if c then a else b) := by
  split
  · exact ha
  · exact hb

/-- The last branch of a tag map store. -/
theorem tagMapStored_form (s : State) (a core : Nat) (spans : List (Nat × Nat)) (va : Nat) (bs : List Byte) (x : Ctx) (pc : Nat)
    (hm : Mem.wf s.mem = true) :
    ResForm (.next (((spans.foldl (fun t r => t.writeVa a r.1 (List.replicate r.2 0)) s).writeVa a va bs).moveOn a core x pc)) := by
  rw [resForm_next, mem_moveOn]
  exact wf_writeVa _ _ _ _ (wf_foldl (fun t r ht => wf_writeVa _ _ _ _ ht) _ hm)

/-- What a restore does to the context and its ring of switch records. -/
theorem restored_form (s : State) (n c : Nat) (b b' : Bool) (y z : Ctx) (va : Nat) (bs : List Byte) (p : Nat) (hm : Mem.wf s.mem = true) :
    ResForm (.next ((if b then (s.setCtx n c y).writeFaultRecord n c 0 .saveArea .poison 0 p
      else if b' then (s.writeVa n va bs).setCtx n c z else s).tuneWatchdog n)) := by
  rw [resForm_next]
  repeat' split
  all_goals simp [hm]

section
variable {s : State} (hm : Mem.wf s.mem = true)
include hm

theorem issueTrowel_form (c : Nat) (i : Instr) (w : W128) : ResForm (s.issueTrowel c i w) := by
  refine ganger_form hm _ _ fun a x => ?_
  dsimp only
  repeat' split
  all_goals simp [hm]

theorem issueMoot_form (c : Nat) (i : Instr) (w : W128) : ResForm (s.issueMoot c i w) := by
  refine ganger_form hm _ _ fun a x => ?_
  split <;> simp [hm]

theorem mootClose_form (l : Nat) (hdr : FlitHdr) (ctx : MootCtx) (v : W32) :
    ResForm (execPartialCloseArrival l hdr ctx v s) ∧ ResForm (execShardArrival l hdr ctx v s) := by
  have hclose : ∀ t : State, Mem.wf t.mem = true → Mem.wf (t.mootFlit hdr fun u => u.mootClose (hdr.vc - 4) ctx v).mem = true :=
    fun t ht => mootFlit_form ht hdr fun u hu => by simp [hu]
  constructor
  · exact arrive_form hm _ _ _ _ _ fun t ht => by split <;> simp [ht, hclose]
  · exact arrive_form hm _ _ _ _ _ fun t ht => by split <;> simp [ht, hclose]

theorem execFailFlitArrival_form (l : Nat) (hdr : FlitHdr) (ctx : MootCtx) : ResForm (execFailFlitArrival l hdr ctx s) := by
  refine arrive_form hm _ _ _ _ _ fun t ht => mootFlit_form ht hdr fun u hu => ?_
  dsimp only
  split <;> simp [hu]

theorem execMootFlitOpen_form (l : Nat) (hdr : FlitHdr) (ctx : MootCtx) (body : MootOpen) : ResForm (execMootFlitOpen l hdr ctx body s) := by
  refine arrive_form hm _ _ _ _ _ fun t ht => mootFlit_form ht hdr fun u hu => ?_
  extract_lets g bad m
  clear_value bad m
  cases bad <;> simp [hu]

theorem execMootFlitData_form (l : Nat) (hdr : FlitHdr) (ctx : MootCtx) (offset : Nat) (data : List Byte) :
    ResForm (execMootFlitData l hdr ctx offset data s) := by
  refine arrive_form hm _ _ _ _ _ fun t ht => mootFlit_form ht hdr fun u hu => ?_
  dsimp only
  repeat' split
  all_goals simp [hu]

theorem execHelloReceive_form (l : Nat) (hdr : FlitHdr) (body : Hello) : ResForm (execHelloReceive l hdr body s) := by
  refine arrive_form hm _ _ _ _ _ fun t ht => ?_
  extract_lets t1 t2
  have h2 : Mem.wf t2.mem = true := wf_of_mem_eq (by simp [t2, t1]) ht
  clear_value t2
  repeat' split
  · exact wf_refabric _ _ (by simp [h2])
  · exact wf_refabric _ _ (by simp [h2])
  · simp [h2]

theorem execTopologyReceive_form (l : Nat) (hdr : FlitHdr) (entry : TopoEntry) : ResForm (execTopologyReceive l hdr entry s) := by
  refine arrive_form hm _ _ _ _ _ fun u hu => ?_
  extract_lets t held newer t1 t2
  have ht : Mem.wf t.mem = true := by
    dsimp only [t]
    split <;> simp [hu]
  have h1 : Mem.wf t1.mem = true := wf_of_mem_eq (by simp [t1]) ht
  have h2 : Mem.wf t2.mem = true := wf_of_mem_eq (by simp [t2]) ht
  clear_value newer held t1 t2 t
  repeat' split
  · exact ht
  · exact wf_refabric _ _ h1
  · exact ht
  · exact wf_refabric _ _ (by simp [ht])
  · exact wf_refabric _ _ (by simp [h2])

theorem execOpenFlit_form (l : Nat) (hdr : FlitHdr) (xtag : Nat) (gen : Bool) (total : Nat) (markAt : Option (Nat × Nat)) :
    ResForm (execOpenFlit l hdr xtag gen total markAt s) := by
  refine arrive_form hm _ _ _ _ _ fun t ht => ?_
  dsimp only
  split
  · exact ht
  · rw [mem_settleInbound]
    split <;> simp [ht]

theorem execDataFlit_form (l : Nat) (hdr : FlitHdr) (xtag : Nat) (gen : Bool) (offset : Nat) (data : List Byte) :
    ResForm (execDataFlit l hdr xtag gen offset data s) := by
  refine arrive_form hm _ _ _ _ _ fun t ht => ?_
  split
  · exact ht
  · next x hx =>
    extract_lets seen keep
    have hkeep : ∀ u st, Mem.wf u.mem = true → Mem.wf (keep u st).mem = true := fun u st hu => by simp [keep, hu]
    clear_value keep
    split
    · exact hkeep _ _ (by simp [ht])
    · split
      · exact hkeep _ _ (by simp [ht])
      · exact hkeep _ _ ht

theorem execDoneFlit_form (l : Nat) (hdr : FlitHdr) (xtag : Nat) (gen : Bool) (status : Status) :
    ResForm (execDoneFlit l hdr xtag gen status s) := by
  refine arrive_form hm _ _ _ _ _ fun t ht => ?_
  repeat' split
  all_goals simp [ht]

theorem execFlitReserved_form (l : Nat) (hdr : FlitHdr) : ResForm (execFlitReserved l hdr s) := by
  unfold execFlitReserved
  split
  · simp [hm]
  · next t ht =>
    have htake : Mem.wf t.mem = true := wf_of_mem_eq (mem_linkTake s l hdr 7 t ht) hm
    simp [htake]

theorem execTagMapStoreApply_form (a core : Nat) : ResForm (execTagMapStoreApply a core s) := by
  unfold execTagMapStoreApply
  repeat' split
  · simp [hm]
  · simp [hm]
  · refine resForm_ite ((resForm_next s).mpr hm) ?_
    exact tagMapStored_form _ _ _ _ _ _ _ _ hm

theorem execSwitchRestore_form (core : Nat) : ResForm (execSwitchRestore core s) := by
  unfold execSwitchRestore
  split
  case h_2 => simp [hm]
  split
  case h_1 => simp [hm]
  refine resForm_ite ((resForm_next s).mpr hm) ?_
  have hquiet : ∀ (c : Prop) [Decidable c] (p : Nat → Bool), Mem.wf (if c then s else s.stopTrace p).mem = true := fun c _ p => by
    rw [mem_ite]
    exact wf_ite _ hm (wf_of_mem_eq (mem_stopTrace _ _) hm)
  exact restored_form _ _ _ _ _ _ _ _ _ _ (wf_of_mem_eq (mem_modCore _ _ _) (hquiet _ _))

theorem execWatchdogExpiry_form (n : Nat) : ResForm (execWatchdogExpiry n s) := by
  unfold execWatchdogExpiry
  extract_lets p s1
  have h1 : Mem.wf s1.mem = true := wf_foldl (fun t c ht => by split <;> simp [ht]) _ hm
  clear_value s1
  repeat' split
  all_goals simp [hm, h1]

theorem execFault_form (a core : Nat) (engine : Engine) (cause : FaultCause) (va : BitVec 48) :
    ResForm (execFault a core engine cause va s) := by
  have hstop : ∀ (u : State) (v : Nat) (op : Nat) (t : State), Mem.wf u.mem = true → u.stopAt a core engine cause v 1 = some (op, t) →
      Mem.wf (t.takeFault a core engine cause v op).mem = true :=
    fun u v op t hu h => wf_takeFault _ _ _ _ _ _ _ (wf_stopAt u a core engine cause v 1 hu _ h)
  unfold execFault
  repeat' split
  all_goals try dsimp only
  repeat' split
  all_goals simp [hm]
  all_goals refine hstop _ _ _ _ ?_ ‹_›
  all_goals simp [hm]

theorem execPageSpill_form (a core page : Nat) : ResForm (execPageSpill a core page s) := by
  unfold execPageSpill
  split
  · simp [hm]
  · split
    · simp [hm]
    · extract_lets va s1
      have h1 : Mem.wf s1.mem = true := wf_foldl (fun t c ht => by simp [ht]) _ hm
      clear_value s1
      simp [h1]

theorem execFillComplete_form (h : Nat) (record image manifest : List Byte) : ResForm (execFillComplete h record image manifest s) := by
  unfold execFillComplete
  split
  · rw [resForm_next]
    exact wf_settle _ (wf_endFill _ _ (wf_finishWork _ _ _ _ _ _ hm))
  · simp [hm]

theorem execWithdrawalGraceExpiry_form (h : Nat) : ResForm (execWithdrawalGraceExpiry h s) := by
  unfold execWithdrawalGraceExpiry
  repeat' split
  · simp [hm]
  · simp [hm]
  · simp [hm]
  · extract_lets g s1 s2 slots
    have h1 : Mem.wf s1.mem = true := wf_foldl (fun t c ht => by simp [ht]) _ hm
    have h2 : Mem.wf s2.mem = true := wf_of_mem_eq (by simp [s2]) h1
    clear_value s1 s2 slots
    rw [resForm_next]
    exact wf_settle _ (wf_foldl (fun t c ht => by simp [ht]) _ h2)

theorem execCarryRecheckDone_form (h : Nat) : ResForm (execCarryRecheckDone h s) := by
  unfold execCarryRecheckDone
  split
  · rw [resForm_next]
    exact wf_settle _ (wf_recheck _ _ (wf_finishRecheck _ _ hm))
  · simp [hm]

theorem execEndSession_form (sess : Nat) : ResForm (execEndSession sess s) := by
  unfold execEndSession
  split
  · exact onSession_form hm _ (by simp [hm])
  · simp [hm]

theorem execLychClaim_form (sess n : Nat) : ResForm (execLychClaim sess n s) := by
  refine lychOn_form hm _ fun x => ?_
  extract_lets free mine elsewhere s1
  have h1 : Mem.wf s1.mem = true := by
    dsimp only [s1]
    split <;> simp [hm]
  clear_value s1 free mine elsewhere
  split <;> simp [hm, h1]

theorem execLychScope_form (sess n : Nat) : ResForm (execLychScope sess n s) := by
  refine lychOn_form hm _ fun x => ?_
  split <;> simp [hm]

theorem execLychKey_form (sess : Nat) (g : W32) : ResForm (execLychKey sess g s) := by
  refine lychOn_form hm _ fun x => ?_
  dsimp only
  split
  · simp [hm]
  · next n hn =>
    split
    · simp [hm]
    · simp only [mem_lych]
      exact wf_foldl (fun t c ht => by simp [ht]) _ (by simp [hm])

theorem execLychLog_form (sess : Nat) (weight : Bool) (first : W64) (count : Nat) : ResForm (execLychLog sess weight first count s) := by
  refine lychOn_form hm _ fun x => ?_
  dsimp only
  repeat' split
  all_goals simp [hm]

theorem execLychRelease_form (sess : Nat) : ResForm (execLychRelease sess s) := by
  refine lychOn_form hm _ fun x => ?_
  split <;> simp [hm]

theorem execRegisterWrite_form (sess : Nat) (index : W16) (sub : Byte) (value : Nat) : ResForm (execRegisterWrite sess index sub value s) := by
  unfold execRegisterWrite
  split
  · refine onSession_form hm _ ?_
    repeat' split
    all_goals simp [State.wrote, hm]
  · simp [hm]

theorem execCompletionConsumedWrite_form (qp stream : Nat) (n : W64) : ResForm (execCompletionConsumedWrite qp stream n s) := by
  unfold execCompletionConsumedWrite
  repeat' split
  all_goals simp [hm]

theorem execRdmaWriteInbound_form (qp : Nat) (rkey : W32) (va : W64) (data : List Byte) : ResForm (execRdmaWriteInbound qp rkey va data s) := by
  unfold execRdmaWriteInbound
  split
  · simp [hm]
  · next q hq =>
    extract_lets s1 v n off
    have h1 : Mem.wf s1.mem = true := wf_of_mem_eq (mem_portArrive _ _) hm
    clear_value s1 off n v
    repeat' split
    · simp [h1]
    · simp [h1]
    · exact (resForm_next _).mpr (wf_settle _ (by simp [hm]))
    · exact execCompletionConsumedWrite_form hm _ _ _
    · simp [h1]
    · simp [h1]
    · simp [h1]

theorem execThrottleEval_form (vrHot : List Nat) (watts : Nat) : ResForm (execThrottleEval vrHot watts s) := by
  unfold execThrottleEval
  extract_lets cause e s1
  have h1 : Mem.wf s1.mem = true := wf_of_mem_eq (by simp [s1]) hm
  clear_value s1 cause
  split
  · simp [hm]
  · rw [resForm_next, mem_measure]
    exact wf_foldl (fun t c ht => by simp [ht]) _ h1

theorem execThermalSample_form (milliC : List Int) : ResForm (execThermalSample milliC s) := by
  unfold execThermalSample
  split
  · simp [hm]
  · rw [resForm_next]
    exact wf_foldl (fun t c ht => by simp [ht]) _ hm

theorem execStepRateMeasure_form (kiloSteps : List Nat) : ResForm (execStepRateMeasure kiloSteps s) := by
  unfold execStepRateMeasure
  split
  · simp [hm]
  · rw [resForm_next]
    exact wf_foldl (fun t c ht => by simp [ht]) _ hm

theorem execAllotmentResetDone_form (n : Nat) : ResForm (execAllotmentResetDone n s) := by
  unfold execAllotmentResetDone
  split
  · extract_lets s1 s2 s3
    have h1 : Mem.wf s1.mem = true := wf_of_mem_eq (by simp [s1]) hm
    have h2 : Mem.wf s2.mem = true := wf_foldl (fun t c ht => by simp [ht]) _ h1
    have h3 : Mem.wf s3.mem = true := by
      clear_value s2
      dsimp only [s3]
      split <;> simp [h2]
    clear_value s3
    split <;> simp [h3]
  · simp [hm]

theorem execBootPhaseComplete_form (verified : Bool) : ResForm (execBootPhaseComplete verified s) := by
  unfold execBootPhaseComplete
  dsimp only
  repeat' split
  · simp [hm]
  · simp [hm]
  · rw [resForm_next, mem_release]
    simpa using wf_foldl (fun t c ht => by simp [ht]) _ hm

end

/-- Every command keeps the canonical form of memory: a row is a use of a shared operation, or every branch of its own keeps it. -/
theorem exec_form (i : Instr) (s : State) (hm : Mem.wf s.mem = true) : ResForm (exec i s) := by
  cases i with
  | gAlu | gAddi | gAndi | gOri | gXori | gShi | gSlti | gMovk | gLdB | gLdH | gLdW | gLdD | gStB | gStH | gStW | gStD | gBCc | gJ
  | gLoop | gWait | gMset | gMrd | gEsc | gPring | gTallyB | gTallyH | gTallyW | gTallyS | gTallyR | gTime | gHalt | gAddr | gAddr2
  | gangerIllegalWord | bankFetchPastImage =>
    exact ganger_form hm _ _ fun a x => by simp [hm]
  | gNld =>
    refine ganger_form hm _ _ fun a x => ?_
    dsimp only
    repeat' split
    all_goals simp [hm]
  | gBrk | gProvOpen | gProvConfirm | gProvCancel | gPost | gSwap =>
    refine ganger_form hm _ _ fun a x => ?_
    repeat' split
    all_goals simp [hm]
  | lLoad | lLoadT | lPass | lPasso | lSplit =>
    exact issueLath_form hm _ _ _
  | sCvt | sFma | sExp | sSmax | sTopk | sRed =>
    exact issueSkim_form hm _ _ _
  | tCopy | tGather | tScatter =>
    exact issueTrowel_form hm _ _ _
  | mContrib | mPublish =>
    exact issueMoot_form hm _ _ _
  | idleFlit =>
    exact arrive_form hm _ _ _ _ _ fun t ht => ht
  | partialCloseArrival =>
    exact (mootClose_form hm _ _ _ _).1
  | shardArrival =>
    exact (mootClose_form hm _ _ _ _).2
  | mootGroupApply | greenApply | allotmentApply | allotmentReset | pageAttributeRequest | counterSnapshot | fabricApply | routesApply
  | linkRetrain | linkEnableWrite | stripArm | stripToken | operatorKeyWrite | hostPortApply | commandedReset | powerApply
  | setpointApply | thermalApply | mgmtPortApply =>
    exact rowOf_form hm _ _ _ (by simp [State.wrote, hm])
  | larderPrefetch | larderPin | larderUnpin | larderEvict | larderAccept | larderWithdraw | larderInstall | larderQuery =>
    exact larderRow_form hm _ _
  | wellFill | wellSeal | wellSwitch | wellClear | wellGeometryApply =>
    exact wellRow_form hm _ _ _
  | entryQuotaWrite | pageQuotaWrite =>
    exact quotaRow_form hm _ _ _ _
  | fwStage | fwActivate | fwCommit | fwDiscard =>
    exact fwApplied_form hm _ _
  | failFlitArrival => exact execFailFlitArrival_form hm _ _ _
  | tagMapStoreApply => exact execTagMapStoreApply_form hm _ _
  | switchRestore => exact execSwitchRestore_form hm _
  | watchdogExpiry => exact execWatchdogExpiry_form hm _
  | fault => exact execFault_form hm _ _ _ _ _
  | pageSpill => exact execPageSpill_form hm _ _ _
  | fillComplete => exact execFillComplete_form hm _ _ _ _
  | withdrawalGraceExpiry => exact execWithdrawalGraceExpiry_form hm _
  | carryRecheckDone => exact execCarryRecheckDone_form hm _
  | helloReceive => exact execHelloReceive_form hm _ _ _
  | topologyReceive => exact execTopologyReceive_form hm _ _ _
  | openFlit => exact execOpenFlit_form hm _ _ _ _ _ _
  | dataFlit => exact execDataFlit_form hm _ _ _ _ _ _
  | doneFlit => exact execDoneFlit_form hm _ _ _ _ _
  | mootFlitOpen => exact execMootFlitOpen_form hm _ _ _ _
  | mootFlitData => exact execMootFlitData_form hm _ _ _ _ _
  | flitReserved => exact execFlitReserved_form hm _ _
  | endSession => exact execEndSession_form hm _
  | lychClaim => exact execLychClaim_form hm _ _
  | lychScope => exact execLychScope_form hm _ _
  | lychKey => exact execLychKey_form hm _ _
  | lychLog => exact execLychLog_form hm _ _ _ _
  | lychRelease => exact execLychRelease_form hm _
  | registerWrite => exact execRegisterWrite_form hm _ _ _ _
  | rdmaWriteInbound => exact execRdmaWriteInbound_form hm _ _ _ _
  | throttleEval => exact execThrottleEval_form hm _ _
  | thermalSample => exact execThermalSample_form hm _
  | stepRateMeasure => exact execStepRateMeasure_form hm _
  | allotmentResetDone => exact execAllotmentResetDone_form hm _
  | bootPhaseComplete => exact execBootPhaseComplete_form hm _
  | crierTakeRecord | doorbellWrite | submit | rightRemovalApply | flitBad | heartbeatMissed | oldAnExpiry | nonRoceFrame | powerOnReset
  | clockLoss | vergerFaultReset | powerLoss | thermalTrip | referenceClocksReturn | wellSealDigestRecorded | wellClearZeroingEnds =>
    dsimp only [exec, execCrierTakeRecord, execDoorbellWrite, execSubmit, execRightRemovalApply, execFlitBad, execHeartbeatMissed,
      execOldAnExpiry, execNonRoceFrame, execPowerOnReset, execClockLoss, execVergerFaultReset, execPowerLoss, execThermalTrip,
      execReferenceClocksReturn, execWellSealDigestRecorded, execWellClearZeroingEnds]
    simp [hm]
  -- The other rows: a split along the branches of each.
  | coreHaltComplete | lathQueueHead | loadStart | loadDone | passStart | passCommit | splitApply | passoStart | osChunkReady
  | skimmerQueueHead | skimmerOpComplete | transferCheck | gatherRowMove | trowelOpComplete | provRangesRelease | mootQueueHead
  | contribReadDone | nodeDeadlineExpiry | bucketLanding | deferredLanding | publishStart | groupLost | bankLoad | bankLoadComplete
  | start | stream | halt | completionConsumedWrite | carterJob | carterBlockDone | retirePoll | turnEnd | switchOut | budgetReached
  | budgetWindow | coreMeterTick | hbmMeterTick | pageReturn | linkSignalDetect | linkFecLock | trainingTimeout | downRetrainTimer
  | linkDown | helloTimer | replayTimeout | escapeTimeout | stripNonceExpiry | makerDebugToken | keyExchange | challenge
  | getMeasurements | reportSigned | liveActivationDone | lmpDatagram | lmpAccessMessage | rdmaCmConnect | qpDisconnect
  | rdmaReadInbound | atomicRequest | unacceptedFrame | ecnMarkedPacket | cnpReceived | rateRecoveryTimer | pfcPauseReceived
  | hostPortDark | pinReset | hostPortLinkUp | testStationTransition | transferTagReuse =>
    dsimp only [exec, execCoreHaltComplete, execLathQueueHead, execLoadStart, execLoadDone, execPassStart, execPassCommit,
      execSplitApply, execPassoStart, execOsChunkReady, execSkimmerQueueHead, execSkimmerOpComplete, execTransferCheck,
      execGatherRowMove, execTrowelOpComplete, execProvRangesRelease, execMootQueueHead, execContribReadDone, execNodeDeadlineExpiry,
      execBucketLanding, execDeferredLanding, execPublishStart, execGroupLost, execBankLoad, execBankLoadComplete, execStart, execStream,
      execHalt, execCompletionConsumedWrite, execCarterJob, execCarterBlockDone, execRetirePoll, execTurnEnd, execSwitchOut,
      execBudgetReached, execBudgetWindow, execCoreMeterTick, execHbmMeterTick, execPageReturn, execLinkSignalDetect, execLinkFecLock,
      execTrainingTimeout, execDownRetrainTimer, execLinkDown, execHelloTimer, execReplayTimeout, execEscapeTimeout,
      execStripNonceExpiry, execMakerDebugToken, execKeyExchange, execChallenge, execGetMeasurements, execReportSigned,
      execLiveActivationDone, execLmpDatagram, execLmpAccessMessage, execRdmaCmConnect, execQpDisconnect, execRdmaReadInbound,
      execAtomicRequest, execUnacceptedFrame, execEcnMarkedPacket, execCnpReceived, execRateRecoveryTimer, execPfcPauseReceived,
      execHostPortDark, execPinReset, execHostPortLinkUp, execTestStationTransition, execTransferTagReuse]
    repeat' split
    all_goals simp [hm]

theorem step_form (s : State) (hm : Mem.wf s.mem = true) : ResForm (step s) := by
  unfold step
  split
  · simp [hm]
  · exact exec_form _ _ hm

/-- Settles O4: the tick and every command keep the form. -/
theorem stepKeepsMemoryForm : Obligations.StepKeepsMemoryForm := fun s t hm h => step_form s hm t h

end Sys2Proof.Machine
end

section
/-! The reset state, and the snapshot of the numeric counters (spec/12 R364). -/

namespace Sys2Proof.Machine

/-- Settles O1: the step's own equation. -/
theorem stepTakesFront : Obligations.StepTakesFront := fun _ _ _ => rfl

/-- Settles O5: every field of the reset state is the default of its type. -/
theorem resetState : Obligations.ResetState := by
  refine ⟨State.wf_reset, fun _ => rfl, rfl, rfl, rfl, rfl, rfl, rfl, rfl, fun _ => rfl, fun _ _ => rfl⟩

/-! ### The snapshot of the numeric counters -/

theorem Session.ownVal_setOwn_self (x : Session) (idx sub v : Nat) : (x.setOwn idx sub v).ownVal idx sub = v := by
  simp [Session.ownVal, Session.setOwn]

theorem Session.ownVal_setOwn_ne (x : Session) {idx sub sub' : Nat} (v : Nat) (h : sub' ≠ sub) :
    (x.setOwn idx sub v).ownVal idx sub' = x.ownVal idx sub' := by
  have hkey : objKey idx sub' ≠ objKey idx sub := by
    unfold objKey
    omega
  simp [Session.ownVal, Session.setOwn, hkey]

/-- A subindex is read as the last value that a list of copies gives it. -/
theorem Session.ownVal_foldl_setOwn (v : Nat → Nat) (idx : Nat) (l : List Nat) (x : Session) (i : Nat) :
    (l.foldl (fun (y : Session) i => y.setOwn idx (0x10 + i) (v i)) x).ownVal idx (0x10 + i) =
      if i ∈ l then v i else x.ownVal idx (0x10 + i) := by
  induction l generalizing x with
  | nil => simp
  | cons j l ih =>
    rw [List.foldl_cons, ih]
    by_cases hj : i = j
    · subst hj
      simp [Session.ownVal_setOwn_self]
    · simp [hj, Session.ownVal_setOwn_ne x (v j) (show 0x10 + i ≠ 0x10 + j by omega)]

/-- Settles O46: the copies and the timer go into the session's own objects, and the session alone changes. -/
theorem counterSnapshot : Obligations.CounterSnapshot := by
  intro s sess n x hup hidle hx hmay
  have hsnap : s.snapshot sess n = (s.setSession sess (([1, 2, 3, 4, 5, 6, 7, 8].foldl
      (fun (y : Session) i => y.setOwn (0x5000 + n) (0x10 + i) (s.reg (0x5000 + n) i)) x).setOwn (0x5000 + n) 0x0A s.timer), .ok) := by
    unfold State.snapshot
    have hsome : ¬ (s.mayAccess x (0x5000 + n) 0x09 true).isNone = true := fun hnone =>
      Option.isSome_iff_ne_none.mp hmay (Option.isNone_iff_eq_none.mp hnone)
    rw [hx]
    exact if_neg hsome
  have hexec : exec (.counterSnapshot sess n) s = .next ((s.snapshot sess n).1.emit (.wrote sess (0x5000 + n) 0x09 (s.snapshot sess n).2)) := by
    change s.rowOf sess (0x5000 + n) 0x09 _ = _
    rw [State.rowOf, if_pos hup, if_pos hidle, State.onSession, if_neg (by simp [hx])]
    rfl
  rw [hexec, hsnap]
  refine ⟨_, _, rfl, State.session_setSession_self .., fun i hlo hhi => ?_, Session.ownVal_setOwn_self .., fun k hk => ?_, rfl⟩
  · rw [Session.ownVal_setOwn_ne _ _ (by omega), Session.ownVal_foldl_setOwn, if_pos]
    simp only [List.mem_cons, List.not_mem_nil]
    omega
  · exact State.session_setSession_ne s _ hk

end Sys2Proof.Machine
end

section
/-! Resets of every kind (spec/18 R521, R522). -/

namespace Sys2Proof.Machine

/-! ### What a reset leaves -/

/-- Whether the boot flash keeps the object of a key, or the key is that of a written route. -/
def flashKey (k : Nat) : Prop := persistent (k / 256) (k % 256) = true ∨ isRoute k = true

/-- t differs from s in nothing but the objects, the boot flash and what waits for it. -/
def FlashFrame (s t : State) : Prop :=
  t = { s with freeCtr := t.freeCtr, flash := t.flash, flashWait := t.flashWait }

theorem FlashFrame.refl (s : State) : FlashFrame s s := rfl

theorem FlashFrame.trans {s t u : State} (h : FlashFrame s t) (k : FlashFrame t u) : FlashFrame s u := by
  unfold FlashFrame at *
  rw [k, h]

theorem foldl_frame {β : Type} {R : State → State → Prop} (hrefl : ∀ s, R s s) (htrans : ∀ {s t u}, R s t → R t u → R s u)
    {f : State → β → State} (hf : ∀ s b, R s (f s b)) (l : List β) (s : State) : R s (l.foldl f s) := by
  induction l generalizing s with
  | nil => exact hrefl s
  | cons b l ih => exact htrans (hf s b) (ih _)

theorem settleFlash_frame (s : State) : FlashFrame s s.settleFlash :=
  (show FlashFrame s { s with flashWait := [] } from rfl).trans
    (foldl_frame .refl .trans (fun t e => by
      dsimp only
      split
      · rfl
      · split <;> rfl) s.flashWait _)

/-- The boot flash after a reset holds keys that it or a write waiting for it held. -/
theorem settleFlash_keys {P : Nat → Prop} (s : State) (hflash : ∀ e ∈ s.flash, P e.1) (hwait : ∀ e ∈ s.flashWait, P e.1) :
    ∀ e ∈ s.settleFlash.flash, P e.1 := by
  have hfold : ∀ (l : List (Nat × Nat × Nat)) (t : State), (∀ e ∈ t.flash, P e.1) → (∀ e ∈ l, P e.1) →
      ∀ e ∈ (l.foldl (fun t e => if e.2.2 ≤ t.timer then { t with flash := t.flash.set e.1 e.2.1 } else
        let d := t.drawBool
        if d.1 then { d.2 with flash := d.2.flash.set e.1 e.2.1 } else d.2) t).flash, P e.1 := by
    intro l
    induction l with
    | nil => exact fun t ht _ => ht
    | cons w l ih =>
      intro t ht hl
      obtain ⟨hw, hl⟩ := List.forall_mem_cons.mp hl
      have hset : ∀ e ∈ t.flash.set w.1 w.2.1, P e.1 := fun e he => by
        rcases Tbl.mem_set he with rfl | he
        · exact hw
        · exact ht e he
      refine ih _ ?_ hl
      dsimp only
      split
      · exact hset
      · split
        · exact hset
        · exact ht
  exact hfold s.flashWait _ hflash hwait

theorem endTransition_of_not {s : State} (h : s.transition = false) : s.endTransition = s := by simp [State.endTransition, h]

theorem endTransition_of_strip {s : State} (h : s.transition = true) (hl : s.lifeCycle = 3) :
    s.endTransition = ({ s.dropOperatorKeys with seed := .overwritten, deviceCert := none } : State).setReg 0x1100 0x02 0 := by
  simp [State.endTransition, h, hl]


theorem endTransition_fuse (s : State) {idx sub : Nat} (hsub : sub < 256) (h : idx ≠ 0x1110) (h2 : idx ≠ 0x1100 ∨ sub ≠ 2) :
    s.endTransition.reg idx sub = s.reg idx sub := by
  have hkey : ∀ i, i < 256 → objKey idx sub ≠ objKey 0x1110 i := fun i hi => by
    rw [ne_eq, objKey_inj hsub hi]
    omega
  have hid : objKey idx sub ≠ objKey 0x1100 2 := by
    rw [ne_eq, objKey_inj hsub (by decide)]
    omega
  unfold State.endTransition
  split
  · rw [State.reg_setReg_ne _ _ hid]
    change (List.foldl _ s [1, 2, 3, 4]).reg idx sub = _
    simp only [List.foldl_cons, List.foldl_nil]
    rw [State.reg_setReg_ne _ _ (hkey 4 (by decide)), State.reg_setReg_ne _ _ (hkey 3 (by decide)), State.reg_setReg_ne _ _ (hkey 2 (by decide)),
      State.reg_setReg_ne _ _ (hkey 1 (by decide))]
  · rfl

/-- The end of a transition drops keys of the boot flash, and adds none. -/
theorem endTransition_keys {P : Nat → Prop} (s : State) (hflash : ∀ e ∈ s.flash, P e.1) (hwait : ∀ e ∈ s.flashWait, P e.1) :
    (∀ e ∈ s.endTransition.flash, P e.1) ∧ ∀ e ∈ s.endTransition.flashWait, P e.1 := by
  unfold State.endTransition
  split
  · exact ⟨fun e he => hflash e (List.mem_filter.mp he).1, fun e he => hwait e (List.mem_filter.mp he).1⟩
  · exact ⟨hflash, hwait⟩

/-- What the end of a transition and of the writes to the boot flash leaves of a state. -/
def State.settled (s : State) : State := s.endTransition.settleFlash

/-- The objects at the begin of bring-up, of a state that has settled: the fuses and the boot flash. -/
def State.bootObjects (s : State) : List (Nat × Nat) :=
  [1, 2, 3].map (fun i => (objKey 0x1100 i, s.reg 0x1100 i)) ++ [1, 2, 3, 4, 5].map (fun i => (objKey 0x1101 i, s.reg 0x1101 i)) ++
    s.flash.filter (fun e => !isRoute e.1)

def objectsOf (l : List (Nat × Nat)) : Tbl Nat := l.foldl (fun t e => t.set e.1 e.2) []

theorem find_objectsOf_append {l m : List (Nat × Nat)} {k : Nat} (h : ∀ e ∈ m, e.1 ≠ k) : (objectsOf (l ++ m)).find k = (objectsOf l).find k := by
  unfold objectsOf
  rw [List.foldl_append]
  generalize l.foldl (fun t e => Tbl.set t e.1 e.2) ([] : Tbl Nat) = t
  induction m generalizing t with
  | nil => rfl
  | cons e m ih =>
    obtain ⟨he, hm⟩ := List.forall_mem_cons.mp h
    rw [List.foldl_cons, ih hm, Tbl.find_set_ne _ _ (Ne.symm he)]

theorem find_objectsOf_none {l : List (Nat × Nat)} {k : Nat} (h : ∀ e ∈ l, e.1 ≠ k) : (objectsOf l).find k = none :=
  (find_objectsOf_append (l := []) h).trans rfl

/-- The routes that a reset keeps are rows of the route objects. -/
theorem routes_keys (l : List (Nat × Nat)) (h : ∀ e ∈ l, isRoute e.1 = true) :
    ∀ e ∈ l.foldl (fun (t : Tbl Nat) e => t.set ((e.1 / 256 - 0x2180) * 128 + e.1 % 256 - 1) e.2) [], e.1 < 0x280 := by
  have hfold : ∀ (l : List (Nat × Nat)) (t : Tbl Nat), (∀ e ∈ l, isRoute e.1 = true) → (∀ e ∈ t, e.1 < 0x280) →
      ∀ e ∈ l.foldl (fun (t : Tbl Nat) e => t.set ((e.1 / 256 - 0x2180) * 128 + e.1 % 256 - 1) e.2) t, e.1 < 0x280 := by
    intro l
    induction l with
    | nil => exact fun t _ ht => ht
    | cons e l ih =>
      intro t hl ht
      obtain ⟨he, hl⟩ := List.forall_mem_cons.mp hl
      refine ih _ hl fun e' he' => ?_
      rcases Tbl.mem_set he' with rfl | he'
      · simp only [isRoute, Bool.and_eq_true, decide_eq_true_eq] at he
        dsimp only
        omega
      · exact ht e' he'
  exact hfold l [] h (by simp)

theorem foldl_setReg_reg {β : Type} (i j v : β → Nat) (l : List β) (s : State) {idx sub : Nat} (h : ∀ e ∈ l, objKey idx sub ≠ objKey (i e) (j e)) :
    (l.foldl (fun t e => t.setReg (i e) (j e) (v e)) s).reg idx sub = s.reg idx sub := by
  induction l generalizing s with
  | nil => rfl
  | cons e l ih =>
    obtain ⟨he, hl⟩ := List.forall_mem_cons.mp h
    rw [List.foldl_cons, ih _ hl, State.reg_setReg_ne _ _ he]

/-- An object after a reset, but for the objects that report the reset, the routes and what is staged. -/
theorem reg_deviceReset (s : State) (mode : PowerMode) (cause : Nat) {idx sub : Nat} (hsub : sub < 256) (hstaged : idx ≠ 0x7F00)
    (hcause : idx ≠ 0x1300 ∨ sub ≠ 3) (hhouse : idx ≠ 0x2100 ∨ sub ≠ 3) (hroute : idx < 0x2180 ∨ 0x2184 < idx) :
    (s.deviceReset mode cause).reg idx sub = Tbl.get (objDefault idx sub) (objectsOf s.settled.bootObjects) (objKey idx sub) := by
  have hne : ∀ i j, j < 256 → (idx ≠ i ∨ sub ≠ j) → objKey idx sub ≠ objKey i j := fun i j hj h => by
    rw [ne_eq, objKey_inj hsub hj]
    omega
  suffices h : ∀ f, f = @State.deviceReset → (f s mode cause).reg idx sub =
      Tbl.get (objDefault idx sub) (objectsOf s.settled.bootObjects) (objKey idx sub) from h _ rfl
  intro f hf
  delta State.deviceReset at hf
  rw [hf]
  beta_reduce
  extract_lets s1 fuses objs base b1 b2
  have hbase : base.reg idx sub = Tbl.get (objDefault idx sub) (objectsOf s.settled.bootObjects) (objKey idx sub) := rfl
  have hroutes : ∀ e ∈ base.routes, e.1 < 0x280 := routes_keys _ fun e he => (List.mem_filter.mp he).2
  clear_value base
  have h1 : b1.reg idx sub = base.reg idx sub ∧ b1.routes = base.routes := by
    dsimp only [b1]
    split
    · exact ⟨State.reg_setReg_ne _ _ (hne _ _ (by decide) hhouse), rfl⟩
    · exact ⟨rfl, rfl⟩
  have h2 : b2.reg idx sub = b1.reg idx sub := by
    dsimp only [b2]
    split
    · refine foldl_setReg_reg _ _ _ _ _ fun e he => hne _ _ (by omega) (.inl ?_)
      have hlt := hroutes e (h1.2 ▸ he)
      omega
    · rfl
  rw [State.reg_setReg_ne _ _ (hne _ _ (by decide) hcause), ← hbase, ← h1.1, ← h2]
  unfold State.showStaged
  rw [State.reg_setReg_ne _ _ (hne _ _ (by decide) (.inl hstaged)), State.reg_setReg_ne _ _ (hne _ _ (by decide) (.inl hstaged)),
    State.reg_setReg_ne _ _ (hne _ _ (by decide) (.inl hstaged))]


theorem settled_frame (s : State) : FlashFrame s.endTransition s.settled := settleFlash_frame _

/-- Under keys of the boot flash alone, what a reset keeps of the flash is objects that it keeps. -/
theorem settled_keys {s : State} (hflash : ∀ e ∈ s.flash, flashKey e.1) (hwait : ∀ e ∈ s.flashWait, flashKey e.1) :
    ∀ e ∈ s.settled.flash.filter (fun e => !isRoute e.1), persistent (e.1 / 256) (e.1 % 256) = true := by
  intro e he
  obtain ⟨hmem, hnot⟩ := List.mem_filter.mp he
  obtain ⟨hf, hw⟩ := endTransition_keys s hflash hwait
  rcases settleFlash_keys _ hf hw e hmem with hkey | hkey
  · exact hkey
  · simp [hkey] at hnot

/-- Without an entry of the boot flash, an object after a reset is a fuse or has its default. -/
theorem find_bootObjects {s : State} (hflash : ∀ e ∈ s.flash, flashKey e.1) (hwait : ∀ e ∈ s.flashWait, flashKey e.1) {idx sub : Nat}
    (hsub : sub < 256) (hpers : persistent idx sub = false) : (objectsOf s.settled.bootObjects).find (objKey idx sub) =
      (objectsOf ([1, 2, 3].map (fun i => (objKey 0x1100 i, s.settled.reg 0x1100 i)) ++
        [1, 2, 3, 4, 5].map (fun i => (objKey 0x1101 i, s.settled.reg 0x1101 i)))).find (objKey idx sub) := by
  refine find_objectsOf_append fun e he hkey => ?_
  have hkept := settled_keys hflash hwait e he
  have hdiv : e.1 / 256 = idx ∧ e.1 % 256 = sub := by
    rw [hkey, objKey]
    omega
  rw [hdiv.1, hdiv.2, hpers] at hkept
  exact Bool.false_ne_true hkept

theorem settled_reg (s : State) (idx sub : Nat) : s.settled.reg idx sub = s.endTransition.reg idx sub := by
  rw [State.reg, settled_frame s]
  rfl

theorem endTransition_keeps (s : State) :
    s.endTransition.staged = s.staged ∧ s.endTransition.pending = s.pending ∧ s.endTransition.out = s.out := by
  unfold State.endTransition
  split
  · simp [State.dropOperatorKeys]
  · exact ⟨rfl, rfl, rfl⟩

/-- A fuse keeps its value over a reset; the identity that a strip clears is the one exception. -/
theorem reg_deviceReset_fuse (s : State) (mode : PowerMode) (cause : Nat) (hflash : ∀ e ∈ s.flash, flashKey e.1)
    (hwait : ∀ e ∈ s.flashWait, flashKey e.1) {idx sub : Nat} (h : (idx = 0x1100 ∧ (sub = 1 ∨ sub = 3)) ∨ (idx = 0x1101 ∧ 1 ≤ sub ∧ sub ≤ 5)) :
    (s.deviceReset mode cause).reg idx sub = s.reg idx sub := by
  have hsub : sub < 256 := by omega
  have hpers : persistent idx sub = false := by
    rcases h with ⟨rfl, rfl | rfl⟩ | ⟨rfl, -⟩
    · rfl
    · rfl
    · simp [persistent]
  rw [reg_deviceReset s mode cause hsub (by omega) (by omega) (by omega) (by omega), Tbl.get, find_bootObjects hflash hwait hsub hpers]
  have hval : s.settled.reg idx sub = s.reg idx sub := by
    rw [settled_reg, endTransition_fuse s hsub (by omega) (by omega)]
  rcases h with ⟨rfl, rfl | rfl⟩ | ⟨rfl, hlo, hhi⟩
  · simp [objectsOf, objKey, hval]
  · simp [objectsOf, objKey, hval]
  · have hfive : sub = 1 ∨ sub = 2 ∨ sub = 3 ∨ sub = 4 ∨ sub = 5 := by omega
    rcases hfive with rfl | rfl | rfl | rfl | rfl <;> simp [objectsOf, objKey, hval]

/-- Any other object that the boot flash does not keep has its default. -/
theorem reg_deviceReset_default (s : State) (mode : PowerMode) (cause : Nat) (hflash : ∀ e ∈ s.flash, flashKey e.1)
    (hwait : ∀ e ∈ s.flashWait, flashKey e.1) {idx sub : Nat} (hsub : sub < 256) (hid : idx ≠ 0x1100) (hsvn : idx ≠ 0x1101)
    (hstaged : idx ≠ 0x7F00) (hcause : idx ≠ 0x1300 ∨ sub ≠ 3) (hhouse : idx ≠ 0x2100 ∨ sub ≠ 3) (hroute : idx < 0x2180 ∨ 0x2184 < idx)
    (hpers : persistent idx sub = false) : (s.deviceReset mode cause).reg idx sub = objDefault idx sub := by
  rw [reg_deviceReset s mode cause hsub hstaged hcause hhouse hroute, Tbl.get, find_bootObjects hflash hwait hsub hpers,
    find_objectsOf_none, Option.getD_none]
  intro e he
  simp only [List.mem_append, List.mem_map] at he
  rcases he with ⟨i, hi, rfl⟩ | ⟨i, hi, rfl⟩
  · rw [ne_eq, objKey_inj (by simp at hi; omega) hsub]
    exact fun h => hid h.1.symm
  · rw [ne_eq, objKey_inj (by simp at hi; omega) hsub]
    exact fun h => hsvn h.1.symm

/-- No ward is throttled or held after a reset. -/
theorem alertN_deviceReset (s : State) (mode : PowerMode) (cause : Nat) (hflash : ∀ e ∈ s.flash, flashKey e.1)
    (hwait : ∀ e ∈ s.flashWait, flashKey e.1) : (s.deviceReset mode cause).alertN = true := by
  have hlowered : (s.deviceReset mode cause).lowered = [] := by rw [deviceReset_eq]
  have hthrottles : (s.deviceReset mode cause).reg 0x1210 0x08 = 0 := reg_deviceReset_default s mode cause hflash hwait (by decide) (by decide)
    (by decide) (by decide) (by decide) (by decide) (by decide) (by decide)
  have hholds : (s.deviceReset mode cause).reg 0x1210 0x09 = 0 := reg_deviceReset_default s mode cause hflash hwait (by decide) (by decide)
    (by decide) (by decide) (by decide) (by decide) (by decide) (by decide)
  simp [State.alertN, State.wardThrottled, State.wardHeld, hlowered, hthrottles, hholds, bitAt]

theorem deviceReset_keeps (s : State) (mode : PowerMode) (cause : Nat) :
    let t := s.deviceReset mode cause
    t.staged = s.staged ∧ t.pending = s.pending ∧ t.out = s.out ∧ t.seed = s.endTransition.seed ∧ t.deviceCert = s.endTransition.deviceCert := by
  have h := settled_frame s
  rw [State.settled] at h
  obtain ⟨hstaged, hpending, hout⟩ := endTransition_keeps s
  refine ⟨?_, ?_, ?_, ?_, ?_⟩ <;> rw [deviceReset_eq] <;> dsimp only <;> rw [h]
  · exact hstaged
  · exact hpending
  · exact hout

/-- A reset asked for on a session that may write it runs once the write is answered. -/
theorem execCommandedReset_of_mayApply {s : State} {sess : Nat} (hup : s.answers = true) (hidle : s.sessionIdle sess = true)
    (hmay : s.mayApply sess 0x1300 0x01 = true) : exec (.commandedReset sess) s =
      .next ((({ s with resetPending := true } : State).emit (.wrote sess 0x1300 0x01 .ok)).deviceReset .running 0x03) := by
  have hidle' : s.activating.isNone = true := (Bool.and_eq_true_iff.mp hup).2
  change s.rowOf sess 0x1300 0x01 _ = _
  rw [rowOf_of_mayApply hup hidle hmay, State.askReset, if_pos hmay, State.runReset, if_pos ⟨rfl, hidle'⟩]

/-- Settles O58: a reset keeps what `deviceReset_eq` names, and every kind of reset is a device reset with its cause. -/
theorem resetKinds : Obligations.ResetKinds := by
  refine ⟨fun s mode cause hflash hwait => ?_, fun s => ⟨fun hp => ?_, fun hp => ?_, fun hp => ?_, fun _ => rfl, fun w t hp hw ht => ?_,
    fun w t ht => ?_, fun sess hup hidle hmay => execCommandedReset_of_mayApply hup hidle hmay⟩⟩
  · intro t
    have heq := deviceReset_eq s mode cause
    obtain ⟨hstaged, hpending, hout, hseed, hcert⟩ := deviceReset_keeps s mode cause
    have hnot : s.transition = false → t.seed = s.seed ∧ t.deviceCert = s.deviceCert := fun h => by
      rw [hseed, hcert, endTransition_of_not h]
      exact ⟨rfl, rfl⟩
    have hstrip : s.transition = true → s.lifeCycle = 3 → t.seed = .overwritten ∧ t.deviceCert = none := fun h hl => by
      rw [hseed, hcert, endTransition_of_strip h hl]
      exact ⟨rfl, rfl⟩
    refine ⟨?_, ?_, ?_, ?_, ?_, ?_, ?_, ?_, ?_, ?_, ?_, ?_, ?_, ?_, ?_, hstaged, ?_, ?_, ?_, ?_, ?_, ?_, hpending, hout, hnot, hstrip,
      reg_cause_deviceReset .., reg_deviceReset_fuse s mode cause hflash hwait (.inl ⟨rfl, .inl rfl⟩),
      reg_deviceReset_fuse s mode cause hflash hwait (.inl ⟨rfl, .inr rfl⟩),
      fun i hlo hhi => reg_deviceReset_fuse s mode cause hflash hwait (.inr ⟨rfl, hlo, hhi⟩), ?_, ?_,
      fun idx sub hsub hid hsvn hst hc hh hr hp => reg_deviceReset_default s mode cause hflash hwait hsub hid hsvn hst hc hh hr hp⟩
    case refine_23 => exact alertN_deviceReset s mode cause hflash hwait
    all_goals dsimp only [t]; rw [heq]
  · refine ⟨?_, ?_, ?_⟩
    · change execPinReset s = _
      rw [execPinReset, hp]
    · change execVergerFaultReset s = _
      rw [execVergerFaultReset, if_pos hp]
    · change execPowerOnReset s = _
      rw [execPowerOnReset, if_neg (by simp [hp])]
  · change execPowerOnReset s = _
    rw [execPowerOnReset, if_pos hp]
  · change execPinReset s = _
    unfold execPinReset
    rcases hp with hp | hp <;> rw [hp]
  · constructor
    · change execThermalTrip w t s = _
      rw [execThermalTrip, if_pos ⟨hp, hw, ht⟩]
    · rw [State.thermtripN, deviceReset_eq]
      rfl
  · change execThermalTrip w t s = _
    rw [execThermalTrip, if_neg (by omega)]

end Sys2Proof.Machine
end

section
/-! Loss of a reference clock, and the phases of the boot (spec/18 R511, R523). -/

namespace Sys2Proof.Machine

/-! ### The phases of the boot -/

/-- t differs from s in nothing but the links and the objects. -/
def LinksFrame (s t : State) : Prop := t = { s with links := t.links, regs := t.regs }

theorem wakeLink_frame (s : State) (l : Nat) : LinksFrame s (s.wakeLink l) := by
  unfold State.wakeLink
  split <;> rfl

theorem LinksFrame.refl (s : State) : LinksFrame s s := rfl

theorem LinksFrame.trans {s t u : State} (h : LinksFrame s t) (k : LinksFrame t u) : LinksFrame s u := by
  unfold LinksFrame at *
  rw [k, h]

/-- Waking links changes no object but their states. -/
theorem reg_wakeLinks (ls : List Nat) (s : State) {idx sub : Nat} (h : ∀ l ∈ ls, objKey idx sub ≠ objKey (0x2110 + l) 2) :
    (ls.foldl (fun (t : State) l => t.wakeLink l) s).reg idx sub = s.reg idx sub := by
  induction ls generalizing s with
  | nil => rfl
  | cons l ls ih =>
    obtain ⟨hl, hls⟩ := List.forall_mem_cons.mp h
    rw [List.foldl_cons, ih _ hls]
    unfold State.wakeLink
    split
    · exact State.reg_setReg_ne _ _ hl
    · rfl

/-- What the end of a phase changes: objects, links and what is sent. -/
def ReleaseFrame (s t : State) : Prop := t = { s with links := t.links, regs := t.regs, out := t.out }

theorem ReleaseFrame.trans {s t u : State} (h : ReleaseFrame s t) (k : ReleaseFrame t u) : ReleaseFrame s u := by
  unfold ReleaseFrame at *
  rw [k, h]

theorem LinksFrame.release {s t : State} (h : LinksFrame s t) : ReleaseFrame s t := by
  rw [h]
  rfl

theorem ReleaseFrame.refl (s : State) : ReleaseFrame s s := rfl

/-- A port at the end of phase 6. -/
def State.trainPort (t : State) (p : Nat) : State := if t.portReg p 0x01 = 0 then t else t.setReg (0x2001 + p) 0x02 1

/-- A ward's supply at the end of phase 1. -/
def State.supplySetpoint (t : State) (w : Nat) : State := t.setSupply w (t.reg (0x1201 + w) 0x01)

theorem trainPort_frame (t : State) (p : Nat) : ReleaseFrame t (t.trainPort p) := by
  unfold State.trainPort
  split <;> rfl

theorem release_frame (s : State) (p : Nat) : ReleaseFrame s (s.release p) := by
  fun_cases State.release s p
  · exact foldl_frame (R := ReleaseFrame) (f := State.supplySetpoint) .refl .trans (fun _ _ => rfl) _ s
  · rfl
  · exact (foldl_frame (R := ReleaseFrame) (f := State.trainPort) .refl .trans trainPort_frame _ s).trans
      (foldl_frame (R := LinksFrame) .refl .trans wakeLink_frame _ _).release
  · rfl

theorem portReg_trainPort_self (t : State) (p : Nat) : (t.trainPort p).portReg p 2 = if t.portReg p 1 = 0 then t.portReg p 2 else 1 := by
  unfold State.trainPort
  split
  · rfl
  · exact State.reg_setReg_self ..

theorem reg_trainPort_ne (t : State) {p idx sub : Nat} (hsub : sub < 256) (h : idx ≠ 0x2001 + p ∨ sub ≠ 2) :
    (t.trainPort p).reg idx sub = t.reg idx sub := by
  unfold State.trainPort
  split
  · rfl
  · refine State.reg_setReg_ne _ _ ?_
    rw [ne_eq, objKey_inj hsub (by decide)]
    omega

theorem reg_supplySetpoint_ne (t : State) {w idx sub : Nat} (hsub : sub < 256) (h : idx ≠ 0x1201 + w ∨ sub ≠ 2) :
    (t.supplySetpoint w).reg idx sub = t.reg idx sub := by
  refine State.reg_setReg_ne _ _ ?_
  rw [ne_eq, objKey_inj hsub (by decide)]
  omega

theorem reg_supplySetpoint_self (t : State) (w : Nat) : (t.supplySetpoint w).reg (0x1201 + w) 2 = t.reg (0x1201 + w) 1 := State.reg_setReg_self ..

/-- The end of phase 6, of a port below 4: one that is enabled trains. -/
theorem portReg_release_six (s : State) {p : Nat} (hp : p < 4) :
    (s.release 6).portReg p 2 = if s.portReg p 1 = 0 then s.portReg p 2 else 1 := by
  have hports : (s.release 6).portReg p 2 = ((((s.trainPort 0).trainPort 1).trainPort 2).trainPort 3).portReg p 2 := by
    refine reg_wakeLinks _ _ fun l _ => ?_
    rw [ne_eq, objKey_inj (by decide) (by decide)]
    omega
  have hne (t : State) {p q sub : Nat} (hsub : sub < 256) (h : p ≠ q ∨ sub ≠ 2) : (t.trainPort q).portReg p sub = t.portReg p sub :=
    reg_trainPort_ne t hsub (by omega)
  rw [hports]
  interval_cases p
  all_goals simp [hne, portReg_trainPort_self]

/-- The end of phase 1 puts every ward's supply at its setpoint. -/
theorem reg_release_one (s : State) {w : Nat} (hw : w < 4) : (s.release 1).reg (0x1201 + w) 2 = s.reg (0x1201 + w) 1 := by
  change ((((s.supplySetpoint 0).supplySetpoint 1).supplySetpoint 2).supplySetpoint 3).reg (0x1201 + w) 2 = _
  have hself (t : State) {q i : Nat} (h : i = 0x1201 + q) : (t.supplySetpoint q).reg i 2 = t.reg i 1 := h ▸ reg_supplySetpoint_self t q
  interval_cases w
  all_goals simp [hself, reg_supplySetpoint_ne]

/-- No release moves the phase. -/
theorem reg_phase_release (s : State) (p : Nat) : (s.release p).reg 0x1300 2 = s.reg 0x1300 2 := by
  fun_cases State.release s p
  · change ((((s.supplySetpoint 0).supplySetpoint 1).supplySetpoint 2).supplySetpoint 3).reg 0x1300 2 = _
    simp [reg_supplySetpoint_ne]
  · exact State.reg_setReg_ne _ _ (by decide)
  · refine (reg_wakeLinks _ _ fun l _ => ?_).trans ?_
    · rw [ne_eq, objKey_inj (by decide) (by decide)]
      omega
    · change ((((s.trainPort 0).trainPort 1).trainPort 2).trainPort 3).reg 0x1300 2 = _
      simp [reg_trainPort_ne]
  · rfl

/-- What running an image changes: the components, what is staged, and the objects that show it. -/
def ImageFrame (s t : State) : Prop := t = { s with components := t.components, staged := t.staged, regs := t.regs }

theorem ImageFrame.refl (s : State) : ImageFrame s s := rfl

theorem ImageFrame.trans {s t u : State} (h : ImageFrame s t) (k : ImageFrame t u) : ImageFrame s u := by
  unfold ImageFrame at *
  rw [k, h]

theorem runImage_frame (s : State) (i : Nat) : ImageFrame s (s.runImage i) := by
  fun_cases State.runImage s i <;> rfl

theorem reg_runImage (s : State) (i : Nat) {idx sub : Nat} (hsub : sub < 256) (h : idx ≠ 0x7F00) : (s.runImage i).reg idx sub = s.reg idx sub := by
  have hkey : ∀ j, j < 256 → objKey idx sub ≠ objKey 0x7F00 j := fun j hj => by
    rw [ne_eq, objKey_inj hsub hj]
    omega
  fun_cases State.runImage s i
  · unfold State.showStaged
    dsimp only
    rw [State.reg_setReg_ne _ _ (hkey _ (by decide)), State.reg_setReg_ne _ _ (hkey _ (by decide)), State.reg_setReg_ne _ _ (hkey _ (by decide))]
    rfl
  · rfl
  · rfl

theorem foldl_runImage_reg (l : List Nat) (s : State) {idx sub : Nat} (hsub : sub < 256) (h : idx ≠ 0x7F00) :
    (l.foldl (fun (t : State) i => t.runImage i) s).reg idx sub = s.reg idx sub := by
  induction l generalizing s with
  | nil => rfl
  | cons i l ih => exact (ih _).trans (reg_runImage s i hsub h)

theorem runImage_of_staged_none {s : State} (h : s.staged = none) (i : Nat) : s.runImage i = s := by simp [State.runImage, h]

theorem foldl_runImage_of_staged_none {s : State} (h : s.staged = none) (l : List Nat) : l.foldl (fun (t : State) i => t.runImage i) s = s := by
  induction l with
  | nil => rfl
  | cons i l ih => rw [List.foldl_cons, runImage_of_staged_none h, ih]

/-- A staged image of one of the components that run is taken. -/
theorem foldl_runImage_staged (l : List Nat) {s : State} {g : Staged} (hg : s.staged = some g) (hmem : g.component ∈ l) :
    let t := l.foldl (fun (t : State) i => t.runImage i) s
    t.component g.component = (g.digest, g.svn) ∧ t.staged = none := by
  induction l with
  | nil => simp at hmem
  | cons i l ih =>
    dsimp only
    rw [List.foldl_cons]
    by_cases hi : g.component = i
    · have hrun : s.runImage i = ({ s with staged := none, components := s.components.set i (g.digest, g.svn) } : State).showStaged := by
        simp [State.runImage, hg, hi]
      rw [hrun, foldl_runImage_of_staged_none rfl, hi]
      exact ⟨by simp [State.component, State.showStaged], rfl⟩
    · have hrun : s.runImage i = s := by simp [State.runImage, hg, hi]
      rw [hrun]
      exact ih ((List.mem_cons.mp hmem).resolve_left hi)

theorem bootRuns_iff (s : State) (p : Nat) (v : Bool) :
    s.bootRuns p v = true ↔ v = true ∧ ∀ i ∈ phaseComponents p, s.reg 0x1101 i ≤ (s.bootImage i).2 := by
  simp [State.bootRuns]

/-- Settles O59: a lost clock is a reset that holds the device, and a phase of the boot that ends runs its images and releases what it
releases, or leaves the device in recovery. -/
theorem clockLossAndBringUp : Obligations.ClockLossAndBringUp := by
  refine ⟨⟨fun s hp => ⟨?_, ?_, reg_cause_deviceReset ..⟩, fun s hp => ?_⟩, fun s v hp => ?_⟩
  · change execClockLoss s = _
    rw [execClockLoss, if_pos hp]
  · rw [deviceReset_eq]
  · have hnot : s.power ≠ .running := by simp [hp]
    refine ⟨fun hq => by rw [step_of_pending_nil hq, tick_of_not_running hnot], ?_, ?_, fun path => ?_, fun p => ?_, ?_, ?_, ?_, ?_, fun v => ?_, ?_⟩
    · simp [State.answers, State.up, hp]
    · simp [State.hears, State.answers, State.up, State.inRecovery, hp]
    · simp [State.heard, hp]
    · simp [State.portUp, hp]
    · change execClockLoss s = _
      rw [execClockLoss, if_neg hnot]
    · change execPowerOnReset s = _
      rw [execPowerOnReset, if_neg (by simp [hp])]
    · change execVergerFaultReset s = _
      rw [execVergerFaultReset, if_neg hnot]
    · change execPinReset s = _
      rw [execPinReset, hp]
    · change execBootPhaseComplete v s = _
      rw [execBootPhaseComplete, if_pos (.inl hnot)]
    · refine ⟨{ s with power := .running, releasedAt := s.timer }, ?_, rfl, rfl, rfl⟩
      change execReferenceClocksReturn s = _
      rw [execReferenceClocksReturn, if_pos hp]
  · intro runs
    have hruns : s.bootRuns (s.phase + 1) v = true ↔ runs := bootRuns_iff ..
    refine ⟨fun hlt hok => ?_, fun hlt hok => ?_, fun hge => ?_⟩
    · set t0 := (phaseComponents (s.phase + 1)).foldl (fun (t : State) i => t.runImage i) s with ht0
      have himage : ImageFrame s t0 := foldl_frame (R := ImageFrame) .refl .trans runImage_frame _ s
      have hreg : ∀ {idx sub : Nat}, sub < 256 → idx ≠ 0x7F00 → (idx ≠ 0x1300 ∨ sub ≠ 2) →
          (t0.setReg 0x1300 0x02 (s.phase + 1)).reg idx sub = s.reg idx sub := fun {idx sub} hsub h h2 => by
        rw [State.reg_setReg_ne, ht0, foldl_runImage_reg _ _ hsub h]
        rw [ne_eq, objKey_inj hsub (by decide)]
        omega
      have hframe := release_frame (t0.setReg 0x1300 0x02 (s.phase + 1)) (s.phase + 1)
      refine ⟨(t0.setReg 0x1300 0x02 (s.phase + 1)).release (s.phase + 1), ?_, ?_, fun hfive p hp4 => ?_, fun hzero w hw => ?_,
        fun g hg hmem => ?_, ?_, ?_⟩
      · change execBootPhaseComplete v s = _
        unfold execBootPhaseComplete
        dsimp only
        rw [if_neg (by simp [hp]; omega), if_neg]
        rintro ⟨hle, hno⟩
        rcases hok with hok | hok
        · simp [hruns.mpr hok] at hno
        · omega
      · rw [State.phase, reg_phase_release, State.reg_setReg_self]
      · rw [hfive] at hreg ⊢
        rw [portReg_release_six _ hp4, State.portReg, State.portReg, hreg (by decide) (by omega) (by omega),
          hreg (by decide) (by omega) (by omega)]
        rfl
      · rw [hzero] at hreg ⊢
        rw [reg_release_one _ hw, hreg (by decide) (by omega) (by omega)]
      · obtain ⟨hcomp, hstaged⟩ := foldl_runImage_staged _ hg hmem
        rw [hframe]
        exact ⟨hcomp, hstaged⟩
      · rw [hframe]
        change t0.mem = _
        rw [himage]
      · rw [hframe]
        change t0.ctxs = _
        rw [himage]
    · change execBootPhaseComplete v s = _
      unfold execBootPhaseComplete
      dsimp only
      rw [if_neg (by simp [hp]; omega), if_pos]
      refine ⟨by omega, ?_⟩
      have hno : s.bootRuns (s.phase + 1) v = false := by
        rw [← Bool.not_eq_true, hruns]
        exact hok
      simp [hno]
    · change execBootPhaseComplete v s = _
      rw [execBootPhaseComplete, if_pos (.inr (by omega))]

end Sys2Proof.Machine
end

section
/-! The life cycle, strip nonces, maker debug and the operator keys (spec/15 R431 to R434, R442). -/

namespace Sys2Proof.Machine

/-! ### The life cycle (spec/15 R431 to R434, R442) -/

/-- A command that the runtime answers, on an open session that waits for nothing, has its own result. -/
theorem rowOf_of_session {s : State} {sess idx sub : Nat} {x : Session} (hup : s.answers = true) (hidle : s.sessionIdle sess = true)
    (hx : s.session sess = some x) (r : Res) : s.rowOf sess idx sub r = r := by
  rw [State.rowOf, if_pos hup, if_pos hidle, State.onSession, if_neg (by simp [hx])]

theorem reg_setReg_ne_idx (s : State) {idx sub idx' sub' : Nat} (v : Nat) (hsub : sub' < 256) (hsub' : sub < 256) (h : idx' ≠ idx) :
    (s.setReg idx sub v).reg idx' sub' = s.reg idx' sub' := by
  refine State.reg_setReg_ne s v ?_
  rw [ne_eq, objKey_inj hsub hsub']
  exact fun hk => h hk.1

theorem reg_setReg_ne_sub (s : State) {idx sub sub' : Nat} (v : Nat) (h : sub' ≠ sub) :
    (s.setReg idx sub v).reg idx sub' = s.reg idx sub' := by
  refine State.reg_setReg_ne s v ?_
  unfold objKey
  omega

/-- The objects after the operator key list is emptied. -/
theorem reg_dropOperatorKeys (s : State) {idx sub : Nat} (hsub : sub < 256) :
    s.dropOperatorKeys.reg idx sub = if idx = 0x1110 ∧ 1 ≤ sub ∧ sub ≤ 4 then 0 else s.reg idx sub := by
  have hset (t : State) {i : Nat} (hi : i < 256) : (t.setReg 0x1110 i 0).reg idx sub = if idx = 0x1110 ∧ sub = i then 0 else t.reg idx sub := by
    split
    · next h => rw [h.1, h.2, State.reg_setReg_self]
    · next h =>
      refine State.reg_setReg_ne t 0 ?_
      rw [ne_eq, objKey_inj hsub hi]
      exact h
  change ([1, 2, 3, 4].foldl (fun (t : State) i => t.setReg 0x1110 i 0) s).reg idx sub = _
  simp only [List.foldl_cons, List.foldl_nil, hset, Nat.reduceLT]
  split_ifs <;> omega

theorem reg_dropNonce (s : State) : s.dropNonce.reg 0x1102 2 = 0 := State.reg_setReg_self ..

theorem lifeCycle_dropNonce (s : State) : s.dropNonce.lifeCycle = s.lifeCycle := State.reg_setReg_ne _ _ (by decide)

/-- Whether a token names the nonce that is held. -/
theorem nonceHeld_iff (s : State) (n : Nat) :
    (match s.stripNonce with
      | none => false
      | some m => n == m.1 && decide (s.timer < m.2)) = true ↔ ∃ t, s.stripNonce = some (n, t) ∧ s.timer < t := by
  cases h : s.stripNonce with
  | none => simp
  | some m =>
    obtain ⟨v, e⟩ := m
    simp only [Bool.and_eq_true, beq_iff_eq, decide_eq_true_eq, Option.some.injEq, Prod.mk.injEq]
    constructor
    · rintro ⟨rfl, he⟩
      exact ⟨e, ⟨rfl, rfl⟩, he⟩
    · rintro ⟨t, ⟨rfl, rfl⟩, he⟩
      exact ⟨rfl, he⟩

section
variable {s : State} {sess : Nat} (hmay : s.mayApply sess 0x1102 0x03 = true) (k : MakerToken)
include hmay

theorem stripToken_of_ok (hl : s.lifeCycle = 2) (hheld : ∃ t, s.stripNonce = some (k.nonce, t) ∧ s.timer < t) (hok : s.tokenOk k 3 = true) :
    s.stripToken sess k = (({ s.dropNonce with transition := true }).setReg 0x1100 0x01 3, .ok) := by
  unfold State.stripToken
  rw [if_neg (by simp [hmay])]
  dsimp only
  rw [if_pos ⟨hl, (nonceHeld_iff s k.nonce).mpr hheld, hok⟩]

theorem stripToken_of_not (h : ¬ (s.lifeCycle = 2 ∧ (∃ t, s.stripNonce = some (k.nonce, t) ∧ s.timer < t) ∧ s.tokenOk k 3 = true)) :
    s.stripToken sess k = (s.dropNonce, .accessDenied) := by
  unfold State.stripToken
  rw [if_neg (by simp [hmay])]
  dsimp only
  rw [if_neg]
  rintro ⟨hl, hheld, hok⟩
  exact h ⟨hl, (nonceHeld_iff s k.nonce).mp hheld, hok⟩

end

/-- An object that a session may not write is refused. -/
theorem writeObject_denied {s : State} {sess : Nat} {x : Session} (hx : s.session sess = some x) {idx sub v : Nat}
    (hno : (s.mayAccess x idx sub true).isNone = true) : s.writeObject sess idx sub v = (s, .accessDenied, 0) := by
  unfold State.writeObject
  rw [hx]
  split
  · next y d hy hd =>
    obtain rfl : x = y := Option.some.inj hy
    rw [Option.isNone_iff_eq_none.mp hno]
  · rfl

section
variable {s : State} {sess : Nat} {x : Session} (hx : s.session sess = some x)
include hx

/-- While the operator list is empty, the first key goes in from a session on the management port. -/
theorem writeOperatorKey_first {d : Nat} (hpath : x.path = .management) (hd : d < 2 ^ 256) (hempty : ∀ i, 1 ≤ i → i ≤ 4 → s.reg 0x1110 i = 0) :
    s.writeOperatorKey sess 1 d = ((s.putReg 0x1110 1 d).setSession sess { x with oper := true }, .ok, d) := by
  unfold State.writeOperatorKey
  rw [hx]
  dsimp only
  rw [if_neg (by decide), if_pos]
  exact ⟨rfl, hpath, by simp [hempty], hd⟩

/-- A session that may not access a slot of a list that is not empty is refused. -/
theorem writeOperatorKey_denied {slot d : Nat} (hlo : 1 ≤ slot) (hhi : slot ≤ 4) (hkeys : ∃ i, 1 ≤ i ∧ i ≤ 4 ∧ s.reg 0x1110 i ≠ 0)
    (hno : (s.mayAccess x 0x1110 slot true).isNone = true) : s.writeOperatorKey sess slot d = (s, .accessDenied, 0) := by
  obtain ⟨i, hi, hi', hreg⟩ := hkeys
  have hfull : [1, 2, 3, 4].all (fun i => s.reg 0x1110 i == 0) = false := by
    rw [List.all_eq_false]
    exact ⟨i, by simp; omega, by simpa using hreg⟩
  unfold State.writeOperatorKey
  rw [hx]
  dsimp only
  rw [if_neg (by omega), if_neg (by simp [hfull])]
  split
  · rfl
  · exact writeObject_denied hx hno

/-- A write that would clear the list is refused. -/
theorem writeOperatorKey_clear {slot : Nat} (hlo : 1 ≤ slot) (hhi : slot ≤ 4) (hmay : s.mayApply sess 0x1110 slot = true)
    (hreg : s.reg 0x1110 slot ≠ 0) (hothers : ∀ i, 1 ≤ i → i ≤ 4 → i ≠ slot → s.reg 0x1110 i = 0) :
    s.writeOperatorKey sess slot 0 = (s, .accessDenied, 0) := by
  have hfull : [1, 2, 3, 4].all (fun i => s.reg 0x1110 i == 0) = false := by
    rw [List.all_eq_false]
    exact ⟨slot, by simp; omega, by simpa using hreg⟩
  have hlast : [1, 2, 3, 4].all (fun i => i == slot || s.reg 0x1110 i == 0) = true := by
    rw [List.all_eq_true]
    intro i hi
    by_cases h : i = slot
    · simp [h]
    · simp [hothers i (by simp at hi; omega) (by simp at hi; omega) h]
  unfold State.writeOperatorKey
  rw [hx]
  dsimp only
  rw [if_neg (by omega), if_neg (by simp [hfull]), if_pos ⟨rfl, hmay, hlast⟩]

end

theorem execOperatorKeyWrite_eq {s : State} {sess slot d : Nat} {x : Session} (hup : s.answers = true) (hidle : s.sessionIdle sess = true)
    (hx : s.session sess = some x) : exec (.operatorKeyWrite sess slot d) s =
      .next ((s.writeOperatorKey sess slot d).1.emit (.wrote sess 0x1110 slot (s.writeOperatorKey sess slot d).2.1)) :=
  rowOf_of_session hup hidle hx _

theorem execTestStation_of_not {s : State} {m : StationMove} (h : s.transition = true ∨ s.power ≠ .running) :
    exec (.testStationTransition m) s = .next s := if_pos h

section
variable {s : State} (hp : s.power = .running) (ht : s.transition = false)
include hp ht

theorem execBareToPrimed (d : Nat) : exec (.testStationTransition (.bareToPrimed d)) s =
    if s.lifeCycle = 0 then .next ({ (s.setReg 0x1100 0x01 1).fuseSeed d with transition := true }) else .next s := by
  have hdue : ¬ (s.transition = true ∨ s.power ≠ .running) := by simp [hp, ht]
  exact if_neg hdue

theorem execPrimedToFinished (k : MakerToken) : exec (.testStationTransition (.primedToFinished k)) s =
    if s.lifeCycle = 1 ∧ s.tokenOk k 2 then
      .next ({ ((s.setReg 0x1100 0x01 2).setReg 0x1100 0x04 0).dropOperatorKeys with transition := true })
    else .next s := by
  have hdue : ¬ (s.transition = true ∨ s.power ≠ .running) := by simp [hp, ht]
  exact if_neg hdue

theorem execStrippedToPrimed (d : Nat) : exec (.testStationTransition (.strippedToPrimed d)) s =
    if s.lifeCycle = 3 ∧ s.reg 0x1100 0x03 < 3 then
      .next ({ ((s.setReg 0x1100 0x01 1).fuseSeed d).setReg 0x1100 0x03 (s.reg 0x1100 0x03 + 1) with transition := true })
    else .next s := by
  have hdue : ¬ (s.transition = true ∨ s.power ≠ .running) := by simp [hp, ht]
  exact if_neg hdue

end

/-- A transition whose state does not fit is not taken. -/
theorem execTestStation_of_unfit {s : State} :
    (∀ d, s.lifeCycle ≠ 0 → exec (.testStationTransition (.bareToPrimed d)) s = .next s) ∧
      ∀ d, 3 ≤ s.reg 0x1100 0x03 → exec (.testStationTransition (.strippedToPrimed d)) s = .next s := by
  by_cases h : s.transition = true ∨ s.power ≠ .running
  · exact ⟨fun d _ => execTestStation_of_not h, fun d _ => execTestStation_of_not h⟩
  · obtain ⟨ht, hp⟩ := not_or.mp h
    rw [Bool.not_eq_true] at ht
    rw [not_not] at hp
    refine ⟨fun d hl => ?_, fun d hn => ?_⟩
    · rw [execBareToPrimed hp ht, if_neg hl]
    · rw [execStrippedToPrimed hp ht, if_neg (by omega)]

theorem execMakerDebugToken_eq (s : State) (k : MakerToken) : exec (.makerDebugToken k) s =
    if s.power = .running ∧ (s.lifeCycle = 1 ∨ s.lifeCycle = 3) ∧ s.tokenOk k Config.debugTarget then .next (s.setReg 0x1100 0x04 1) else .next s := rfl

theorem execStripArm_finished {s : State} {sess : Nat} (hup : s.answers = true) (hidle : s.sessionIdle sess = true)
    (hmay : s.mayApply sess 0x1102 0x01 = true) (hl : s.lifeCycle = 2) :
    let v := s.drawNat.1 % 2 ^ 128
    exec (.stripArm sess) s = .next ((({ s.drawNat.2 with stripNonce := some (v, s.timer + 600000000000) } : State).setReg 0x1102 0x02 v).emit
      (.wrote sess 0x1102 0x01 .ok)) := by
  change s.rowOf sess 0x1102 0x01 _ = _
  rw [rowOf_of_mayApply hup hidle hmay, State.stripArm, if_neg (by simp [hmay]), if_neg (by simp [hl])]
  rfl

theorem execStripArm_not_finished {s : State} {sess : Nat} (hup : s.answers = true) (hidle : s.sessionIdle sess = true)
    (hmay : s.mayApply sess 0x1102 0x01 = true) (hl : s.lifeCycle ≠ 2) : exec (.stripArm sess) s =
      .next ((s.noteRefusal 0x1102 0x01 .accessDenied (s.applyRole sess 0x1102 0x01)).emit (.wrote sess 0x1102 0x01 .accessDenied)) := by
  change s.rowOf sess 0x1102 0x01 _ = _
  rw [rowOf_of_mayApply hup hidle hmay, State.stripArm, if_neg (by simp [hmay]), if_pos hl]
  rfl

theorem execStripToken_of_mayApply {s : State} {sess : Nat} (hup : s.answers = true) (hidle : s.sessionIdle sess = true)
    (hmay : s.mayApply sess 0x1102 0x03 = true) (k : MakerToken) :
    exec (.stripToken sess k) s = .next ((s.stripToken sess k).1.emit (.wrote sess 0x1102 0x03 (s.stripToken sess k).2)) := by
  change s.rowOf sess 0x1102 0x03 _ = _
  rw [rowOf_of_mayApply hup hidle hmay]
  rfl

/-- The fused seed of a device that the test station primes. -/
theorem primed_spec (s : State) (d : Nat) : let t := (s.setReg 0x1100 0x01 1).fuseSeed d
    t.lifeCycle = 1 ∧ t.reg 0x1100 0x02 = d ∧ t.seed = .fused s.drawNat.1 ∧ t.deviceCert = some d :=
  ⟨(reg_setReg_ne_sub _ _ (by decide)).trans (State.reg_setReg_self ..), State.reg_setReg_self .., rfl, rfl⟩

/-- Settles O50: what each command of the life cycle leaves, read from its effect in each state. -/
theorem lifeCycle : Obligations.LifeCycle := by
  refine ⟨fun s sess hup hidle => ⟨fun hmay hl => ?_, execStripArm_not_finished hup hidle, fun k hmay => ?_, fun x d hx hd hpath hempty => ?_,
    fun x slot d hx hlo hhi hkeys hno => ?_, fun x slot hx hlo hhi hmay hreg hothers => ?_⟩, fun s v e hnonce => ⟨fun hlt => ?_, fun hle => ?_⟩,
    fun s k d => ⟨fun hp => ⟨?_, fun m => execTestStation_of_not (.inr hp)⟩, fun hp hl hok => ?_, fun h1 h3 => ?_, fun hp ht hl => ?_,
      execTestStation_of_unfit.1 d, fun hp ht hl hok => ?_, fun hp ht hl hn => ?_, execTestStation_of_unfit.2 d,
      fun ht m => execTestStation_of_not (.inl ht), ?_, ?_⟩⟩
  · refine ⟨_, _, execStripArm_finished hup hidle hmay hl, Nat.mod_lt _ (by decide), rfl, ?_, ?_, rfl, rfl⟩
    · exact State.reg_setReg_self ..
    · exact (State.reg_setReg_ne _ _ (by decide)).trans hl
  · refine ⟨fun hl hheld hok => ?_, fun hno => ?_⟩
    · rw [execStripToken_of_mayApply hup hidle hmay, stripToken_of_ok hmay k hl hheld hok]
      exact ⟨_, rfl, State.reg_setReg_self .., rfl, rfl, rfl⟩
    · rw [execStripToken_of_mayApply hup hidle hmay, stripToken_of_not hmay k hno]
      exact ⟨_, rfl, lifeCycle_dropNonce s, rfl, rfl, reg_dropNonce s, rfl⟩
  · rw [execOperatorKeyWrite_eq hup hidle hx, writeOperatorKey_first hx hpath hd hempty]
    exact ⟨_, _, rfl, State.reg_putReg_self .., State.session_setSession_self .., rfl⟩
  · rw [execOperatorKeyWrite_eq hup hidle hx, writeOperatorKey_denied hx hlo hhi hkeys hno]
  · rw [execOperatorKeyWrite_eq hup hidle hx, writeOperatorKey_clear hx hlo hhi hmay hreg hothers]
  · change execStripNonceExpiry s = _
    rw [execStripNonceExpiry, hnonce]
    exact if_neg (by dsimp only; omega)
  · refine ⟨s.dropNonce, ?_, rfl, reg_dropNonce s⟩
    change execStripNonceExpiry s = _
    rw [execStripNonceExpiry, hnonce]
    exact if_pos hle
  · rw [execMakerDebugToken_eq, if_neg (by simp [hp])]
  · rw [execMakerDebugToken_eq, if_pos ⟨hp, hl, hok⟩]
  · rw [execMakerDebugToken_eq, if_neg (by simp [h1, h3])]
  · obtain ⟨hlc, hid, hseed, hcert⟩ := primed_spec s d
    exact ⟨_, _, (execBareToPrimed hp ht d).trans (if_pos hl), hlc, hid, hseed, hcert, rfl⟩
  · refine ⟨_, (execPrimedToFinished hp ht k).trans (if_pos ⟨hl, hok⟩), ?_, ?_, fun i hlo hhi => ?_, rfl⟩
    · exact (reg_dropOperatorKeys _ (by decide)).trans ((reg_setReg_ne_sub _ _ (by decide)).trans (State.reg_setReg_self ..))
    · exact (reg_dropOperatorKeys _ (by decide)).trans (State.reg_setReg_self ..)
    · exact (reg_dropOperatorKeys _ (by omega)).trans (if_pos ⟨rfl, hlo, hhi⟩)
  · obtain ⟨hlc, hid, hseed, hcert⟩ := primed_spec s d
    refine ⟨_, _, (execStrippedToPrimed hp ht d).trans (if_pos ⟨hl, hn⟩), ?_, hseed, ?_, State.reg_setReg_self .., rfl⟩
    · exact (reg_setReg_ne_sub _ _ (by decide)).trans hlc
    · exact (reg_setReg_ne_sub _ _ (by decide)).trans hid
  · simp [State.debugReaches]
  · simp [State.debugReaches]

end Sys2Proof.Machine
end

section
/-! Sessions, signatures and reports (spec/15 R436, R441, R443, R448 to R450). -/

namespace Sys2Proof.Machine

/-! ### Sessions, signatures and reports (spec/15 R436, R441, R443, R448 to R450) -/

theorem reply_of_open {s : State} {sess : Nat} {x : Session} (hx : s.session sess = some x) (ans : SpdmAns) : s.reply (some sess) ans =
    (s.setSession sess { x with sent := x.sent + chunksOf x.path ans.size }).emit (.secure sess x.sent ans) := by
  rw [State.reply, hx]

theorem reply_of_closed {s : State} {sess : Nat} (hx : s.session sess = none) (ans : SpdmAns) :
    s.reply (some sess) ans = s.emit (.spdm (some sess) ans) := by
  rw [State.reply, hx]

theorem askSign_of_room {s : State} (h : s.signQ.length < 16) (r : SignReq) : s.askSign r = { s with signQ := s.signQ ++ [r] } :=
  if_neg (by omega)

theorem askSign_of_full {s : State} (h : 16 ≤ s.signQ.length) (r : SignReq) : s.askSign r = s.reply r.sess .busy := if_pos h

theorem execKeyExchange_of_heard {s : State} {path : LmpPath} (h : s.heard path = true) (hact : s.activating = none) (ht : s.transition = false)
    (req : Requester) : exec (.keyExchange path req) s =
      if 512 ≤ s.sessionCount then .next (s.emit (.spdm none .sessionLimit))
      else .next (s.askSign { sess := none, path := path, kind := .keyExchange req }) := by
  have hdue : ¬ (!s.heard path || s.activating.isSome || s.transition) = true := by simp [h, hact, ht]
  exact if_neg hdue

section
variable {s : State} {r : SignReq} {rest : List SignReq} (h : s.signQ = r :: rest)
include h

theorem execReportSigned_keyExchange {req : Requester} (hk : r.kind = .keyExchange req) :
    exec .reportSigned s = .next (({ s with signQ := rest } : State).openSession r.path req) := by
  change execReportSigned s = _
  rw [execReportSigned, h]
  dsimp only
  rw [hk]

theorem execReportSigned_challenge {nonce : Nat} (hk : r.kind = .challenge nonce) : exec .reportSigned s =
    .next (({ s with signQ := rest } : State).reply r.sess (.challengeAuth nonce (s.sign (leBytes 32 nonce)))) := by
  change execReportSigned s = _
  rw [execReportSigned, h]
  dsimp only
  rw [hk]

theorem execReportSigned_report {nonce : Nat} {blocks : List (Nat × List Byte)} (hk : r.kind = .report nonce blocks) : exec .reportSigned s =
    .next (({ s with signQ := rest } : State).reply r.sess (.measurements nonce blocks (s.sign (reportMessage nonce blocks)))) := by
  change execReportSigned s = _
  rw [execReportSigned, h]
  dsimp only
  rw [hk]

end

theorem endSession_of_open {s : State} {sess : Nat} {x : Session} (hx : s.session sess = some x) :
    s.endSession sess = ({ s with sessions := s.sessions.erase sess } : State).emit (.spdm (some sess) .ended) := by
  rw [State.endSession, if_pos (by simp [hx])]

theorem endSession_of_closed {s : State} {sess : Nat} (hx : s.session sess = none) : s.endSession sess = s := by
  rw [State.endSession, if_neg (by simp [hx])]

/-- An ended session is gone, and nothing else of the state but the answer changes. -/
theorem endSession_spec {s : State} {sess : Nat} {x : Session} (hx : s.session sess = some x) :
    let t := s.endSession sess
    t.session sess = none ∧ (∀ k, k ≠ sess → t.session k = s.session k) ∧ t.out = .spdm (some sess) .ended :: s.out ∧ t.ctxs = s.ctxs ∧
      t.mem = s.mem := by
  rw [endSession_of_open hx]
  exact ⟨Tbl.find_erase_self .., fun k hk => Tbl.find_erase_ne _ hk, rfl, rfl, rfl⟩

theorem execEndSession_of_talks {s : State} {sess : Nat} (h : s.talks = true) :
    exec (.endSession sess) s = s.onSession sess (.next (s.endSession sess)) := if_pos h

theorem onSession_of_open {s : State} {sess : Nat} {x : Session} (hx : s.session sess = some x) (r : Res) : s.onSession sess r = r := by
  rw [State.onSession, if_neg (by simp [hx])]

theorem onSession_of_closed {s : State} {sess : Nat} (hx : s.session sess = none) (r : Res) :
    s.onSession sess r = .next (s.emit (.spdm (some sess) .invalidSession)) := by
  rw [State.onSession, if_pos (by simp [hx])]

theorem talks_of_up {s : State} (h : s.up = true) : s.talks = true := by
  simp only [State.up, Bool.and_eq_true, decide_eq_true_eq] at h
  obtain ⟨⟨hp, hlo⟩, -⟩ := h
  rw [State.talks, hp, Bool.true_and, decide_eq_true_eq]
  omega

theorem execGetMeasurements_of_silent {s : State} {sess nonce : Nat} (h : s.talks = false) :
    exec (.getMeasurements sess nonce) s = .next s := by
  have hno : (!s.talks) = true := by simp [h]
  exact if_pos hno

theorem execGetMeasurements_of_activating {s : State} {sess nonce : Nat} (h : s.talks = true) (hact : s.activating ≠ none) :
    exec (.getMeasurements sess nonce) s = .next (s.reply (some sess) (.inTransition 250)) := by
  change execGetMeasurements sess nonce s = _
  rw [execGetMeasurements, if_neg (by simp [h]), if_pos (Option.isSome_iff_ne_none.mpr hact)]

section
variable {s : State} {sess nonce : Nat} (h : s.talks = true) (hact : s.activating = none) (ht : s.transition = false)
include h hact ht

theorem execGetMeasurements_of_closed (hx : s.session sess = none) :
    exec (.getMeasurements sess nonce) s = .next (s.emit (.spdm (some sess) .invalidSession)) := by
  change execGetMeasurements sess nonce s = _
  rw [execGetMeasurements, if_neg (by simp [h]), if_neg (by simp [hact]), if_neg (by simp [ht]), hx]

variable {x : Session} (hx : s.session sess = some x) (hup : s.up = true)
include hx hup

/-- A report of an allotment that is being reset is answered in transition. -/
theorem execGetMeasurements_of_resetting {n : Nat} (hn : x.inScope = some n) (hreset : s.reg (0x3100 + n) 0x01 = 2) :
    exec (.getMeasurements sess nonce) s = .next (s.drawNat.2.reply (some sess) (.inTransition (max 1 s.drawNat.1))) := by
  change execGetMeasurements sess nonce s = _
  rw [execGetMeasurements, if_neg (by simp [h]), if_neg (by simp [hact]), if_neg (by simp [ht]), hx]
  dsimp only
  rw [if_neg (by simp [hup]), hn]
  exact if_pos (by simp [hreset])

theorem execGetMeasurements_of_settled (hn : ∀ n, x.inScope = some n → s.reg (0x3100 + n) 0x01 ≠ 2) :
    exec (.getMeasurements sess nonce) s = .next (s.askSign { sess := some sess, path := x.path, kind := .report nonce (s.reportBlocks x) }) := by
  change execGetMeasurements sess nonce s = _
  rw [execGetMeasurements, if_neg (by simp [h]), if_neg (by simp [hact]), if_neg (by simp [ht]), hx]
  dsimp only
  rw [if_neg (by simp [hup]), if_neg]
  split
  · exact Bool.false_ne_true
  · next n hscope => simpa using hn n hscope

end

theorem execChallenge_of_heard {s : State} {path : LmpPath} (h : s.heard path = true) (nonce : Nat) : exec (.challenge path nonce) s =
    if s.activating.isSome then .next (s.emit (.spdm none (.inTransition 250)))
    else .next (s.askSign { sess := none, path := path, kind := .challenge nonce }) := by
  have hdue : ¬ (!s.heard path) = true := by simp [h]
  exact if_neg hdue

theorem one_le_chunksOf (path : LmpPath) (bytes : Nat) : 1 ≤ chunksOf path bytes := Nat.le_max_left 1 _

/-- The session that a signed KEY_EXCHANGE opens, and its roles. -/
theorem openSession_spec (s : State) (path : LmpPath) (req : Requester) : let t := s.openSession path req
    ∃ x, t.session s.nextSess = some x ∧ t.nextSess = s.nextSess + 1 ∧ t.signQ = s.signQ ∧ x.path = path ∧
      (t.holds x .m = true ↔ req.mutualAuth = true ∧ req.maker = true) ∧
      (t.holds x .o = true ↔ req.mutualAuth = true ∧ s.operatorKey req.keyDigest = true) ∧ t.holds x .t = false ∧ t.holds x .f = false ∧
      (∀ k, k ≠ s.nextSess → t.session k = s.session k) ∧ t.out = .spdm (some s.nextSess) .opened :: s.out :=
  ⟨_, Tbl.find_set_self .., rfl, rfl, rfl, Bool.and_eq_true_iff, Bool.and_eq_true_iff, rfl, rfl, fun _ hk => Tbl.find_set_ne _ _ hk, rfl⟩

/-- Settles O51: each request's equation in each state. -/
theorem sessionsAndReports : Obligations.SessionsAndReports := by
  refine ⟨fun s path req hheard hact ht => ?_, fun s r rest hq => ⟨fun req hk => ?_, fun nonce hk => execReportSigned_challenge hq hk,
    fun nonce blocks hk => execReportSigned_report hq hk⟩, fun s ans => ⟨rfl, fun sess => ⟨fun hx => reply_of_closed hx ans, fun x hx => ?_⟩⟩,
    fun s sess nonce x hx => ⟨fun i hi hsilent => ?_, fun hno => ?_, fun hact htalks => execGetMeasurements_of_activating htalks hact,
      fun hact ht hup hroom hn => ?_, fun n hact ht hup hn hreset => ?_⟩, fun s sess nonce hx htalks => ⟨?_, ?_, fun hact ht => ?_⟩,
    fun s path nonce hheard => ?_⟩
  · have hexec := execKeyExchange_of_heard hheard hact ht req
    refine ⟨fun hfull => ?_, fun hfree hroom => ?_, fun hfree hq => ?_⟩
    · rw [hexec, if_pos hfull]
    · rw [hexec, if_neg (by omega), askSign_of_room hroom]
    · rw [hexec, if_neg (by omega), askSign_of_full hq]
      rfl
  · obtain ⟨x, hspec⟩ := openSession_spec { s with signQ := rest } r.path req
    exact ⟨_, x, execReportSigned_keyExchange hq hk, hspec⟩
  · rw [reply_of_open hx]
    refine ⟨_, State.session_setSession_self .., rfl, ?_, rfl, fun k hk => State.session_setSession_ne _ _ hk, rfl⟩
    have hone := one_le_chunksOf x.path ans.size
    dsimp only
    omega
  · refine ⟨s.endSession sess, ?_, endSession_spec hx⟩
    simp only [List.mem_cons, List.not_mem_nil, or_false] at hi
    rcases hi with rfl | rfl
    · rw [execEndSession_of_talks (hsilent rfl), onSession_of_open hx]
    · rfl
  · exact ⟨execGetMeasurements_of_silent hno, if_neg (by simp [hno])⟩
  · rw [execGetMeasurements_of_settled (talks_of_up hup) hact ht hx hup hn, askSign_of_room hroom]
  · refine ⟨_, max 1 s.drawNat.1, Nat.le_max_left .., execGetMeasurements_of_resetting (talks_of_up hup) hact ht hx hup hn hreset, ?_⟩
    rw [reply_of_open (show s.drawNat.2.session sess = some x from hx)]
    rfl
  · rw [execEndSession_of_talks htalks, onSession_of_closed hx]
  · exact congrArg _ (endSession_of_closed hx)
  · exact execGetMeasurements_of_closed htalks hact ht hx
  · have hexec := execChallenge_of_heard hheard nonce
    refine ⟨fun hact hroom => ?_, fun hact hq => ?_, fun hact => ?_⟩
    · rw [hexec, if_neg (by simp [hact]), askSign_of_room hroom]
    · rw [hexec, if_neg (by simp [hact]), askSign_of_full hq]
      rfl
    · rw [hexec, if_pos (Option.isSome_iff_ne_none.mpr hact)]

end Sys2Proof.Machine
end

section
/-! The Lych Gate (spec/15 R448, R454 to R456). -/

namespace Sys2Proof.Machine

/-! ### The Lych Gate (spec/15 R454 to R456) -/

theorem lychOn_of_open {s : State} {sess : Nat} {x : Session} (hup : s.answers = true) (hx : s.session sess = some x) (f : Session → State) :
    s.lychOn sess f = .next (f x) := by
  rw [State.lychOn, if_neg (by simp [hup]), hx]

theorem lych_of_open {s : State} {sess : Nat} {x : Session} (hx : s.session sess = some x) (st : Status) (data : List Byte) :
    s.lych sess st data = (s.setSession sess { x with sent := x.sent + chunksOf x.path (1 + data.length) }).emit (.secure sess x.sent (.lych st data)) :=
  reply_of_open hx _

/-- An answer without data is one secured message. -/
theorem chunksOf_one (path : LmpPath) : chunksOf path (1 + ([] : List Byte).length) = 1 := by
  cases path <;> simp [chunksOf, ceilDiv, dataTransferSize]

/-- t has the associations of s, its streams' descriptors and its queue pairs. -/
def ChannelFrame (s t : State) : Prop :=
  t.qps = s.qps ∧ ∀ b, (t.allot b).macsec = (s.allot b).macsec ∧ ∀ n, (t.stream b n).desc = (s.stream b n).desc

theorem ChannelFrame.refl (s : State) : ChannelFrame s s := ⟨rfl, fun _ => ⟨rfl, fun _ => rfl⟩⟩

theorem ChannelFrame.trans {s t u : State} (h : ChannelFrame s t) (k : ChannelFrame t u) : ChannelFrame s u :=
  ⟨k.1.trans h.1, fun b => ⟨(k.2 b).1.trans (h.2 b).1, fun n => ((k.2 b).2 n).trans ((h.2 b).2 n)⟩⟩

theorem dropPort_channelFrame (s : State) (port reason a : Nat) : ChannelFrame s (s.dropPort port reason a) := by
  unfold State.dropPort
  dsimp only
  split <;> split <;> exact .refl s

theorem popStream_channelFrame (s : State) (a n : Nat) : ChannelFrame s (s.modStream a n Stream.pop) := by
  refine ⟨rfl, fun b => ?_⟩
  unfold State.stream State.modStream
  by_cases hb : b = a
  · subst hb
    rw [State.allot_modAllot_self]
    refine ⟨rfl, fun m => ?_⟩
    by_cases hm : m = n
    · subst hm
      rw [Tbl.get_modify_self]
      rfl
    · rw [Tbl.get_modify_ne _ _ _ hm]
  · rw [State.allot_modAllot_ne _ _ hb]
    exact ⟨rfl, fun _ => rfl⟩

/-- The completions that wait for a queue pair in the error state are dropped: nothing goes out under the channel. -/
theorem flushCompletions_channelFrame {a n : Nat} {qp : Nat} {q : Qp} (fuel : Nat) {s : State} (hq : s.qps.find qp = some q) (herr : q.error = true)
    (hdesc : (s.stream a n).desc.map StreamDesc.cqQp = some qp) : ChannelFrame s (s.flushCompletions a n fuel) := by
  induction fuel generalizing s with
  | zero => exact .refl s
  | succ fuel ih =>
    unfold State.flushCompletions
    dsimp only
    split
    · next c rest d hw hd =>
      have hcq : d.cqQp = qp := by simpa [hd] using hdesc
      rw [hcq, hq]
      dsimp only
      rw [if_pos (.inr herr)]
      have hpop := (popStream_channelFrame s a n).trans (dropPort_channelFrame _ q.port 7 a)
      refine hpop.trans (ih ?_ ?_)
      · rw [hpop.1]
        exact hq
      · rw [(hpop.2 a).2 n]
        exact hdesc
    · exact .refl s

theorem countQps_channelFrame (s : State) (a : Nat) : ChannelFrame s (s.countQps a) := .refl s

theorem foldl_flush_channelFrame {a qp : Nat} {q : Qp} (l : List Nat) {s : State} (hq : s.qps.find qp = some q) (herr : q.error = true)
    (hdesc : ∀ n ∈ l, (s.stream a n).desc.map StreamDesc.cqQp = some qp) : ChannelFrame s (l.foldl (fun t n => t.flush a n) s) := by
  induction l generalizing s with
  | nil => exact .refl s
  | cons n l ih =>
    obtain ⟨hn, hl⟩ := List.forall_mem_cons.mp hdesc
    have hflush : ChannelFrame s (s.flush a n) := flushCompletions_channelFrame _ hq herr hn
    refine hflush.trans (ih ?_ fun m hm => ?_)
    · rw [hflush.1]
      exact hq
    · rw [(hflush.2 a).2 m]
      exact hl m hm

/-- A queue pair that fails is in the error state, and nothing else of the channels changes. -/
theorem failQp_channelFrame {s : State} {qp : Nat} {q : Qp} (hq : s.qps.find qp = some q) :
    ChannelFrame { s with qps := s.qps.set qp { q with error := true } } (s.failQp qp) := by
  unfold State.failQp
  rw [hq]
  dsimp only
  refine (countQps_channelFrame _ q.allot).trans (foldl_flush_channelFrame (q := { q with error := true }) _ (Tbl.find_set_self ..) rfl
    fun n hn => ?_)
  simpa using (List.mem_filter.mp hn).2

theorem failQp_of_none {s : State} {qp : Nat} (hq : s.qps.find qp = none) : s.failQp qp = s := by
  rw [State.failQp, hq]

/-- Queue pairs of t are those of s, but that more of them may be in the error state; the associations are the same. -/
def FailFrame (s t : State) : Prop :=
  (∀ b, (t.allot b).macsec = (s.allot b).macsec) ∧
    ∀ k q, t.qps.find k = some q → ∃ q0, s.qps.find k = some q0 ∧ q = { q0 with error := q.error } ∧ (q0.error = true → q.error = true)

theorem FailFrame.refl (s : State) : FailFrame s s := ⟨fun _ => rfl, fun _ q hq => ⟨q, hq, rfl, id⟩⟩

theorem FailFrame.trans {s t u : State} (h : FailFrame s t) (k : FailFrame t u) : FailFrame s u := by
  refine ⟨fun b => (k.1 b).trans (h.1 b), fun i q hq => ?_⟩
  obtain ⟨q1, hq1, heq1, herr1⟩ := k.2 i q hq
  obtain ⟨q0, hq0, heq0, herr0⟩ := h.2 i q1 hq1
  refine ⟨q0, hq0, ?_, herr1 ∘ herr0⟩
  rw [heq1, heq0]

theorem failQp_spec (s : State) (qp : Nat) : FailFrame s (s.failQp qp) ∧ ∀ q, (s.failQp qp).qps.find qp = some q → q.error = true := by
  cases hq : s.qps.find qp with
  | none =>
    rw [failQp_of_none hq]
    exact ⟨.refl s, fun q h => by rw [hq] at h; cases h⟩
  | some q =>
    obtain ⟨hqps, hallots⟩ := failQp_channelFrame hq
    refine ⟨⟨fun b => (hallots b).1, fun k q' hk => ?_⟩, fun q' hq' => ?_⟩
    · rw [hqps] at hk
      by_cases h : k = qp
      · subst h
        rw [Tbl.find_set_self] at hk
        cases hk
        exact ⟨q, hq, rfl, fun _ => rfl⟩
      · rw [Tbl.find_set_ne _ _ h] at hk
        exact ⟨q', hk, rfl, id⟩
    · rw [hqps, Tbl.find_set_self] at hq'
      cases hq'
      rfl

theorem foldl_failQp_spec (l : List (Nat × Qp)) (s : State) : let t := l.foldl (fun t e => t.failQp e.1) s
    FailFrame s t ∧ ∀ e ∈ l, ∀ q, t.qps.find e.1 = some q → q.error = true := by
  induction l generalizing s with
  | nil => exact ⟨.refl s, by simp⟩
  | cons e l ih =>
    obtain ⟨hone, herr⟩ := failQp_spec s e.1
    obtain ⟨hframe, hall⟩ := ih (s.failQp e.1)
    refine ⟨hone.trans hframe, List.forall_mem_cons.mpr ⟨fun q hq => ?_, hall⟩⟩
    obtain ⟨q0, hq0, -, hkeep⟩ := hframe.2 e.1 q hq
    exact hkeep (herr q0 hq0)

/-- The queue pairs of an allotment that its first key ends. -/
def State.failUnprotected (s : State) (n : Nat) : State :=
  (s.qps.filter (fun e => e.2.allot == n && !e.2.isProtected)).foldl (fun t e => t.failQp e.1) s

theorem failUnprotected_spec (s : State) (n : Nat) :
    (∀ b, ((s.failUnprotected n).allot b).macsec = (s.allot b).macsec) ∧
      ∀ k q, (s.failUnprotected n).qps.find k = some q → q.allot = n → q.isProtected = false → q.error = true := by
  obtain ⟨hframe, hall⟩ := foldl_failQp_spec (s.qps.filter (fun e => e.2.allot == n && !e.2.isProtected)) s
  refine ⟨hframe.1, fun k q hq hallot hprot => ?_⟩
  obtain ⟨q0, hq0, heq, -⟩ := hframe.2 k q hq
  rw [heq] at hallot hprot
  exact hall (k, q0) (List.mem_filter.mpr ⟨Tbl.mem_of_find hq0, by simpa using ⟨hallot, hprot⟩⟩) q hq

/-- The session that a claim binds is answered with one secured message. -/
theorem bound_lych (s : State) (sess n : Nat) (x : Session) : let t := (s.setSession sess { x with bound := some n }).lych sess .ok
    t.session sess = some { x with bound := some n, sent := x.sent + 1 } ∧ t.out = .secure sess x.sent (.lych .ok []) :: s.out ∧
      ∀ k, t.keeper k = s.keeper k := by
  rw [lych_of_open (State.session_setSession_self ..), chunksOf_one]
  exact ⟨State.session_setSession_self .., rfl, fun _ => rfl⟩

section
variable {s : State} {sess : Nat} {x : Session} (hup : s.answers = true) (hx : s.session sess = some x)
include hup hx

/-- A claim is refused of a session that is not authenticated, outside Finished, of allotment 0, by a session bound elsewhere, and of an
allotment that another keeps. -/
theorem execLychClaim_denied {n : Nat} (h : x.authed = false ∨ s.lifeCycle ≠ 2 ∨ n = 0 ∨ (∃ m, x.bound = some m ∧ m ≠ n) ∨
    (s.keeper n ≠ 0 ∧ s.keeper n ≠ x.keyDigest)) : exec (.lychClaim sess n) s = .next (s.lych sess .accessDenied) := by
  change s.lychOn sess _ = _
  rw [lychOn_of_open hup hx]
  refine congrArg _ (if_pos ?_)
  rcases h with h | h | h | ⟨m, hm, hne⟩ | ⟨h0, hne⟩
  · simp [h]
  · simp [h]
  · simp [h]
  · simp [hm, hne]
  · simp [h0, hne]

/-- A claim of a free allotment, which the session's key then keeps, or of one that it keeps. -/
theorem execLychClaim_bound {n : Nat} (hauth : x.authed = true) (hl : s.lifeCycle = 2) (hn0 : n ≠ 0) (hn : n < 256) (hbound : x.bound = none)
    (hmine : (s.reg (0x3100 + n) 0x01 = 1 ∧ s.keeper n = 0) ∨ (s.keeper n ≠ 0 ∧ s.keeper n = x.keyDigest)) :
    exec (.lychClaim sess n) s = .next (((if s.keeper n = 0 then s.setReg 0x1122 n x.keyDigest else s).setSession sess
      { x with bound := some n }).lych sess .ok) := by
  change s.lychOn sess _ = _
  rw [lychOn_of_open hup hx]
  dsimp only
  rw [hbound, if_neg]
  · rcases hmine with ⟨hfree, h0⟩ | ⟨h0, -⟩
    · rw [if_pos (by simp [hfree, h0]), if_pos h0]
    · rw [if_neg (by simp [h0]), if_neg h0]
  · rcases hmine with ⟨hfree, h0⟩ | ⟨h0, heq⟩
    · simp [hauth, hl, hn0, hn, hfree, h0]
    · simp [hauth, hl, hn0, hn, heq ▸ h0, heq]

theorem execLychScope_eq (n : Nat) : exec (.lychScope sess n) s = .next (if x.oper && decide (n < 256) then
    (s.setSession sess { x with scope := some n }).lych sess .ok else s.lych sess .accessDenied) := lychOn_of_open hup hx _

section
variable {n : Nat} (hbound : x.bound = some n)
include hbound

theorem execLychKey_eq (g : W32) : let m' := (s.allot n).macsec.rekey (leBytes 32 (Config.exportSecret sess)) n g.toNat s.timer
    let s1 := (s.modAllot n (fun y => { y with macsec := m' })).setReg 0x1123 n (0x80 + m'.an)
    exec (.lychKey sess g) s = .next ((if (s.allot n).macsec.keyed then s1 else s1.failUnprotected n).lych sess .ok (leBytes 1 m'.an)) := by
  intro m' s1
  change s.lychOn sess _ = _
  rw [lychOn_of_open hup hx, hbound]
  rfl

theorem execLychLog_eq (w : Bool) (first : W64) (count : Nat) :
    let m := if w then (s.allot n).weightLog else (s.allot n).programLog
    let got := (List.range count).map (fun i => m.entryAt (first.toNat + i))
    exec (.lychLog sess w first count) s = .next (if count = 0 ∨ 64 < count ∨ got.any Option.isNone then s.lych sess .accessDenied
      else s.lych sess .ok (got.filterMap id).flatten) := by
  intro m got
  change s.lychOn sess _ = _
  rw [lychOn_of_open hup hx, hbound]

theorem execLychRelease_eq : exec (.lychRelease sess) s =
    .next (((s.lych sess .ok).setReg 0x1122 n 0).endSessions (fun y => y.bound == some n)) := by
  change s.lychOn sess _ = _
  rw [lychOn_of_open hup hx, hbound]

end

/-- A session that is bound to no allotment is refused the rest. -/
theorem lych_unbound (hbound : x.bound = none) (g : W32) (w : Bool) (first : W64) (count : Nat) :
    exec (.lychKey sess g) s = .next (s.lych sess .accessDenied) ∧
      exec (.lychLog sess w first count) s = .next (s.lych sess .accessDenied) ∧
      exec (.lychRelease sess) s = .next (s.lych sess .accessDenied) := by
  refine ⟨?_, ?_, ?_⟩
  all_goals
    change s.lychOn sess _ = _
    rw [lychOn_of_open hup hx, hbound]

end

/-! Sessions that end together. -/

theorem mem_erase_iff {α : Type} {t : Tbl α} {a : Nat} {e : Nat × α} : e ∈ t.erase a ↔ e ∈ t ∧ e.1 ≠ a := by
  induction t with
  | nil => simp [Tbl.erase]
  | cons f t ih =>
    obtain ⟨k, w⟩ := f
    rw [Tbl.erase]
    by_cases h : k = a
    · rw [if_pos h, ih, List.mem_cons]
      constructor
      · exact fun he => ⟨.inr he.1, he.2⟩
      · rintro ⟨rfl | he, hne⟩
        · exact absurd h hne
        · exact ⟨he, hne⟩
    · rw [if_neg h, List.mem_cons, List.mem_cons, ih]
      constructor
      · rintro (rfl | he)
        · exact ⟨.inl rfl, h⟩
        · exact ⟨.inr he.1, he.2⟩
      · rintro ⟨rfl | he, hne⟩
        · exact .inl rfl
        · exact .inr ⟨he, hne⟩

theorem find_none_iff {α : Type} {t : Tbl α} {a : Nat} : t.find a = none ↔ ∀ e ∈ t, e.1 ≠ a := by
  induction t with
  | nil => simp [Tbl.find]
  | cons f t ih =>
    obtain ⟨k, w⟩ := f
    rw [Tbl.find]
    by_cases h : k = a
    · simp [h]
    · simp [h, ih]

/-- The end of a session takes its entries away. -/
theorem mem_sessions_endSession {s : State} {n : Nat} {e : Nat × Session} : e ∈ (s.endSession n).sessions ↔ e ∈ s.sessions ∧ e.1 ≠ n := by
  cases h : s.session n with
  | none =>
    rw [endSession_of_closed h]
    exact ⟨fun he => ⟨he, find_none_iff.mp h e he⟩, And.left⟩
  | some x =>
    rw [endSession_of_open h]
    exact mem_erase_iff

theorem session_endSession_ne (s : State) {n k : Nat} (hk : k ≠ n) : (s.endSession n).session k = s.session k := by
  cases h : s.session n with
  | none => rw [endSession_of_closed h]
  | some x =>
    rw [endSession_of_open h]
    exact Tbl.find_erase_ne _ hk

theorem keeper_endSession (s : State) (n k : Nat) : (s.endSession n).keeper k = s.keeper k := by
  unfold State.endSession
  split <;> rfl

theorem foldl_endSession_spec (l : List (Nat × Session)) (s : State) : let t := l.foldl (fun t e => t.endSession e.1) s
    (∀ e, e ∈ t.sessions ↔ e ∈ s.sessions ∧ ∀ f ∈ l, e.1 ≠ f.1) ∧ (∀ k, (∀ f ∈ l, k ≠ f.1) → t.session k = s.session k) ∧
      ∀ k, t.keeper k = s.keeper k := by
  induction l generalizing s with
  | nil => simp
  | cons f l ih =>
    obtain ⟨hmem, hsession, hkeeper⟩ := ih (s.endSession f.1)
    refine ⟨fun e => ?_, fun k hk => ?_, fun k => (hkeeper k).trans (keeper_endSession s f.1 k)⟩
    · rw [List.foldl_cons, hmem, mem_sessions_endSession, List.forall_mem_cons, and_assoc]
    · obtain ⟨hf, hl⟩ := List.forall_mem_cons.mp hk
      exact (hsession k hl).trans (session_endSession_ne s hf)

/-- No session that a test picks is left, and one none of whose entries it picks is as before. -/
theorem endSessions_spec (s : State) (p : Session → Bool) : let t := s.endSessions p
    (∀ e ∈ t.sessions, p e.2 = false) ∧ (∀ k, (∀ e ∈ s.sessions, e.1 = k → p e.2 = false) → t.session k = s.session k) ∧
      ∀ k, t.keeper k = s.keeper k := by
  obtain ⟨hmem, hsession, hkeeper⟩ := foldl_endSession_spec (s.sessions.filter (fun e => p e.2)) s
  refine ⟨fun e he => ?_, fun k hk => hsession k fun f hf hkf => ?_, hkeeper⟩
  · obtain ⟨he, hno⟩ := (hmem e).mp he
    by_contra hp
    exact hno e (List.mem_filter.mpr ⟨he, by simpa using hp⟩) rfl
  · obtain ⟨hf, hp⟩ := List.mem_filter.mp hf
    rw [hk f hf hkf.symm] at hp
    exact Bool.false_ne_true hp

/-! Associations. -/

theorem rekey_unkeyed {m : Macsec} (h : m.keyed = false) (secret : List Byte) (n g now : Nat) :
    (m.rekey secret n g now).an = 0 ∧ (m.rekey secret n g now).old = [] := by
  simp [Macsec.rekey, h]

theorem rekey_keyed {m : Macsec} (h : m.keyed = true) (secret : List Byte) (n g now : Nat) : let m' := m.rekey secret n g now
    m'.an = (m.an + 1) % 4 ∧ (m.an < 4 → m'.old.find m.an = some (now + 1000000000) ∧ m'.keys.find m.an = m.keys.find m.an) ∧
      ∀ k, k ≠ m.an → k ≠ (m.an + 1) % 4 → m'.old.find k = m.old.find k ∧ m'.keys.find k = m.keys.find k := by
  unfold Macsec.rekey
  simp only [h, if_true]
  refine ⟨trivial, fun hlt => ?_, fun k hk hne => ?_⟩
  · have hne : m.an ≠ (m.an + 1) % 4 := by omega
    exact ⟨(Tbl.find_erase_ne _ hne).trans (Tbl.find_set_self ..), Tbl.find_set_ne _ _ hne⟩
  · exact ⟨(Tbl.find_erase_ne _ hne).trans (Tbl.find_set_ne _ _ hk), Tbl.find_set_ne _ _ hne⟩

/-- An association whose second has passed is received no longer, and another stays. -/
theorem expire_spec {m : Macsec} {an t0 : Nat} (h : m.old.find an = some t0) (now : Nat) :
    (now < t0 → (m.expire now).old.find an = some t0 ∧ (m.expire now).keys.find an = m.keys.find an) ∧
      (t0 ≤ now → (m.expire now).old.find an = none ∧ (m.expire now).keys.find an = none) := by
  have hget : Tbl.get 0 m.old an = t0 := by rw [Tbl.get, h, Option.getD_some]
  have hkeys : an ∈ m.old.keys := List.mem_map.mpr ⟨_, Tbl.mem_of_find h, rfl⟩
  unfold Macsec.expire
  dsimp only
  rw [Tbl.find_drop, Tbl.find_drop]
  constructor
  · intro hlt
    rw [if_neg (by simp [hget]; omega), if_neg (by simp [hget]; omega)]
    exact ⟨h, rfl⟩
  · intro hle
    rw [if_pos (by simp [hget, hkeys, hle]), if_pos (by simp [hget, hkeys, hle])]
    exact ⟨rfl, rfl⟩

theorem allot_lych (s : State) (sess : Nat) (st : Status) (data : List Byte) (b : Nat) : (s.lych sess st data).allot b = s.allot b := by
  unfold State.lych State.reply
  split
  · rfl
  · split <;> rfl

theorem qps_lych (s : State) (sess : Nat) (st : Status) (data : List Byte) : (s.lych sess st data).qps = s.qps := by
  unfold State.lych State.reply
  split
  · rfl
  · split <;> rfl

theorem holds_t_of_keeper {t : State} {y : Session} {n : Nat} (hauth : y.authed = true) (hbound : y.bound = some n)
    (hkeeper : t.keeper n = y.keyDigest) (h0 : y.keyDigest ≠ 0) : t.holds y .t = true := by
  simp [State.holds, hbound, hauth, hkeeper, h0]

/-- Settles O52: each message's equation, and what keys, expiries and releases leave of associations and sessions. -/
theorem lychGate : Obligations.LychGate := by
  intro s sess x hup hx
  refine ⟨fun n hauth hl hn0 hn hbound => ⟨fun hfree h0 => ?_, fun h0 hmine => ?_, fun h0 hne => ?_⟩, fun n h => ?_, fun n m hm hne => ?_,
    fun n hn => ⟨fun hoper => ?_, fun hoper => ?_⟩, fun n g hbound => ?_, fun n w first count hbound => ?_, fun n hbound => ?_, fun hbound => ?_,
    fun n an t0 hold => ?_⟩
  · refine ⟨_, execLychClaim_bound hup hx hauth hl hn0 hn hbound (.inl ⟨hfree, h0⟩), ?_⟩
    rw [if_pos h0]
    obtain ⟨hsession, hout, hkeeper⟩ := bound_lych (s.setReg 0x1122 n x.keyDigest) sess n x
    exact ⟨(hkeeper n).trans (State.reg_setReg_self ..), hsession, hout⟩
  · refine ⟨_, execLychClaim_bound hup hx hauth hl hn0 hn hbound (.inr ⟨h0, hmine⟩), ?_⟩
    rw [if_neg h0]
    obtain ⟨hsession, hout, hkeeper⟩ := bound_lych s sess n x
    have hkeep := (hkeeper n).trans hmine
    refine ⟨hkeep, hsession, ?_⟩
    exact holds_t_of_keeper hauth rfl hkeep (hmine ▸ h0)
  · exact execLychClaim_denied hup hx (.inr (.inr (.inr (.inr ⟨h0, hne⟩))))
  · exact execLychClaim_denied hup hx (h.imp_right (Or.imp_right .inl))
  · exact execLychClaim_denied hup hx (.inr (.inr (.inr (.inl ⟨m, hm, hne⟩))))
  · rw [execLychScope_eq hup hx, if_pos (by simp [hoper, hn])]
  · rw [execLychScope_eq hup hx, if_neg (by simp [hoper])]
  · intro m
    refine ⟨_, execLychKey_eq hup hx hbound g, ?_⟩
    rw [allot_lych, qps_lych]
    set m' := m.rekey (leBytes 32 (Config.exportSecret sess)) n g.toNat s.timer with hm'
    set s1 := (s.modAllot n (fun y => { y with macsec := m' })).setReg 0x1123 n (0x80 + m'.an)
    obtain ⟨hassoc, hfailed⟩ := failUnprotected_spec s1 n
    have hmac : (s1.allot n).macsec = m' := by
      change ((s.modAllot n (fun y => { y with macsec := m' })).allot n).macsec = m'
      rw [State.allot_modAllot_self]
    have hsame : ((if m.keyed = true then s1 else s1.failUnprotected n).allot n).macsec = m' := by
      split
      · exact hmac
      · exact (hassoc n).trans hmac
    change ((if m.keyed = true then s1 else s1.failUnprotected n).allot n).macsec.keyed = true ∧ _
    rw [hsame]
    refine ⟨rfl, rfl, fun hkeyed => ?_, fun hkeyed => ?_⟩
    · obtain ⟨han, hold⟩ := rekey_unkeyed hkeyed (leBytes 32 (Config.exportSecret sess)) n g.toNat s.timer
      rw [if_neg (by simp [m, hkeyed])]
      exact ⟨han, hold, hfailed⟩
    · obtain ⟨han, hcurrent, hothers⟩ := rekey_keyed hkeyed (leBytes 32 (Config.exportSecret sess)) n g.toNat s.timer
      refine ⟨han, hcurrent, hothers, ?_⟩
      rw [if_pos hkeyed]
      rfl
  · intro m got
    have hexec := execLychLog_eq hup hx hbound w first count
    refine ⟨fun hlo hhi hall => ?_, fun hout => ?_⟩
    · rw [hexec, if_neg]
      rintro (h | h | h)
      · omega
      · omega
      · obtain ⟨e, he, hnone⟩ := List.any_eq_true.mp h
        have hsome := hall e he
        rw [Option.isNone_iff_eq_none.mp hnone] at hsome
        exact Bool.false_ne_true hsome
    · rw [hexec, if_pos (hout.imp_right .inl)]
  · refine ⟨_, execLychRelease_eq hup hx hbound, ?_⟩
    obtain ⟨hgone, hkept, hkeeper⟩ := endSessions_spec ((s.lych sess .ok).setReg 0x1122 n 0) (fun y => y.bound == some n)
    refine ⟨(hkeeper n).trans (State.reg_setReg_self ..), fun e he => by simpa using hgone e he, fun k hk => ?_⟩
    have hne : k ≠ sess := fun h => hk (sess, x) (Tbl.mem_of_find hx) h.symm hbound
    have hsessions : (s.lych sess .ok).sessions =
        s.sessions.set sess { x with sent := x.sent + chunksOf x.path (1 + ([] : List Byte).length) } := by
      rw [lych_of_open hx]
      rfl
    have hsession : (s.lych sess .ok).session k = s.session k := by
      rw [State.session, hsessions]
      exact Tbl.find_set_ne _ _ hne
    refine (hkept k fun e he hek => ?_).trans hsession
    rcases Tbl.mem_set (hsessions ▸ he) with rfl | he
    · exact absurd hek.symm hne
    · simpa using hk e he hek
  · exact fun g w first count => lych_unbound hup hx hbound g w first count
  · obtain ⟨hlater, hpast⟩ := expire_spec hold s.timer
    refine ⟨_, rfl, ?_⟩
    rw [State.allot_modAllot_self]
    exact ⟨rfl, hlater, hpast⟩

end Sys2Proof.Machine
end

section
/-! Firmware: stage, activate, commit, discard (spec/16 R479, spec/15 R440, R443, R451). -/

namespace Sys2Proof.Machine

/-! ### Firmware updates (spec/16 R479, spec/15 R440, R443, R451) -/

/-- t differs from s in nothing but the sessions and what is sent. -/
def SessionsFrame (s t : State) : Prop := t = { s with sessions := t.sessions, out := t.out }

theorem SessionsFrame.refl (s : State) : SessionsFrame s s := rfl

theorem SessionsFrame.trans {s t u : State} (h : SessionsFrame s t) (k : SessionsFrame t u) : SessionsFrame s u := by
  unfold SessionsFrame at *
  rw [k, h]

theorem reply_frame (s : State) (sess : Option Nat) (ans : SpdmAns) : SessionsFrame s (s.reply sess ans) := by
  unfold State.reply
  split
  · rfl
  · split <;> rfl

theorem endSession_frame (s : State) (n : Nat) : SessionsFrame s (s.endSession n) := by
  unfold State.endSession
  split <;> rfl

theorem endSessions_frame (s : State) (p : Session → Bool) : SessionsFrame s (s.endSessions p) :=
  foldl_frame (R := SessionsFrame) .refl .trans (fun t (e : Nat × Session) => endSession_frame t e.1) _ s

theorem dropSigning_frame (s : State) : SessionsFrame { s with signQ := [] } s.dropSigning :=
  foldl_frame (R := SessionsFrame) .refl .trans (fun t (r : SignReq) => reply_frame t r.sess (.inTransition 250)) _ _

theorem endSessions_all (s : State) : (s.endSessions (fun _ => true)).sessions = [] := by
  obtain ⟨hgone, -, -⟩ := endSessions_spec s (fun _ => true)
  exact List.eq_nil_iff_forall_not_mem.mpr fun e he => Bool.false_ne_true (hgone e he).symm

/-- What putting fields in force changes: objects, the session that asks, and what waits for the boot flash. -/
def FieldsFrame (s t : State) : Prop := t = { s with regs := t.regs, flashWait := t.flashWait, sessions := t.sessions }

theorem FieldsFrame.refl (s : State) : FieldsFrame s s := rfl

theorem FieldsFrame.trans {s t u : State} (h : FieldsFrame s t) (k : FieldsFrame t u) : FieldsFrame s u := by
  unfold FieldsFrame at *
  rw [k, h]

theorem putFields_frame (s : State) (vals : List (Nat × Nat × Nat)) : FieldsFrame s (s.putFields vals) := by
  refine foldl_frame (R := FieldsFrame) .refl .trans (fun t e => ?_) vals s
  split
  · rfl
  · unfold State.putReg
    dsimp only
    split <;> rfl

theorem sessions_putFields (s : State) (vals : List (Nat × Nat × Nat)) : (s.putFields vals).sessions = s.sessions := by
  refine foldl_frame (R := fun s t => t.sessions = s.sessions) (fun _ => rfl) (fun h k => k.trans h) (fun t e => ?_) vals s
  split
  · rfl
  · unfold State.putReg
    dsimp only
    split <;> rfl

theorem takeFields_frame (s : State) (sess idx sub : Nat) (vals : List (Nat × Nat × Nat)) : FieldsFrame s (s.takeFields sess idx sub vals) := by
  refine (putFields_frame s vals).trans ?_
  unfold FieldsFrame State.takeFields State.dropPend
  rw [(State.modSession_spec ..).1]

theorem sessions_takeFields_of_none {s : State} (h : s.sessions = []) (sess idx sub : Nat) (vals : List (Nat × Nat × Nat)) :
    (s.takeFields sess idx sub vals).sessions = [] := by
  have hput : (s.putFields vals).sessions = [] := (sessions_putFields s vals).trans h
  have hnone : (s.putFields vals).session sess = none := by rw [State.session, hput, Tbl.find_nil]
  rw [State.takeFields, State.dropPend, (State.modSession_spec ..).2.2.1 hnone, hput]

section
variable {s : State} {sess : Nat} (hhears : s.hears = true) (hidle : s.sessionIdle sess = true) (hmay : s.mayApply sess 0x7F00 0x04 = true)
include hhears hidle hmay

/-- A firmware action that the session's fields name applies it. -/
theorem fwApplied_of_action {k : Nat} (hk : s.applying sess 0x7F00 2 = k) :
    s.fwApplied sess k = .next ((s.applyFw sess).1.emit (.wrote sess 0x7F00 0x04 (s.applyFw sess).2)) := by
  have hsess : ¬ (s.session sess).isNone = true := by
    intro hnone
    rw [State.mayApply, Option.isNone_iff_eq_none.mp hnone] at hmay
    exact Bool.false_ne_true hmay
  rw [State.fwApplied, if_pos (by simp [hhears, hidle]), State.onSession, if_neg hsess, if_pos hk]
  rfl

/-- The refusal of a firmware action: it is recorded, and nothing else changes. -/
theorem fwApplied_refused {k : Nat} (hk : s.applying sess 0x7F00 2 = k)
    (hdo : s.fwDo k (s.applying sess 0x7F00 1) (s.applying sess 0x7F00 3) = none) : s.fwApplied sess k =
      .next (((s.noteRefusal 0x7F00 0x04 .accessDenied (s.applyRole sess 0x7F00 0x04)).setReg 0x7F00 0x05 (stCode .accessDenied)).emit
        (.wrote sess 0x7F00 0x04 .accessDenied)) := by
  rw [fwApplied_of_action hhears hidle hmay hk, State.applyFw, if_neg (by simp [hmay])]
  dsimp only
  rw [hk, hdo]

/-- A firmware action that is done puts the fields in force after its own effect. -/
theorem fwApplied_some {k : Nat} (hk : s.applying sess 0x7F00 2 = k) {u : State}
    (hdo : s.fwDo k (s.applying sess 0x7F00 1) (s.applying sess 0x7F00 3) = some u) : s.fwApplied sess k =
      .next (((u.takeFields sess 0x7F00 0x04 [(0x7F00, 1, s.applying sess 0x7F00 1), (0x7F00, 2, k), (0x7F00, 3, s.applying sess 0x7F00 3)]).setReg
        0x7F00 0x05 (stCode .ok)).emit (.wrote sess 0x7F00 0x04 .ok)) := by
  rw [fwApplied_of_action hhears hidle hmay hk, State.applyFw, if_neg (by simp [hmay])]
  dsimp only
  rw [hk, hdo]

end

/-- What the fields of a firmware action leave of its effect. -/
theorem fwFields_spec (u : State) (sess k c len : Nat) : let t := u.takeFields sess 0x7F00 0x04 [(0x7F00, 1, c), (0x7F00, 2, k), (0x7F00, 3, len)]
    FieldsFrame u t ∧ t.reg 0x7F00 2 = k ∧
      (∀ idx sub, sub < 256 → (idx ≠ 0x7F00 ∨ 5 < sub) → t.reg idx sub = u.reg idx sub) ∧ (u.sessions = [] → t.sessions = []) := by
  refine ⟨takeFields_frame .., ?_, fun idx sub hsub h => ?_, fun hnone => sessions_takeFields_of_none hnone ..⟩
  · rw [reg_takeFields]
    exact reg_putFields_of_mem (by simp [objKey_inj]) u (by simp)
  · have hne : ∀ j, j < 6 → objKey idx sub ≠ objKey 0x7F00 j := fun j hj => by
      rw [ne_eq, objKey_inj hsub (by omega)]
      omega
    rw [reg_takeFields]
    refine reg_putFields_of_ne (fun e he => ?_) u
    simp only [List.mem_cons, List.not_mem_nil, or_false] at he
    rcases he with rfl | rfl | rfl
    · exact hne 1 (by decide)
    · exact hne 2 (by decide)
    · exact hne 3 (by decide)

/-- What a firmware action that is done leaves of its own effect. -/
theorem fwApplied_done {s : State} {sess : Nat} (hhears : s.hears = true) (hidle : s.sessionIdle sess = true)
    (hmay : s.mayApply sess 0x7F00 0x04 = true) {k : Nat} (hk : s.applying sess 0x7F00 2 = k) {u : State}
    (hdo : s.fwDo k (s.applying sess 0x7F00 1) (s.applying sess 0x7F00 3) = some u) : ∃ t, s.fwApplied sess k = .next t ∧
      t = { u with regs := t.regs, flashWait := t.flashWait, sessions := t.sessions, out := .wrote sess 0x7F00 0x04 .ok :: u.out } ∧
      t.reg 0x7F00 2 = k ∧ (∀ idx sub, sub < 256 → (idx ≠ 0x7F00 ∨ 5 < sub) → t.reg idx sub = u.reg idx sub) ∧
      (u.sessions = [] → t.sessions = []) := by
  obtain ⟨hframe, hsub2, hregs, hsessions⟩ := fwFields_spec u sess k (s.applying sess 0x7F00 1) (s.applying sess 0x7F00 3)
  refine ⟨_, fwApplied_some hhears hidle hmay hk hdo, ?_⟩
  generalize u.takeFields sess 0x7F00 0x04 [(0x7F00, 1, s.applying sess 0x7F00 1), (0x7F00, 2, k), (0x7F00, 3, s.applying sess 0x7F00 3)] = t at *
  refine ⟨?_, (reg_setReg_ne_sub t _ (by decide)).trans hsub2, fun idx sub hsub h => ?_, hsessions⟩
  · rw [hframe]
    rfl
  · have hne : objKey idx sub ≠ objKey 0x7F00 5 := by
      rw [ne_eq, objKey_inj hsub (by decide)]
      omega
    exact (State.reg_setReg_ne t _ hne).trans (hregs idx sub hsub h)

theorem reg_showStaged (s : State) : s.showStaged.reg 0x7F00 6 = (s.staged.getD { component := 0, digest := 0, svn := 0 }).component ∧
    s.showStaged.reg 0x7F00 8 = (s.staged.getD { component := 0, digest := 0, svn := 0 }).svn := by
  refine ⟨?_, State.reg_setReg_self ..⟩
  unfold State.showStaged
  dsimp only
  rw [reg_setReg_ne_sub _ _ (by decide), reg_setReg_ne_sub _ _ (by decide), State.reg_setReg_self]

theorem reg_fwCommit (s : State) (comp : Nat) : (s.fwCommit comp).reg 0x1101 comp = max (s.reg 0x1101 comp) (s.component comp).2 := by
  unfold State.fwCommit
  split
  · next h => rw [State.reg_setReg_self, Nat.max_eq_right (Nat.le_of_lt h)]
  · next h => rw [Nat.max_eq_left (Nat.le_of_not_lt h)]

theorem staged_fwCommit (s : State) (comp : Nat) : (s.fwCommit comp).staged = s.staged := by
  unfold State.fwCommit
  split <;> rfl

/-- An activation of the staged runtime begins: every session and every request for signing has ended. -/
theorem fwActivate_spec {s : State} {g : Staged} (hg : s.staged = some g) (hcomp : g.component = 3) (hup : s.up = true) :
    ∃ u, s.fwActivate 3 = some u ∧ u.activating = some s.timer ∧ u.sessions = [] ∧ u.signQ = [] ∧ u.stripNonce = none ∧ u.ctxs = s.ctxs ∧
      u.mem = s.mem := by
  refine ⟨({ s.dropNonce.dropSigning with activating := some s.timer } : State).endSessions (fun _ => true), ?_, ?_⟩
  · rw [State.fwActivate, hg]
    exact if_pos ⟨rfl, hcomp, hup⟩
  · have hend := endSessions_frame ({ s.dropNonce.dropSigning with activating := some s.timer } : State) (fun _ => true)
    have hdrop := dropSigning_frame s.dropNonce
    have hsessions := endSessions_all ({ s.dropNonce.dropSigning with activating := some s.timer } : State)
    refine ⟨?_, hsessions, ?_, ?_, ?_, ?_⟩
    · rw [hend]
    · rw [hend]
      dsimp only
      rw [hdrop]
    · rw [hend]
      dsimp only
      rw [hdrop]
      rfl
    · rw [hend]
      dsimp only
      rw [hdrop]
      rfl
    · rw [hend]
      dsimp only
      rw [hdrop]
      rfl

/-- The staged runtime runs, once an activation is done. -/
def State.activated (s : State) (g : Staged) : State :=
  ({ s with activating := none, staged := none, components := s.components.set g.component (g.digest, g.svn) } : State).showStaged

theorem execLiveActivationDone_eq {s : State} {t0 : Nat} {g : Staged} (hact : s.activating = some t0) (hg : s.staged = some g) :
    exec .liveActivationDone s = .next (if (s.activated g).resetPending then (s.activated g).runReset else (s.activated g).resume) := by
  change execLiveActivationDone s = _
  rw [execLiveActivationDone, hact, hg]
  rfl

/-- The image that a STAGE stages. -/
def State.newImage (s : State) (comp len svn : Nat) : Staged :=
  { component := comp, digest := sha256Nat (leBytes len (s.fwBuffer % 2 ^ (8 * len))), svn := svn }

theorem fwStage_of_bad {s : State} {comp len : Nat} (h : Config.imageSvn comp (s.fwBuffer % 2 ^ (8 * len)) len = none) :
    s.fwStage comp len = none := by
  rw [State.fwStage, h]

theorem fwStage_of_good {s : State} {comp len svn : Nat} (h : Config.imageSvn comp (s.fwBuffer % 2 ^ (8 * len)) len = some svn) :
    s.fwStage comp len = if svn < s.reg 0x1101 comp then none
      else some ({ s with staged := some (s.newImage comp len svn) } : State).showStaged := by
  rw [State.fwStage, h]
  rfl

/-- Settles O53: each action's own effect, with its fields in force, or the refusal that is recorded. -/
theorem firmwareUpdates : Obligations.FirmwareUpdates := by
  refine ⟨fun s sess comp len hhears hidle hmay hcomp _ hlen => ⟨fun hk => ⟨fun hbad => ?_, fun svn hgood => ⟨fun hold => ?_, fun hnew => ?_⟩⟩,
    fun hk => ⟨fun hno => ?_, fun g hg hthree hgcomp hup => ?_⟩, fun hk => ?_, fun hk => ?_⟩, fun s t0 g hact hg => ⟨fun hno => ?_, fun hpending => ?_⟩,
    fun s hact => ?_⟩
  · refine fwApplied_refused hhears hidle hmay hk ?_
    rw [← hcomp, ← hlen]
    exact fwStage_of_bad hbad
  · refine fwApplied_refused hhears hidle hmay hk ?_
    rw [← hcomp, ← hlen]
    exact (fwStage_of_good hgood).trans (if_pos hold)
  · have hdo : s.fwDo 1 (s.applying sess 0x7F00 1) (s.applying sess 0x7F00 3) =
        some ({ s with staged := some (s.newImage comp len svn) } : State).showStaged := by
      rw [← hcomp, ← hlen]
      exact (fwStage_of_good hgood).trans (if_neg (by omega))
    obtain ⟨t, hexec, hframe, hsub2, hregs, -⟩ := fwApplied_done hhears hidle hmay hk hdo
    obtain ⟨hsix, height⟩ := reg_showStaged ({ s with staged := some (s.newImage comp len svn) } : State)
    refine ⟨t, hexec, ?_, (hregs _ _ (by decide) (by omega)).trans hsix, (hregs _ _ (by decide) (by omega)).trans height, hsub2, ?_, ?_⟩
    · rw [hframe]
      rfl
    · rw [hframe]
      rfl
    · rw [hframe]
      rfl
  · refine fwApplied_refused hhears hidle hmay hk ?_
    rw [← hcomp, ← hlen]
    change s.fwActivate comp = none
    rw [State.fwActivate]
    rcases hno with hno | hno
    · rw [hno]
    · split
      · rfl
      · exact if_neg fun h => hno h.1
  · obtain ⟨u, hdo, hact, hsessions, hsign, hnonce, hctxs, hmem⟩ := fwActivate_spec hg hgcomp hup
    have hdo' : s.fwDo 2 (s.applying sess 0x7F00 1) (s.applying sess 0x7F00 3) = some u := by
      rw [← hcomp, hthree]
      exact hdo
    obtain ⟨t, hexec, hframe, -, -, hgone⟩ := fwApplied_done hhears hidle hmay hk hdo'
    refine ⟨t, hexec, ?_, hgone hsessions, ?_, ?_, ?_, ?_⟩
    · rw [hframe]
      exact hact
    · rw [hframe]
      exact hsign
    · rw [hframe]
      exact hnonce
    · rw [hframe]
      exact hctxs
    · rw [hframe]
      exact hmem
  · have hdo : s.fwDo 3 (s.applying sess 0x7F00 1) (s.applying sess 0x7F00 3) = some (s.fwCommit comp) := by
      rw [← hcomp]
      rfl
    obtain ⟨t, hexec, hframe, -, hregs, -⟩ := fwApplied_done hhears hidle hmay hk hdo
    refine ⟨t, hexec, (hregs _ _ (by omega) (.inl (by decide))).trans (reg_fwCommit s comp), ?_⟩
    rw [hframe]
    exact staged_fwCommit s comp
  · have hdo : s.fwDo 4 (s.applying sess 0x7F00 1) (s.applying sess 0x7F00 3) = some ({ s with staged := none } : State).showStaged := rfl
    obtain ⟨t, hexec, hframe, -, hregs, -⟩ := fwApplied_done hhears hidle hmay hk hdo
    refine ⟨t, hexec, ?_, (hregs _ _ (by decide) (by omega)).trans (reg_showStaged _).1, ?_⟩
    · rw [hframe]
      rfl
    · rw [hframe]
      rfl
  · refine ⟨s.activated g, ?_, rfl, rfl, ?_, rfl, rfl, rfl⟩
    · rw [execLiveActivationDone_eq hact hg, if_neg]
      change ¬ s.resetPending = true
      simp [hno]
    · change ((s.components.set g.component (g.digest, g.svn)).find g.component).getD _ = _
      rw [Tbl.find_set_self]
      rfl
  · refine ⟨(s.activated g).deviceReset .running 0x03, ?_, ?_, reg_cause_deviceReset ..⟩
    · rw [execLiveActivationDone_eq hact hg, if_pos (show (s.activated g).resetPending = true from hpending), State.runReset,
        if_pos ⟨hpending, rfl⟩]
    · rw [deviceReset_eq]
  · change execLiveActivationDone s = _
    rw [execLiveActivationDone, hact]

end Sys2Proof.Machine
end

section
/-! Host ports: what drops, failing queue pairs and ended jobs leave (spec/17 R489, R502). -/

namespace Sys2Proof.Machine

/-! ### Ports: what drops, failing queue pairs and ended jobs leave of a port's objects (spec/17 R489, R502) -/

/-- The objects of the four ports, but for the count of drops, are the same. -/
def PortsKept (s t : State) : Prop := ∀ p sub, p < 4 → sub < 256 → sub ≠ 0x0E → t.portReg p sub = s.portReg p sub

theorem PortsKept.refl (s : State) : PortsKept s s := fun _ _ _ _ _ => rfl

theorem PortsKept.trans {s t u : State} (h : PortsKept s t) (k : PortsKept t u) : PortsKept s u :=
  fun p sub hp hsub hne => (k p sub hp hsub hne).trans (h p sub hp hsub hne)

theorem PortsKept.of_regs {s t : State} (h : t.regs = s.regs) : PortsKept s t := fun p sub _ _ _ => by
  rw [State.portReg, State.reg, h]
  rfl

/-- An object set that is none of a port's. -/
theorem setReg_portsKept (s : State) (idx sub v : Nat) (h : ∀ p sub', p < 4 → sub' < 256 → sub' ≠ 0x0E → objKey (0x2001 + p) sub' ≠ objKey idx sub) :
    PortsKept s (s.setReg idx sub v) := fun p sub' hp hsub hne => State.reg_setReg_ne s v (h p sub' hp hsub hne)

theorem logEvent_portsKept (s : State) (e : Event) : PortsKept s (s.logEvent e) := by
  refine (setReg_portsKept _ 0x7000 0x02 _ fun p sub hp hsub _ => ?_).trans (setReg_portsKept _ 0x7000 0x01 _ fun p sub hp hsub _ => ?_)
  all_goals
    rw [ne_eq, objKey_inj hsub (by decide)]
    omega

theorem dropPort_portsKept (s : State) (port reason a : Nat) : PortsKept s (s.dropPort port reason a) := by
  have hbump : PortsKept s (s.bumpReg (0x2001 + port) 0x0E 1) := setReg_portsKept _ _ _ _ fun p sub hp hsub hne => by
    rw [ne_eq, objKey_inj hsub (by decide)]
    exact fun h => hne h.2
  unfold State.dropPort
  dsimp only
  refine hbump.trans ?_
  split <;> split
  · exact logEvent_portsKept _ _
  · exact .refl _
  · exact logEvent_portsKept _ _
  · exact .refl _

theorem meter_portsKept (s : State) (a n : Nat) : PortsKept s (s.bumpReg (0x3100 + a) 0x22 n) := setReg_portsKept _ _ _ _ fun p sub hp hsub _ => by
  rw [ne_eq, objKey_inj hsub (by decide)]
  omega

theorem countQps_portsKept (s : State) (a : Nat) : PortsKept s (s.countQps a) := by
  refine (setReg_portsKept _ 0x2000 0x02 _ fun p sub hp hsub _ => ?_).trans (setReg_portsKept _ 0x2011 a _ fun p sub hp hsub _ => ?_)
  · rw [ne_eq, objKey_inj hsub (by decide)]
    omega
  · unfold objKey
    omega

theorem regs_sendQp (s : State) (qp : Nat) (o : Out) (bytes : Nat) : (s.sendQp qp o bytes).regs = s.regs := by
  unfold State.sendQp
  split
  · rfl
  · dsimp only
    split
    · rfl
    · split <;> rfl

theorem sendQp_portsKept {s u : State} (hu : u.regs = s.regs) (qp : Nat) (o : Out) (bytes : Nat) : PortsKept s (u.sendQp qp o bytes) :=
  .of_regs ((regs_sendQp u qp o bytes).trans hu)

theorem flushCompletions_portsKept (a n fuel : Nat) (s : State) : PortsKept s (s.flushCompletions a n fuel) := by
  induction fuel generalizing s with
  | zero => exact .refl s
  | succ fuel ih =>
    have hpop : PortsKept s (s.modStream a n Stream.pop) := .of_regs rfl
    unfold State.flushCompletions
    dsimp only
    split
    · split
      · split
        · exact (hpop.trans (dropPort_portsKept _ _ _ _)).trans (ih _)
        · split
          · refine PortsKept.trans ?_ (ih _)
            refine PortsKept.trans ?_ (meter_portsKept _ _ _)
            exact sendQp_portsKept rfl _ _ _
          · exact .refl s
      · exact (hpop.trans (dropPort_portsKept _ _ _ _)).trans (ih _)
    · exact .refl s

theorem post_portsKept (s : State) (a n : Nat) (c : Completion) : PortsKept s (s.post a n c) :=
  (PortsKept.of_regs rfl : PortsKept s (s.modStream a n _)).trans (flushCompletions_portsKept _ _ _ _)

theorem failQp_portsKept (s : State) (qp : Nat) : PortsKept s (s.failQp qp) := by
  unfold State.failQp
  split
  · exact .refl s
  · next q hq =>
    dsimp only
    exact ((PortsKept.of_regs rfl : PortsKept s { s with qps := s.qps.set qp { q with error := true } }).trans (countQps_portsKept _ _)).trans
      (foldl_frame (R := PortsKept) .refl .trans (fun t n => flushCompletions_portsKept _ _ _ _) _ _)

/-- What dividing the Carters' blocks changes: their jobs, turns and caches. -/
def CartersFrame (s t : State) : Prop := t = { s with jobs := t.jobs, carterTurn := t.carterTurn, carterCaches := t.carterCaches }

theorem CartersFrame.refl (s : State) : CartersFrame s s := rfl

theorem CartersFrame.trans {s t u : State} (h : CartersFrame s t) (k : CartersFrame t u) : CartersFrame s u := by
  unfold CartersFrame at *
  rw [k, h]

theorem fillCarter_frame (p fuel : Nat) (s : State) : CartersFrame s (s.fillCarter p fuel) := by
  induction fuel generalizing s with
  | zero => exact .refl s
  | succ fuel ih =>
    unfold State.fillCarter
    split
    · exact .refl s
    · split
      · exact .refl s
      · exact CartersFrame.trans (t := _) (rfl : CartersFrame s { s with jobs := _, carterTurn := _ }) (ih _)

theorem startRecheck_frame (s : State) : CartersFrame s s.startRecheck := by
  unfold State.startRecheck
  repeat' split
  all_goals rfl

theorem divideCache_frame (s : State) (p : Nat) : CartersFrame s (s.divideCache p) := by
  unfold State.divideCache
  dsimp only
  split <;> rfl

theorem fillCarters_frame (s : State) : CartersFrame s s.fillCarters :=
  (startRecheck_frame s).trans (foldl_frame (R := CartersFrame) .refl .trans
    (fun t p => (divideCache_frame t p).trans (fillCarter_frame p 4 _)) _ _)

theorem loseJob_spec (s : State) (e : Nat × Job) :
    let t := match e.2.larder with
      | none => s.endJob e.1 e.2 e.2.blocks .memberLost
      | some w => s.workEnds e.1 w.1 .memberLost
    t.qps = s.qps ∧ PortsKept s t := by
  split
  · have hpost := post_frame { s with jobs := s.jobs.erase e.1 } e.2.allot e.2.stream
      { cookie := e.2.rec'.cookie, count := e.2.blocks, status := .memberLost, kind := 0x4 }
    exact ⟨by rw [State.endJob, State.postJob, hpost], (PortsKept.of_regs rfl : PortsKept s { s with jobs := s.jobs.erase e.1 }).trans (post_portsKept _ _ _ _)⟩
  · unfold State.workEnds State.modEntry
    split
    · exact ⟨rfl, .of_regs rfl⟩
    · exact ⟨rfl, .of_regs rfl⟩

theorem loseJobs_spec (s : State) (on : Nat → Bool) : (s.loseJobs on).qps = s.qps ∧ PortsKept s (s.loseJobs on) := by
  unfold State.loseJobs
  have hfold := foldl_frame (R := fun s t : State => t.qps = s.qps ∧ PortsKept s t) (fun s => ⟨rfl, .refl s⟩)
    (fun h k => ⟨k.1.trans h.1, h.2.trans k.2⟩) loseJob_spec (s.jobs.filter (fun e => e.2.onQp && on e.2.rec'.qp)) s
  have hcarters (t : State) : t.fillCarters.qps = t.qps ∧ PortsKept t t.fillCarters := by
    have h := fillCarters_frame t
    exact ⟨by rw [h], .of_regs (by rw [h])⟩
  obtain ⟨hqps, hports⟩ := hcarters _
  exact ⟨hqps.trans hfold.1, hfold.2.trans hports⟩

/-- A queue pair that is found is found in the error state or as it was, after pairs fail. -/
theorem failQp_find (s : State) (qp : Nat) {k : Nat} {q : Qp} (hq : s.qps.find k = some q) :
    ∃ y, (s.failQp qp).qps.find k = some y ∧ y = { q with error := y.error } ∧ (q.error = true → y.error = true) ∧ (k = qp → y.error = true) := by
  cases hqp : s.qps.find qp with
  | none =>
    rw [failQp_of_none hqp]
    refine ⟨q, hq, rfl, id, fun hk => ?_⟩
    rw [hk, hqp] at hq
    cases hq
  | some q' =>
    rw [(failQp_channelFrame hqp).1]
    by_cases hk : k = qp
    · subst hk
      rw [hqp] at hq
      cases hq
      exact ⟨_, Tbl.find_set_self .., rfl, fun _ => rfl, fun _ => rfl⟩
    · exact ⟨q, (Tbl.find_set_ne _ _ hk).trans hq, rfl, id, fun h => absurd h hk⟩

theorem foldl_failQp_find (l : List Nat) (s : State) {k : Nat} {q : Qp} (hq : s.qps.find k = some q) :
    ∃ y, (l.foldl (fun t n => t.failQp n) s).qps.find k = some y ∧ (q.error = true → y.error = true) ∧ (k ∈ l → y.error = true) := by
  induction l generalizing s q with
  | nil => exact ⟨q, hq, id, by simp⟩
  | cons n l ih =>
    obtain ⟨y, hy, -, hkeep, hself⟩ := failQp_find s n hq
    obtain ⟨z, hz, hkeep', hmem⟩ := ih (s.failQp n) hy
    refine ⟨z, hz, hkeep' ∘ hkeep, fun hk => ?_⟩
    rcases List.mem_cons.mp hk with rfl | hk
    · exact hkeep' (hself rfl)
    · exact hmem hk

/-- The queue pairs of a port, as a port that goes dark finds them. -/
def State.portQps (s : State) (p : Nat) : List Nat := (s.qps.filter (fun e => e.2.port == p)).map Prod.fst

theorem mem_portQps {s : State} {p k : Nat} {q : Qp} (hq : s.qps.find k = some q) (hp : q.port = p) : k ∈ s.portQps p :=
  List.mem_map.mpr ⟨(k, q), List.mem_filter.mpr ⟨Tbl.mem_of_find hq, by simpa using hp⟩, rfl⟩

theorem foldl_failQp_portsKept (l : List Nat) (s : State) : PortsKept s (l.foldl (fun t n => t.failQp n) s) :=
  foldl_frame (R := PortsKept) .refl .trans failQp_portsKept l s

theorem foldl_failQp_frame (l : List Nat) (s : State) : FailFrame s (l.foldl (fun t n => t.failQp n) s) :=
  foldl_frame (R := FailFrame) .refl .trans (fun t n => (failQp_spec t n).1) l s

/-- A port taken dark with its queue pairs in the error state. -/
def State.failPort (s : State) (p : Nat) : State := (s.portQps p).foldl (fun t n => t.failQp n) (s.setReg (0x2001 + p) 0x02 0)

theorem darkPort_keeps (s : State) (p : Nat) : (s.darkPort p).qps = ((s.failPort p).loseJobs (fun q => (s.portQps p).contains q)).qps ∧
    (s.darkPort p).regs = ((s.failPort p).loseJobs (fun q => (s.portQps p).contains q)).regs := by
  unfold State.darkPort State.failPort State.portQps
  dsimp only
  exact ⟨rfl, rfl⟩

theorem failPort_find (s : State) {p k : Nat} {q : Qp} (hq : s.qps.find k = some q) (hport : q.port = p) :
    ∃ y, (s.failPort p).qps.find k = some y ∧ y.error = true := by
  obtain ⟨y, hy, -, herr⟩ := foldl_failQp_find (s.portQps p) (s.setReg (0x2001 + p) 0x02 0) hq
  exact ⟨y, hy, herr (mem_portQps hq hport)⟩

/-- A dark port's status, and its queue pairs, all of which err. -/
theorem darkPort_spec (s : State) {p : Nat} (hp : p < 4) :
    (s.darkPort p).portReg p 2 = 0 ∧
      (∀ k q, s.qps.find k = some q → q.port = p → ∃ y, (s.darkPort p).qps.find k = some y ∧ y.error = true) ∧
      ∀ k q, (s.darkPort p).qps.find k = some q → q.port = p → q.error = true := by
  obtain ⟨hqps, hports⟩ := loseJobs_spec (s.failPort p) (fun q => (s.portQps p).contains q)
  obtain ⟨hdark, hregs⟩ := darkPort_keeps s p
  rw [hdark, hqps]
  refine ⟨?_, fun k q hq hport => failPort_find s hq hport, fun k q hq hport => ?_⟩
  · have hkept := ((foldl_failQp_portsKept (s.portQps p) (s.setReg (0x2001 + p) 0x02 0)).trans hports).trans (.of_regs hregs)
    exact (hkept p 2 hp (by decide) (by decide)).trans (State.reg_setReg_self ..)
  · obtain ⟨q0, hq0, heq, -⟩ := (foldl_failQp_frame (s.portQps p) (s.setReg (0x2001 + p) 0x02 0)).2 k q hq
    rw [heq] at hport
    obtain ⟨y, hy, herr⟩ := failPort_find s hq0 hport
    rw [hq] at hy
    cases hy
    exact herr

end Sys2Proof.Machine
end

section
/-! Applies of settings (spec/16 R472). -/

namespace Sys2Proof.Machine

/-! ### Applies of settings (spec/16 R472) -/

theorem find_putFields_of_ne {vals : List (Nat × Nat × Nat)} {k : Nat} (h : ∀ e ∈ vals, k ≠ objKey e.1 e.2.1) (s : State) :
    (s.putFields vals).regs.find k = s.regs.find k := by
  induction vals generalizing s with
  | nil => rfl
  | cons e vals ih =>
    obtain ⟨he, hvals⟩ := List.forall_mem_cons.mp h
    refine (ih hvals _).trans ?_
    dsimp only
    split
    · rfl
    · rw [(State.putReg_spec s e.1 e.2.1 e.2.2).1, Tbl.find_set_ne _ _ he]

theorem regs_takeFields (s : State) (sess idx sub : Nat) (vals : List (Nat × Nat × Nat)) :
    (s.takeFields sess idx sub vals).regs = (s.putFields vals).regs := by
  rw [State.takeFields, State.dropPend, (State.modSession_spec ..).1]

/-- The fields of an apply, with the values that it takes. -/
def State.fieldsOf (s : State) (sess idx : Nat) (fields : List Nat) : List (Nat × Nat × Nat) := fields.map (fun i => (idx, i, s.applying sess idx i))

theorem fieldsOf_pairwise (s : State) (sess idx : Nat) {fields : List Nat} (hnodup : fields.Nodup) :
    (s.fieldsOf sess idx fields).Pairwise fun e f => objKey e.1 e.2.1 ≠ objKey f.1 f.2.1 := by
  refine List.pairwise_map.mpr (hnodup.imp fun {i j} hne => ?_)
  change idx * 256 + i ≠ idx * 256 + j
  omega

/-- What an apply that takes its fields leaves: those fields with their values, every other object, and the answer. -/
theorem takeFields_applied (s : State) (sess idx sub : Nat) {fields : List Nat} (hnodup : fields.Nodup) :
    let t := (s.takeFields sess idx sub (s.fieldsOf sess idx fields)).emit (.wrote sess idx sub .ok)
    (∀ i ∈ fields, t.reg idx i = s.applying sess idx i) ∧ (∀ k, (∀ i ∈ fields, k ≠ objKey idx i) → t.regs.find k = s.regs.find k) ∧
      t.out = .wrote sess idx sub .ok :: s.out ∧
      t = { s with regs := t.regs, flashWait := t.flashWait, sessions := t.sessions, out := t.out } := by
  have hframe := takeFields_frame s sess idx sub (s.fieldsOf sess idx fields)
  refine ⟨fun i hi => ?_, fun k hk => ?_, ?_, ?_⟩
  · exact (reg_takeFields ..).trans (reg_putFields_of_mem (fieldsOf_pairwise s sess idx hnodup) s (List.mem_map.mpr ⟨i, hi, rfl⟩))
  · rw [State.emit_regs, regs_takeFields]
    refine find_putFields_of_ne (fun e he => ?_) s
    obtain ⟨i, hi, rfl⟩ := List.mem_map.mp he
    exact hk i hi
  · rw [State.emit_out, hframe]
  · generalize s.takeFields sess idx sub (s.fieldsOf sess idx fields) = t at hframe
    rw [hframe]
    rfl

theorem applyPlain_of_mayApply {s : State} {sess idx sub : Nat} (hmay : s.mayApply sess idx sub = true) (fields : List Nat) :
    s.applyPlain sess idx sub fields = (s.takeFields sess idx sub (s.fieldsOf sess idx fields), .ok) := by
  rw [State.applyPlain, if_neg (by simp [hmay])]
  rfl

theorem applyPlain_of_not {s : State} {sess idx sub : Nat} (hmay : s.mayApply sess idx sub = false) (fields : List Nat) :
    s.applyPlain sess idx sub fields = (s, .accessDenied) := by
  rw [State.applyPlain, if_pos (by simp [hmay])]

theorem applying_of_pending {s : State} {sess idx i v : Nat} {x : Session} (hx : s.session sess = some x)
    (hv : x.pend.find (objKey idx i) = some v) : s.applying sess idx i = if (s.grantOf x idx i true).isSome then v else s.reg idx i := by
  rw [State.applying, hx]
  dsimp only
  rw [hv]

/-! Flits that leave change the links, what waits for them and what is sent. -/

def DrainFrame (s t : State) : Prop := t = { s with links := t.links, flitWait := t.flitWait, out := t.out }

theorem DrainFrame.refl (s : State) : DrainFrame s s := rfl

theorem DrainFrame.trans {s t u : State} (h : DrainFrame s t) (k : DrainFrame t u) : DrainFrame s u := by
  unfold DrainFrame at *
  rw [k, h]

theorem transmit_frame (s : State) (l : Nat) (f : Flit) (up : Bool) : DrainFrame s (s.transmit l f up) := rfl

theorem modLink_frame (s : State) (l : Nat) (f : Link → Link) : DrainFrame s (s.modLink l f) := rfl

theorem returnCredits_frame (l fuel : Nat) (s : State) : DrainFrame s (s.returnCredits l fuel) := by
  induction fuel generalizing s with
  | zero => exact .refl s
  | succ fuel ih =>
    unfold State.returnCredits
    split
    · exact (transmit_frame s l _ _).trans (ih _)
    · exact .refl s

theorem leaveBy_frame (s : State) (i l : Nat) (w : WaitFlit) : DrainFrame s (s.leaveBy i l w) := by
  have hsend : DrainFrame s (({ s with flitWait := s.flitWait.eraseIdx i } : State).transmit l (s.marked l w.flit) w.mayUp) := rfl
  unfold State.leaveBy
  dsimp only
  generalize ({ s with flitWait := s.flitWait.eraseIdx i } : State).transmit l (s.marked l w.flit) w.mayUp = t at *
  refine hsend.trans ?_
  split <;> split <;> rfl

theorem giveSlots_frame (fuel : Nat) (s : State) : DrainFrame s (s.giveSlots fuel) := by
  induction fuel generalizing s with
  | zero => exact .refl s
  | succ fuel ih =>
    unfold State.giveSlots
    split
    · exact .refl s
    · exact (leaveBy_frame s _ _ _).trans (ih _)

theorem drainFlits_frame (s : State) : DrainFrame s s.drainFlits := by
  have hescape : DrainFrame s { s with flitWait := s.flitWait.map s.escapeOnly } := rfl
  refine (hescape.trans (giveSlots_frame _ _)).trans (foldl_frame (R := DrainFrame) .refl .trans (fun t e => ?_) _ _)
  split
  · exact returnCredits_frame ..
  · exact .refl t

theorem routes_publishRoutes (s : State) : s.publishRoutes.routes = s.routes := by
  refine foldl_frame (R := fun s t : State => t.routes = s.routes) (fun _ => rfl) (fun h k => k.trans h) (fun t h => ?_) (List.range 512) s
  dsimp only
  split <;> split <;> rfl

theorem routes_modSession (s : State) (n : Nat) (f : Session → Session) : (s.modSession n f).routes = s.routes := by
  rw [(State.modSession_spec ..).1]

theorem wrote_mk (t : State) (st : Status) (sess idx sub : Nat) : State.wrote (t, st) sess idx sub = .next (t.emit (.wrote sess idx sub st)) := rfl

theorem noteClamp_keeps (s : State) (idx sub old new : Nat) (r : Role) :
    (s.noteClamp idx sub old new r).out = s.out := by
  have hlog : ∀ fuel, (s.logClamp idx sub old new (roleCode r) fuel).out = s.out := by
    intro fuel
    induction fuel with
    | zero => rfl
    | succ fuel ih =>
      unfold State.logClamp
      dsimp only
      split
      · exact ih
      · exact ih
  exact hlog 4

section
variable {s : State} {sess : Nat} (hup : s.answers = true) (hidle : s.sessionIdle sess = true)
include hup hidle

/-- A plain apply of a session that may write it. -/
theorem execPlain_applied {idx sub : Nat} {fields : List Nat} (hmay : s.mayApply sess idx sub = true) :
    s.rowOf sess idx sub (State.wrote (s.applyPlain sess idx sub fields) sess idx sub) =
      .next ((s.takeFields sess idx sub (s.fieldsOf sess idx fields)).emit (.wrote sess idx sub .ok)) := by
  rw [rowOf_of_mayApply hup hidle hmay, applyPlain_of_mayApply hmay]
  rfl

/-- An apply without the right is refused. -/
theorem rowOf_denied {x : Session} (hx : s.session sess = some x) {idx sub : Nat} {r : State × Status} (hr : r = (s, .accessDenied)) :
    s.rowOf sess idx sub (State.wrote r sess idx sub) = .next (s.emit (.wrote sess idx sub .accessDenied)) := by
  rw [rowOf_of_session hup hidle hx, hr]
  rfl

theorem settings_denied {x : Session} (hx : s.session sess = some x) :
    ∀ c ∈ ([(.powerApply sess, 0x1200, 0x05), (.mgmtPortApply sess, 0x20F0, 0x06), (.thermalApply sess, 0x1210, 0x0D),
        (.fabricApply sess, 0x2100, 0x09), (.routesApply sess, 0x2184, 0x01), (.hostPortApply sess 0, 0x2001, 0x0D),
        (.hostPortApply sess 1, 0x2002, 0x0D), (.hostPortApply sess 2, 0x2003, 0x0D), (.hostPortApply sess 3, 0x2004, 0x0D),
        (.setpointApply sess 0, 0x1201, 0x04), (.setpointApply sess 1, 0x1202, 0x04), (.setpointApply sess 2, 0x1203, 0x04),
        (.setpointApply sess 3, 0x1204, 0x04)] : List (Instr × Nat × Nat)),
      s.mayApply sess c.2.1 c.2.2 = false → exec c.1 s = .next (s.emit (.wrote sess c.2.1 c.2.2 .accessDenied)) := by
  have hport : ∀ p, s.mayApply sess (0x2001 + p) 0x0D = false → s.applyPort sess p = (s, .accessDenied) := fun p h => by
    rw [State.applyPort]
    exact if_pos (by simp [h])
  have hset : ∀ w, w < 4 → s.mayApply sess (0x1201 + w) 0x04 = false → s.applySetpoint sess w = (s, .accessDenied) := fun w hw h => by
    rw [State.applySetpoint]
    dsimp only
    rw [if_neg (by omega), applyPlain_of_not h]
    exact if_pos (by simp)
  intro c hc h
  simp only [List.mem_cons, List.not_mem_nil, or_false] at hc
  rcases hc with rfl | rfl | rfl | rfl | rfl | rfl | rfl | rfl | rfl | rfl | rfl | rfl | rfl
  · exact rowOf_denied hup hidle hx (applyPlain_of_not h _)
  · exact rowOf_denied hup hidle hx (applyPlain_of_not h _)
  · exact rowOf_denied hup hidle hx (if_pos (by simpa using h))
  · exact rowOf_denied hup hidle hx (if_pos (by simpa using h))
  · exact rowOf_denied hup hidle hx (if_pos (by simpa using h))
  · exact rowOf_denied hup hidle hx (hport 0 h)
  · exact rowOf_denied hup hidle hx (hport 1 h)
  · exact rowOf_denied hup hidle hx (hport 2 h)
  · exact rowOf_denied hup hidle hx (hport 3 h)
  · exact rowOf_denied hup hidle hx (hset 0 (by decide) h)
  · exact rowOf_denied hup hidle hx (hset 1 (by decide) h)
  · exact rowOf_denied hup hidle hx (hset 2 (by decide) h)
  · exact rowOf_denied hup hidle hx (hset 3 (by decide) h)

end

/-! Host ports. -/

/-- The settings of a host port. -/
def portFields : List Nat := [1, 4, 5, 6, 7, 8, 9, 0x0A, 0x0B, 0x0C]

/-- A port's settings put in force: the port's status and the phase of the boot are as before. -/
theorem portFields_spec (s : State) (sess p : Nat) :
    let u := s.takeFields sess (0x2001 + p) 0x0D (s.fieldsOf sess (0x2001 + p) portFields)
    u.portReg p 1 = s.applying sess (0x2001 + p) 1 ∧ u.portReg p 2 = s.portReg p 2 ∧ u.reg 0x1300 2 = s.reg 0x1300 2 := by
  have hnodup : portFields.Nodup := by decide
  have hother : ∀ idx sub, (∀ i ∈ portFields, objKey idx sub ≠ objKey (0x2001 + p) i) →
      (s.putFields (s.fieldsOf sess (0x2001 + p) portFields)).reg idx sub = s.reg idx sub := fun idx sub h =>
    reg_putFields_of_ne (fun e he => by
      obtain ⟨i, hi, rfl⟩ := List.mem_map.mp he
      exact h i hi) s
  have hlt : ∀ i ∈ portFields, i < 256 ∧ i ≠ 2 := by decide
  refine ⟨?_, ?_, ?_⟩
  · exact (reg_takeFields ..).trans (reg_putFields_of_mem (fieldsOf_pairwise s sess _ hnodup) s (List.mem_map.mpr ⟨1, by decide, rfl⟩))
  · refine (reg_takeFields ..).trans (hother _ _ fun i hi => ?_)
    rw [ne_eq, objKey_inj (by decide) (hlt i hi).1]
    exact fun h => (hlt i hi).2 h.2.symm
  · refine (reg_takeFields ..).trans (hother _ _ fun i hi => ?_)
    rw [ne_eq, objKey_inj (by decide) (hlt i hi).1]
    omega

section
variable {s : State} {sess p : Nat} (hp : p < 4) (hmay : s.mayApply sess (0x2001 + p) 0x0D = true)
include hp hmay

theorem applyPort_off (hoff : s.applying sess (0x2001 + p) 1 = 0) :
    let u := s.takeFields sess (0x2001 + p) 0x0D (s.fieldsOf sess (0x2001 + p) portFields)
    s.applyPort sess p = (if s.portReg p 2 = 0 then u else u.darkPort p, .ok) := by
  obtain ⟨hone, htwo, -⟩ := portFields_spec s sess p
  intro u
  rw [State.applyPort]
  dsimp only
  rw [if_neg (by simp [hmay, hp])]
  exact (if_pos (hone.trans hoff)).trans (by rw [← htwo]; rfl)

theorem applyPort_on (hon : s.applying sess (0x2001 + p) 1 ≠ 0) :
    let u := s.takeFields sess (0x2001 + p) 0x0D (s.fieldsOf sess (0x2001 + p) portFields)
    s.applyPort sess p = if s.portReg p 2 = 0 ∧ 6 ≤ s.reg 0x1300 2 then (u.setReg (0x2001 + p) 0x02 1, .ok) else (u, .ok) := by
  obtain ⟨hone, htwo, hphase⟩ := portFields_spec s sess p
  intro u
  rw [State.applyPort]
  dsimp only
  rw [if_neg (by simp [hmay, hp])]
  refine (if_neg (fun h => hon (hone.symm.trans h))).trans ?_
  rw [← htwo, ← hphase]
  rfl

end

/-- A setpoint that no throttle holds goes onto the rail. -/
theorem applySetpoint_free {s : State} {sess w : Nat} (hw : w < 4) (hmay : s.mayApply sess (0x1201 + w) 0x04 = true)
    (hthrottled : s.wardThrottled w = false) (hcool : s.junction w < s.onset) (hcause : fld (s.reg 0x1200 0x04) (8 * w + 7) (8 * w) = 0) :
    let u := s.takeFields sess (0x1201 + w) 0x04 (s.fieldsOf sess (0x1201 + w) [1])
    s.applySetpoint sess w = (({ u with lowered := u.lowered.filter (· != w) } : State).setSupply w (u.reg (0x1201 + w) 1), .ok) := by
  intro u
  have hlow : (s.wardThrottled w || decide (s.onset ≤ s.junction w) || fld (s.reg 0x1200 0x04) (8 * w + 7) (8 * w) != 0) = false := by
    simp [hthrottled, hcause, hcool]
  rw [State.applySetpoint]
  dsimp only
  rw [if_neg (by omega), applyPlain_of_mayApply hmay, if_neg (by simp), hlow]
  rfl

theorem execThermalApply_of_mayApply {s : State} {sess : Nat} (hup : s.answers = true) (hidle : s.sessionIdle sess = true)
    (hmay : s.mayApply sess 0x1210 0x0D = true) : let on := s.applying sess 0x1210 5
    let h := s.applying sess 0x1210 6
    let s1 := if h = max h (on + 5000) then s else s.noteClamp 0x1210 0x06 h (max h (on + 5000)) (s.applyRole sess 0x1210 0x0D)
    exec (.thermalApply sess) s = .next ((s1.takeFields sess 0x1210 0x0D [(0x1210, 5, on), (0x1210, 6, max h (on + 5000))]).emit
      (.wrote sess 0x1210 0x0D (if h = max h (on + 5000) then .ok else .clamped))) := by
  intro on h s1
  change s.rowOf sess 0x1210 0x0D _ = _
  rw [rowOf_of_mayApply hup hidle hmay, State.applyThermal, if_neg (by simp [hmay])]
  rfl

theorem execFabricApply_of_free {s : State} {sess : Nat} (hup : s.answers = true) (hidle : s.sessionIdle sess = true)
    (hmay : s.mayApply sess 0x2100 0x09 = true) (hfree : ∀ n, n < 256 → s.reg (0x3100 + n) 0x01 = 0 ∨ s.reg (0x3100 + n) 0x0F = 0xFFFF) :
    let v := s.applying sess 0x2100
    let s1 := s.takeFields sess 0x2100 0x09 [(0x2100, 1, v 1), (0x2100, 2, v 2), (0x2100, 4, v 4)]
    let s2 := if v 1 = 1 then s1.setReg 0x2100 0x03 (v 2) else s1
    exec (.fabricApply sess) s =
      .next ((s2.refabric (s2.house != s.house || s2.houseMode != s.houseMode)).emit (.wrote sess 0x2100 0x09 .ok)) := by
  intro v s1 s2
  have hnone : ((List.range 256).any (fun n => s.reg (0x3100 + n) 0x01 != 0 && s.reg (0x3100 + n) 0x0F != 0xFFFF)) = false := by
    rw [List.any_eq_false]
    intro n hn
    rcases hfree n (List.mem_range.mp hn) with h | h <;> simp [h]
  have happly : s.applyFabric sess = (s2.refabric (s2.house != s.house || s2.houseMode != s.houseMode), .ok) := by
    unfold State.applyFabric
    extract_lets inUse
    rw [if_neg (by simp [hmay]), if_neg (by rw [show inUse = false from hnone]; exact Bool.false_ne_true)]
  change s.rowOf sess 0x2100 0x09 _ = _
  rw [rowOf_of_mayApply hup hidle hmay, happly, wrote_mk]

/-- A written route, after an apply whose session has one pending. -/
theorem applyRoutes_one {s : State} {sess : Nat} (hmay : s.mayApply sess 0x2184 0x01 = true) {x : Session} (hx : s.session sess = some x)
    {h v : Nat} (hh : h < 512) (hpend : x.pend = [(objKey (0x2180 + h / 128) (h % 128 + 1), v)]) :
    (s.applyRoutes sess).1.routes = s.routes.set h v := by
  have hkey : objKey (0x2180 + h / 128) (h % 128 + 1) / 256 = 0x2180 + h / 128 ∧ objKey (0x2180 + h / 128) (h % 128 + 1) % 256 = h % 128 + 1 := by
    unfold objKey
    omega
  have hrow : (0x2180 + h / 128 - 0x2180) * 128 + (h % 128 + 1) - 1 = h := by omega
  have hfit : (decide (0x2180 ≤ 0x2180 + h / 128) && decide (0x2180 + h / 128 < 0x2184)) = true := by
    simp
    omega
  rw [State.applyRoutes, if_neg (by simp [hmay]), hx]
  dsimp only
  rw [drainFlits_frame]
  dsimp only
  rw [routes_publishRoutes, State.dropPend, routes_modSession, hpend, List.filter_cons_of_pos (by rw [hkey.1]; exact hfit)]
  simp only [List.filter_nil, List.foldl_cons, List.foldl_nil, hkey, hrow]

/-- Settles O44: each apply takes its fields, and what else it names. -/
theorem settingsApply : Obligations.SettingsApply := by
  intro s sess hup hidle applied
  refine ⟨fun x idx i v hx hv => applying_of_pending hx hv, fun hmay => ?_, fun hsess => ?_, fun hmay => ?_, fun p hp hmay hon hlive => ?_,
    fun p hp hmay => ⟨fun hoff hlive => ⟨?_, ?_⟩, fun hoff hdark => ?_, fun hon hdark => ⟨fun hphase => ?_, fun hphase => ?_⟩⟩,
    fun w v hw hmay hv hthrottled hcool hcause => ?_, fun hmay => ⟨fun hle => ?_, fun hlt => ?_⟩, fun hmay hfree => ?_,
    fun hmay => ⟨?_, fun x h v hx hh hpend => ?_⟩⟩
  · exact ⟨_, execPlain_applied hup hidle hmay, takeFields_applied s sess 0x1200 0x05 (by decide)⟩
  · obtain ⟨x, hx⟩ := Option.isSome_iff_exists.mp hsess
    exact settings_denied hup hidle hx
  · exact ⟨_, execPlain_applied hup hidle hmay, takeFields_applied s sess 0x20F0 0x06 (by decide)⟩
  · refine ⟨_, ?_, takeFields_applied s sess (0x2001 + p) 0x0D (fields := portFields) (by decide)⟩
    change s.rowOf sess (0x2001 + p) 0x0D _ = _
    rw [rowOf_of_mayApply hup hidle hmay, applyPort_on hp hmay hon, if_neg (fun h => hlive h.1), wrote_mk]
  · change s.rowOf sess (0x2001 + p) 0x0D _ = _
    rw [rowOf_of_mayApply hup hidle hmay, applyPort_off hp hmay hoff, if_neg hlive, wrote_mk]
    rfl
  · obtain ⟨hzero, -, hqps⟩ := darkPort_spec (s.takeFields sess (0x2001 + p) 0x0D (s.fieldsOf sess (0x2001 + p) portFields)) hp
    exact ⟨hzero, hqps⟩
  · change s.rowOf sess (0x2001 + p) 0x0D _ = _
    rw [rowOf_of_mayApply hup hidle hmay, applyPort_off hp hmay hoff, if_pos hdark, wrote_mk]
    rfl
  · change s.rowOf sess (0x2001 + p) 0x0D _ = _
    rw [rowOf_of_mayApply hup hidle hmay, applyPort_on hp hmay hon, if_pos ⟨hdark, hphase⟩, wrote_mk]
    rfl
  · change s.rowOf sess (0x2001 + p) 0x0D _ = _
    rw [rowOf_of_mayApply hup hidle hmay, applyPort_on hp hmay hon, if_neg (by omega), wrote_mk]
    rfl
  · obtain ⟨hfield, -, hout, -⟩ := takeFields_applied s sess (0x1201 + w) 0x04 (fields := [1]) (by decide)
    set u := s.takeFields sess (0x1201 + w) 0x04 (s.fieldsOf sess (0x1201 + w) [1])
    have hone : u.reg (0x1201 + w) 1 = v := (hfield 1 (by simp)).trans hv
    refine ⟨((({ u with lowered := u.lowered.filter (· != w) } : State).setSupply w v).emit (.wrote sess (0x1201 + w) 0x04 .ok)), ?_, ?_, ?_, ?_⟩
    · change s.rowOf sess (0x1201 + w) 0x04 _ = _
      rw [rowOf_of_mayApply hup hidle hmay, applySetpoint_free hw hmay hthrottled hcool hcause, hone]
      rfl
    · exact (reg_setReg_ne_sub _ _ (by decide)).trans hone
    · exact State.reg_setReg_self ..
    · have hout' : u.out = s.out := List.tail_eq_of_cons_eq hout
      change .wrote sess (0x1201 + w) 0x04 .ok :: .avs w v :: u.out = _
      rw [hout']
  · have hmax : max (s.applying sess 0x1210 6) (s.applying sess 0x1210 5 + 5000) = s.applying sess 0x1210 6 := Nat.max_eq_left hle
    refine ⟨_, ?_, takeFields_applied s sess 0x1210 0x0D (fields := [5, 6]) (by decide)⟩
    rw [execThermalApply_of_mayApply hup hidle hmay, hmax, if_pos rfl, if_pos rfl]
    rfl
  · have hmax : max (s.applying sess 0x1210 6) (s.applying sess 0x1210 5 + 5000) = s.applying sess 0x1210 5 + 5000 :=
      Nat.max_eq_right (Nat.le_of_lt hlt)
    have hclamp : ¬ s.applying sess 0x1210 6 = s.applying sess 0x1210 5 + 5000 := by omega
    refine ⟨_, execThermalApply_of_mayApply hup hidle hmay, ?_⟩
    rw [hmax, if_neg hclamp, if_neg hclamp, State.reg_emit, State.reg_emit, State.emit_out, reg_takeFields, reg_takeFields]
    refine ⟨reg_putFields_of_mem (by simp [objKey_inj]) _ (by simp), reg_putFields_of_mem (by simp [objKey_inj]) _ (by simp), ?_⟩
    rw [takeFields_frame]
    exact congrArg _ (noteClamp_keeps ..)
  · exact execFabricApply_of_free hup hidle hmay hfree
  · change s.rowOf sess 0x2184 0x01 _ = _
    rw [rowOf_of_mayApply hup hidle hmay]
    have hok : (s.applyRoutes sess).2 = .ok := by
      rw [State.applyRoutes, if_neg (by simp [hmay])]
    rw [State.wrote, hok]
  · rw [applyRoutes_one hmay hx hh hpend]
    exact ⟨Tbl.find_set_self .., fun k hk => Tbl.find_set_ne _ _ hk⟩

end Sys2Proof.Machine
end

section
/-! Host messages: refused and served (spec/17 R490 to R498). -/

namespace Sys2Proof.Machine

/-! ### Packets that come to a port (spec/17 R490, R500) -/

/-- What the arrival of a packet changes: the receive buffer, the choice drawn for it, and a pause sent. -/
def State.arrived (s : State) (f : Nat) (o : List Out) (r : Tbl Nat) : State := { s with freeCtr := f, out := o, rxHeld := r }

theorem portArrive_eq (s : State) (p : Nat) : ∃ f o r, s.portArrive p = s.arrived f o r ∧ (s.portReg p 6 = 0 → o = s.out) := by
  unfold State.portArrive
  split
  · exact ⟨_, _, _, rfl, fun _ => rfl⟩
  · next h =>
    dsimp only
    split
    · exact ⟨_, _, _, rfl, fun h0 => absurd h0 h⟩
    · exact ⟨_, _, _, rfl, fun h0 => absurd h0 h⟩

theorem paOf_arrived (s : State) (f : Nat) (o : List Out) (r : Tbl Nat) (a va : Nat) : (s.arrived f o r).paOf a va = s.paOf a va := rfl

theorem transferCheck_arrived (s : State) (f : Nat) (o : List Out) (r : Tbl Nat) (a : Nat) (src dst : List VRange) (h : Bool) :
   (s.arrived f o r).transferCheck a src dst h = s.transferCheck a src dst h := rfl

theorem readPages_arrived (s : State) (f : Nat) (o : List Out) (r : Tbl Nat) (a fuel va len : Nat) :
    (s.arrived f o r).readPages a fuel va len = s.readPages a fuel va len := by
  induction fuel generalizing va len with
  | zero => rfl
  | succ fuel ih =>
    unfold State.readPages
    simp only [ih]
    rfl

theorem store_arrived (s : State) (f : Nat) (o : List Out) (r : Tbl Nat) (pa : Nat) (bs : List Byte) :
    (s.arrived f o r).store pa bs = (s.store pa bs).arrived f o r := rfl

theorem writePages_arrived (s : State) (f : Nat) (o : List Out) (r : Tbl Nat) (a fuel va : Nat) (bs : List Byte) :
    (s.arrived f o r).writePages a fuel va bs = (s.writePages a fuel va bs).arrived f o r := by
  induction fuel generalizing s va bs with
  | zero => rfl
  | succ fuel ih =>
    unfold State.writePages
    split
    · rfl
    · dsimp only
      rw [paOf_arrived]
      split
      · exact ih ..
      · rw [store_arrived]
        exact ih ..

theorem readVa_arrived (s : State) (f : Nat) (o : List Out) (r : Tbl Nat) (a va len : Nat) : (s.arrived f o r).readVa a va len = s.readVa a va len := by
  rw [State.readVa, State.readP, readPages_arrived]
  rfl

theorem poisonedVa_arrived (s : State) (f : Nat) (o : List Out) (r : Tbl Nat) (a va len : Nat) :
    (s.arrived f o r).poisonedVa a va len = s.poisonedVa a va len := by
  rw [State.poisonedVa, State.readP, readPages_arrived]
  rfl

theorem writeVa_arrived (s : State) (f : Nat) (o : List Out) (r : Tbl Nat) (a va : Nat) (bs : List Byte) :
    (s.arrived f o r).writeVa a va bs = (s.writeVa a va bs).arrived f o r := writePages_arrived ..

/-! ### Refused messages (spec/17 R493, R494) -/

theorem find_of_liveQp {s : State} {qp : Nat} {q : Qp} (h : s.liveQp qp = some q) :
    s.qps.find qp = some q ∧ q.error = false ∧ s.portUp q.port = true ∧ s.fits q = true := by
  unfold State.liveQp at h
  split at h
  · cases h
  · next q' hq' =>
    split at h
    · cases h
    · next hno =>
      cases h
      simpa [hq', and_assoc] using hno

theorem sendQp_unkeyed {s : State} {qp : Nat} {q : Qp} (hq : s.qps.find qp = some q) (hkeyed : (s.channel q.allot).keyed = false) (o : Out) (bytes : Nat) :
    s.sendQp qp o bytes = s.emit o := by
  rw [State.sendQp, hq]
  dsimp only
  rw [if_pos (by simp [hkeyed])]

theorem failQp_frame {s : State} {qp : Nat} {q : Qp} (hq : s.qps.find qp = some q) :
    PostFrame { s with qps := s.qps.set qp { q with error := true } } (s.failQp qp) := by
  unfold State.failQp
  rw [hq]
  dsimp only
  exact PostFrame.trans (t := State.countQps { s with qps := s.qps.set qp { q with error := true } } q.allot) rfl (foldl_frame (R := PostFrame) .refl .trans (fun t n => flushCompletions_frame q.allot n _ t) _ _)

/-- A refused message leaves its queue pair in the error state, and what the NAK's sending touches; it moves no byte. -/
theorem nakQp_spec {s : State} {qp : Nat} {q : Qp} (hq : s.qps.find qp = some q) (invalid : Bool) :
    let t := s.nakQp qp invalid
    t = { s with qps := s.qps.set qp { q with error := true }, allots := t.allots, out := t.out, regs := t.regs, log := t.log, dropAt := t.dropAt } ∧
      ((s.channel q.allot).keyed = false → t.out.head? = some (.nak qp invalid)) := by
  have hframe := (failQp_frame hq).trans (sendQp_frame (s.failQp qp) qp (.nak qp invalid) 0)
  obtain ⟨hqps, hchannel⟩ := failQp_channelFrame hq
  refine ⟨hframe, fun hkeyed => ?_⟩
  have hfind : (s.failQp qp).qps.find qp = some { q with error := true } := by rw [hqps, Tbl.find_set_self]
  have hmac : ((s.failQp qp).channel q.allot).keyed = false := by
    rw [State.channel, (hchannel q.allot).1]
    exact hkeyed
  rw [State.nakQp, sendQp_unkeyed hfind hmac]
  rfl

/-- What a refusal on a queue pair amounts to. -/
def RefusedOn (s : State) (qp : Nat) (q : Qp) (t : State) : Prop :=
  t = ((s.portArrive q.port).failQp qp).sendQp qp (.nak qp false) 0 ∧
    t.mem = s.mem ∧ t.poison = s.poison ∧ t.ctxs = s.ctxs ∧ t.cores = s.cores ∧ t.jobs = s.jobs ∧
    (s.portReg q.port 0x06 = 0 → (s.channel q.allot).keyed = false → t.out.head? = some (.nak qp false)) ∧
    (∃ y, t.qps.find qp = some y ∧ y.error = true) ∧ ∀ k, k ≠ qp → t.qps.find k = s.qps.find k

theorem refusedOn_nak {s : State} {qp : Nat} {q : Qp} (hq : s.qps.find qp = some q) : RefusedOn s qp q ((s.portArrive q.port).nakQp qp false) := by
  obtain ⟨f, o, r, harr, -⟩ := portArrive_eq s q.port
  have hq' : (s.portArrive q.port).qps.find qp = some q := by
    rw [harr]
    exact hq
  obtain ⟨heq, hout⟩ := nakQp_spec hq' false
  refine ⟨rfl, ?_⟩
  generalize (s.portArrive q.port).nakQp qp false = t at heq hout
  rw [harr] at heq hout
  refine ⟨by rw [heq]; rfl, by rw [heq]; rfl, by rw [heq]; rfl, by rw [heq]; rfl, by rw [heq]; rfl, fun _ hkeyed => hout hkeyed,
    ⟨_, by rw [heq]; exact Tbl.find_set_self .., rfl⟩, fun k hk => ?_⟩
  rw [heq]
  exact Tbl.find_set_ne _ _ hk

/-- Settles O55: every message that R493 refuses, or whose R_Key is wrong, comes to the NAK and the failed queue pair. -/
theorem rdmaRefused : Obligations.RdmaRefused := by
  intro s qp q rkey va data len hlive
  obtain ⟨hq, -⟩ := find_of_liveQp hlive
  obtain ⟨f, o, r, harr, -⟩ := portArrive_eq s q.port
  have hcheck (src dst : List VRange) : (s.portArrive q.port).transferCheck q.allot src dst false = s.transferCheck q.allot src dst false := by
    rw [harr, transferCheck_arrived]
  have hpoison : (s.portArrive q.port).poisonedVa q.allot va.toNat len = s.poisonedVa q.allot va.toNat len := by rw [harr, poisonedVa_arrived]
  have hrefuse {i : Instr} (h : exec i s = .next ((s.portArrive q.port).nakQp qp false)) : ∃ t, exec i s = .next t ∧ RefusedOn s qp q t :=
    ⟨_, h, refusedOn_nak hq⟩
  have hwrite : exec (.rdmaWriteInbound qp rkey va data) s = execRdmaWriteInbound qp rkey va data s := rfl
  have hread : exec (.rdmaReadInbound qp rkey va len) s = execRdmaReadInbound qp rkey va len s := rfl
  rw [execRdmaWriteInbound, hlive] at hwrite
  rw [execRdmaReadInbound, hlive] at hread
  dsimp only at hwrite hread
  rw [hcheck] at hwrite hread
  rw [hpoison] at hread
  refine ⟨fun hkey => ⟨hrefuse (hwrite.trans (if_pos hkey)), hrefuse (hread.trans (if_pos hkey))⟩, fun hkey => ?_⟩
  rw [if_neg (not_not_intro hkey)] at hwrite hread
  refine ⟨fun hne hbells hbad => hrefuse ?_, fun hpos hbells hbad => hrefuse ?_, fun hne hbells hbad => hrefuse ?_, fun hpos hbells hbad => hrefuse ?_⟩
  · rw [hwrite, if_neg (by simpa using hne), if_neg (by simp [hbells]), if_pos (by simpa using hbad)]
  · rw [hread, if_neg (by omega), if_neg (by simp [hbells]), if_pos (by simpa [or_assoc] using hbad)]
  · rw [hwrite, if_neg (by simpa using hne), if_pos hbells, if_neg (by omega)]
  · rw [hread, if_neg (by omega), if_pos hbells, if_neg (by omega)]

/-! ### Host messages that are served (spec/17 R490, R493, R496, R498) -/

theorem stream_arrived (s : State) (f : Nat) (o : List Out) (r : Tbl Nat) (a n : Nat) : (s.arrived f o r).stream a n = s.stream a n := rfl

theorem stream_portArrive (s : State) (p a n : Nat) : (s.portArrive p).stream a n = s.stream a n := by
  obtain ⟨f, o, r, harr, -⟩ := portArrive_eq s p
  rw [harr, stream_arrived]

theorem stream_meterHost (s : State) (b k a n : Nat) : (s.meterHost b k).stream a n = s.stream a n := rfl

theorem stream_modStream_self (s : State) (a n : Nat) (f : Stream → Stream) : (s.modStream a n f).stream a n = f (s.stream a n) := by
  unfold State.stream State.modStream
  rw [State.allot_modAllot_self]
  exact Tbl.get_modify_self ..

theorem stream_noteRefusal (s : State) (idx sub : Nat) (st : Status) (a n : Nat) : (s.noteRefusal idx sub st).stream a n = s.stream a n := rfl

/-- Reading a descriptor gives it to the stream, and leaves the stream's counts. -/
theorem consumed_readDesc (s : State) (a n : Nat) : ((s.readDesc a n).stream a n).consumed = (s.stream a n).consumed := by
  unfold State.readDesc
  dsimp only
  repeat' split
  all_goals rw [stream_modStream_self]
  all_goals rfl

theorem consumed_ringRead (s : State) (a n : Nat) : ((s.ringRead a n).stream a n).consumed = (s.stream a n).consumed := by
  unfold State.ringRead
  split
  · exact consumed_readDesc ..
  · rfl

theorem length_leBytes (n x : Nat) : (leBytes n x).length = n := by
  induction n generalizing x with
  | zero => rfl
  | succ n ih => simp [leBytes, ih]

theorem length_load (s : State) (pa n : Nat) : (s.load pa n).length = n := by
  unfold State.load
  induction n generalizing pa with
  | zero => rfl
  | succ n ih => rw [Mem.readN, List.length_cons, ih]

/-- The bytes of a range are those of its part in the first page, and of the rest. -/
theorem length_readPages_succ (s : State) (a fuel va len : Nat) : (s.readPages a (fuel + 1) va len).length =
    if len = 0 then 0
    else min len (pageSize va - va % pageSize va) +
      (s.readPages a fuel (va + min len (pageSize va - va % pageSize va)) (len - min len (pageSize va - va % pageSize va))).length := by
  rw [State.readPages]
  split
  · rfl
  · dsimp only
    rw [List.length_append]
    congr 1
    split
    · exact List.length_replicate
    · split
      · rw [List.length_map, List.length_zip, length_load, List.length_range, Nat.min_self]
      · rw [List.length_map, length_load]

theorem readPages_nil (s : State) (a fuel va : Nat) : s.readPages a fuel va 0 = [] := by
  cases fuel <;> rfl

/-- From an address that a page of 64 KiB begins at, each unit of fuel reads 64 KiB or more. -/
theorem length_readPages_aligned (s : State) (a fuel : Nat) {va len : Nat} (hva : va % 0x10000 = 0) (hlen : len ≤ fuel * 0x10000) :
    (s.readPages a fuel va len).length = len := by
  induction fuel generalizing va len with
  | zero => exact (Nat.le_zero.mp (by simpa using hlen)).symm
  | succ fuel ih =>
    have hroom : 0x10000 ≤ pageSize va - va % pageSize va ∧ (va + (pageSize va - va % pageSize va)) % 0x10000 = 0 := by
      unfold pageSize
      split <;> omega
    generalize hr : pageSize va - va % pageSize va = room at hroom
    rw [length_readPages_succ, hr]
    split
    · next h => exact h.symm
    · rcases Nat.le_total len room with h | h
      · rw [Nat.min_eq_left h, Nat.sub_self, readPages_nil, List.length_nil, Nat.add_zero]
      · rw [Nat.min_eq_right h, ih hroom.2 (by omega)]
        omega

theorem length_readVa (s : State) (a va len : Nat) : (s.readVa a va len).length = len := by
  have hroom : (va + (pageSize va - va % pageSize va)) % 0x10000 = 0 := by
    unfold pageSize
    split <;> omega
  generalize hr : pageSize va - va % pageSize va = room at hroom
  rw [State.readVa, List.length_map, State.readP, length_readPages_succ, hr]
  split
  · next h => exact h.symm
  · rcases Nat.le_total len room with h | h
    · rw [Nat.min_eq_left h, Nat.sub_self, readPages_nil, List.length_nil, Nat.add_zero]
    · rw [Nat.min_eq_right h, length_readPages_aligned s a _ hroom (by omega)]
      omega

theorem bell_of_live {s : State} {qp : Nat} {q : Qp} (hlive : s.liveQp qp = some q) {n d : Nat} (hn : n < 16) :
    let m := (s.portArrive q.port).meterHost q.allot 8
    s.bell qp n d = if 2 ^ 32 ≤ d then m.nakQp qp false else (m.ring q.allot n q.port d).sendQp qp (.ack qp) 0 := by
  unfold State.bell
  rw [hlive]
  dsimp only
  rw [if_neg (by omega)]
  rfl

/-- A doorbell's word as its stream takes it (spec/17 R495, R496). -/
theorem doorbellWrite_row {s : State} {qp : Nat} {q : Qp} (hlive : s.liveQp qp = some q) {n : Nat} (d : W64) (hn : n < 16) :
    let m := (s.portArrive q.port).meterHost q.allot 8
    let s1 := if (s.stream q.allot n).left = 0 then m.readDesc q.allot n else m
    let ahead := (d.toNat + 2 ^ 32 - (s.stream q.allot n).consumed % 2 ^ 32) % 2 ^ 32
    (d.toNat < 2 ^ 32 → (s1.stream q.allot n).desc = none → exec (.doorbellWrite qp n d) s = .next (s1.sendQp qp (.ack qp) 0).settle) ∧
    (∀ e, d.toNat < 2 ^ 32 → (s1.stream q.allot n).desc = some e → ahead ≤ 2 ^ e.ringLog2 →
      exec (.doorbellWrite qp n d) s =
        .next ((s1.modStream q.allot n (fun z => { z with doorbell := d.toNat })).sendQp qp (.ack qp) 0).settle) ∧
    (∀ e, d.toNat < 2 ^ 32 → (s1.stream q.allot n).desc = some e → 2 ^ e.ringLog2 < ahead →
      exec (.doorbellWrite qp n d) s = .next ((s1.dropPort q.port 0x06 q.allot).sendQp qp (.ack qp) 0).settle) ∧
    (2 ^ 32 ≤ d.toNat → exec (.doorbellWrite qp n d) s = .next ((m.failQp qp).sendQp qp (.nak qp false) 0).settle) := by
  intro m s1 ahead
  have hexec : exec (.doorbellWrite qp n d) s = .next (s.bell qp n d.toNat).settle := rfl
  rw [bell_of_live hlive hn] at hexec
  have hstream : m.stream q.allot n = s.stream q.allot n := stream_portArrive ..
  have hread : m.ringRead q.allot n = s1 := by rw [State.ringRead, hstream]
  have hconsumed : (s1.stream q.allot n).consumed = (s.stream q.allot n).consumed := by rw [← hread, consumed_ringRead, hstream]
  have hring (hd : d.toNat < 2 ^ 32) : exec (.doorbellWrite qp n d) s =
      .next ((s1.ringOn q.allot n q.port d.toNat (s1.stream q.allot n)).sendQp qp (.ack qp) 0).settle := by
    rw [hexec, if_neg (Nat.not_le.mpr hd), ring_eq, hread]
  have hahead : (d.toNat + 2 ^ 32 - (s1.stream q.allot n).consumed % 2 ^ 32) % 2 ^ 32 = ahead := by rw [hconsumed]
  refine ⟨fun hd hdesc => ?_, fun e hd hdesc hle => ?_, fun e hd hdesc hlt => ?_, fun hd => ?_⟩
  · rw [hring hd, State.ringOn, hdesc]
  · rw [hring hd, State.ringOn, hdesc]
    dsimp only
    rw [hahead, if_neg (Nat.not_lt.mpr hle)]
  · rw [hring hd, State.ringOn, hdesc]
    dsimp only
    rw [hahead, if_pos hlt]
  · rw [hexec, if_pos hd]
    rfl

theorem State.allot_emit (s : State) (o : Out) (b : Nat) : (s.emit o).allot b = s.allot b := rfl

theorem sendQp_keyed {s : State} {qp : Nat} {q : Qp} (hq : s.qps.find qp = some q) (hkeyed : (s.channel q.allot).keyed = true) (o : Out) (bytes : Nat) :
    s.sendQp qp o bytes = if pnLimit ≤ Tbl.get 0 (s.channel q.allot).sent q.port then s
      else (s.modAllot q.allot (fun x => { x with macsec :=
        { x.macsec with sent := x.macsec.sent.set q.port (Tbl.get 0 (s.channel q.allot).sent q.port + q.packets bytes) } })).emit
          (.secured (s.sci q.port q.allot) (s.channel q.allot).an (Tbl.get 0 (s.channel q.allot).sent q.port + 1) o) := by
  rw [State.sendQp, hq]
  dsimp only
  rw [if_neg (by simp [hkeyed])]

/-- What a queue pair sends, unprotected, protected under its channel, or not at all (spec/15 R456, spec/17 R492). -/
theorem sendQp_cases (s : State) (qp bytes : Nat) (q : Qp) (o : Out) (hq : s.qps.find qp = some q) :
    let m := (s.allot q.allot).macsec
    let pn := Tbl.get 0 m.sent q.port
    (m.keyed = false → s.sendQp qp o bytes = s.emit o) ∧
    (m.keyed = true → pn < 2 ^ 64 - 2 ^ 32 → (s.sendQp qp o bytes).out = .secured (s.sci q.port q.allot) m.an (pn + 1) o :: s.out ∧
      ((s.sendQp qp o bytes).allot q.allot).macsec = { m with sent := m.sent.set q.port (pn + max 1 (ceilDiv bytes q.mtu)) } ∧
      (s.sendQp qp o bytes).regs = s.regs ∧ (s.sendQp qp o bytes).mem = s.mem) ∧
    (m.keyed = true → 2 ^ 64 - 2 ^ 32 ≤ pn → s.sendQp qp o bytes = s) := by
  intro m pn
  refine ⟨fun hkeyed => sendQp_unkeyed hq hkeyed o bytes, fun hkeyed hpn => ?_, fun hkeyed hpn => ?_⟩
  · have hsend := (sendQp_keyed hq hkeyed o bytes).trans (if_neg (Nat.not_le.mpr hpn))
    refine ⟨by rw [hsend]; rfl, ?_, regs_sendQp s qp o bytes, mem_sendQp s qp o bytes⟩
    rw [hsend]
    rw [State.allot_emit, State.allot_modAllot_self]
    rfl
  · exact (sendQp_keyed hq hkeyed o bytes).trans (if_pos hpn)

/-- Settles O56: each row of a message served, and what goes out on the queue pair. -/
theorem rdmaServed : Obligations.RdmaServed := by
  refine ⟨fun s qp q hlive => ?_, sendQp_cases⟩
  obtain ⟨hq, -⟩ := find_of_liveQp hlive
  obtain ⟨f, o, r, harr, -⟩ := portArrive_eq s q.port
  refine ⟨fun rkey va data hkey hne hbells hbarred hcheck => ?_, fun rkey va len hkey hpos hbells hbarred hcheck hpoison => ?_,
    fun n rkey va hkey hn hva => ?_, fun n d hn => doorbellWrite_row hlive d hn, fun n v hn => ?_, ?_⟩
  · refine ⟨_, ?_, rfl, ?_, ?_, ?_⟩
    · change execRdmaWriteInbound qp rkey va data s = _
      rw [execRdmaWriteInbound, hlive]
      dsimp only
      rw [harr, transferCheck_arrived, if_neg (not_not_intro hkey), if_neg (by simpa using hne), if_neg (by simp [hbells]), if_neg (by simp [hbarred, hcheck])]
    · rw [mem_sendQp, harr, writeVa_arrived]
      rfl
    · rw [sendQp_frame _ qp (.ack qp) 0, harr, writeVa_arrived]
      rfl
    · rw [State.reg, regs_sendQp, harr, writeVa_arrived]
      exact State.reg_setReg_self ..
  · refine ⟨?_, mem_portArrive ..⟩
    change execRdmaReadInbound qp rkey va len s = _
    rw [execRdmaReadInbound, hlive]
    dsimp only
    rw [harr, transferCheck_arrived, poisonedVa_arrived, readVa_arrived, if_neg (not_not_intro hkey), if_neg (by omega), if_neg (by simp [hbells]),
      if_neg (by simp [hbarred, hcheck, hpoison]), length_readVa]
  · change execRdmaReadInbound qp rkey va 8 s = _
    have hoff : va.toNat - bellBase = 8 * n := by
      unfold bellBase
      omega
    have hin : inBells va.toNat 8 = true := by
      unfold inBells bellBase
      exact Bool.and_eq_true_iff.mpr ⟨decide_eq_true (by omega), decide_eq_true (by omega)⟩
    rw [execRdmaReadInbound, hlive]
    dsimp only
    rw [if_neg (not_not_intro hkey), if_neg (by decide), if_pos hin, hoff,
      if_pos (by unfold bellBase; omega), State.bellWord, if_pos (by omega), length_leBytes, stream_portArrive, show 8 * n % 0x80 / 8 = n by omega]
  · refine ⟨?_, ?_, ?_⟩
    · change execCompletionConsumedWrite qp n v s = _
      rw [execCompletionConsumedWrite, hlive]
      dsimp only
      rw [if_neg (by omega)]
    · rw [stream_modStream_self]
    · rw [stream_modStream_self, stream_meterHost, stream_portArrive]
  · have hq' : (s.portArrive q.port).qps.find qp = some q := by
      rw [harr]
      exact hq
    refine ⟨_, { q with error := true }, ?_, rfl, ?_, rfl, ?_⟩
    · change execAtomicRequest qp s = _
      rw [execAtomicRequest, hlive]
      rfl
    · obtain ⟨heq, -⟩ := nakQp_spec hq' true
      change ((s.portArrive q.port).nakQp qp true).qps.find qp = _
      rw [heq]
      exact Tbl.find_set_self ..
    · obtain ⟨heq, -⟩ := nakQp_spec hq' true
      change ((s.portArrive q.port).nakQp qp true).mem = _
      rw [heq]
      exact mem_portArrive ..

end Sys2Proof.Machine
end

section
/-! Host ports: connections, frames, rates, ports that go dark (spec/17 R488 to R503). -/

namespace Sys2Proof.Machine

/-! ### Connections and frames (spec/17 R488 to R492) -/

theorem lt_four_of_portUp {s : State} {p : Nat} (h : s.portUp p = true) : p < 4 := by
  unfold State.portUp at h
  simp only [Bool.and_eq_true, decide_eq_true_eq] at h
  exact h.1.2

theorem reg_logEvent_ne (s : State) (e : Event) {idx sub : Nat} (hidx : idx ≠ 0x7000) (hsub : sub < 256) : (s.logEvent e).reg idx sub = s.reg idx sub :=
  (reg_setReg_ne_idx _ _ hsub (by decide) hidx).trans (reg_setReg_ne_idx _ _ hsub (by decide) hidx)

/-- A drop is counted on its port. -/
theorem portReg_dropPort (s : State) {p : Nat} (hp : p < 4) (reason a : Nat) : (s.dropPort p reason a).portReg p 0x0E = (s.portReg p 0x0E + 1) % 2 ^ 64 := by
  have hbump : (s.bumpReg (0x2001 + p) 0x0E 1).reg (0x2001 + p) 0x0E = (s.portReg p 0x0E + 1) % 2 ^ 64 := State.reg_bumpReg_self ..
  have hlog (t : State) (e : Event) (ht : t.reg (0x2001 + p) 0x0E = (s.portReg p 0x0E + 1) % 2 ^ 64) :
      (t.logEvent e).reg (0x2001 + p) 0x0E = (s.portReg p 0x0E + 1) % 2 ^ 64 := (reg_logEvent_ne t e (by omega) (by decide)).trans ht
  unfold State.dropPort
  dsimp only
  split <;> split
  · exact hlog _ _ hbump
  · exact hbump
  · exact hlog _ _ hbump
  · exact hbump

theorem qps_dropPort (s : State) (p reason a : Nat) : (s.dropPort p reason a).qps = s.qps := by rw [dropPort_frame s p reason a]

/-- Connection requests: dropped, rejected, or taken on a new queue pair. -/
theorem rdmaCmConnect_rows {s : State} (n : Nat) {p : Nat} (prot : Bool) (hup : s.portUp p = true) :
    (prot = true → (s.allot n).macsec.keyed = false → exec (.rdmaCmConnect n p prot) s = .next (s.dropPort p 0x04 n)) ∧
    ((prot = true → (s.allot n).macsec.keyed = true) → s.mayConnect n prot = false →
      exec (.rdmaCmConnect n p prot) s = .next (s.emit (.rejected n p))) ∧
    ((prot = true → (s.allot n).macsec.keyed = true) → s.mayConnect n prot = true →
      ∃ (t : State) (qp key mtu : Nat), exec (.rdmaCmConnect n p prot) s = .next t ∧ key < 2 ^ 32 ∧ mtu ∈ [256, 512, 1024, 2048, 4096] ∧
        t.out = .connected qp key :: s.out ∧
        t.qps.find qp = some { allot := n, port := p, isProtected := prot, rkey := key, mtu := mtu } ∧
        (∀ k, k ≠ qp → t.qps.find k = s.qps.find k) ∧ t.mem = s.mem ∧ s.reg (0x3100 + n) 0x01 = 1 ∧ (prot = true ∨ s.keeper n = 0)) := by
  have hexec : exec (.rdmaCmConnect n p prot) s = execRdmaCmConnect n p prot s := rfl
  rw [execRdmaCmConnect, if_neg (by simp [hup])] at hexec
  refine ⟨fun hprot hkeyed => ?_, fun hkeyed hmay => ?_, fun hkeyed hmay => ?_⟩
  · rw [hexec, if_pos (by simp [hprot, hkeyed])]
  · rw [hexec, if_neg (by simpa using hkeyed), if_pos (by simp [hmay])]
  · rw [if_neg (by simpa using hkeyed), if_neg (by simp [hmay])] at hexec
    have hmtu (k : Nat) : 256 * 2 ^ (k % 5) ∈ [256, 512, 1024, 2048, 4096] := by
      have hk : k % 5 < 5 := Nat.mod_lt _ (by decide)
      generalize k % 5 = j at hk
      interval_cases j <;> decide
    unfold State.mayConnect at hmay
    simp only [Bool.and_eq_true, Bool.or_eq_true, beq_iff_eq] at hmay
    obtain ⟨⟨⟨⟨-, hstate⟩, -⟩, -⟩, hkeeper⟩ := hmay
    exact ⟨_, _, _, _, hexec, Nat.mod_lt _ (by decide), hmtu _, rfl, Tbl.find_set_self .., fun k hk => Tbl.find_set_ne _ _ hk, rfl, hstate, hkeeper⟩

theorem unacceptedFrame_rows {s : State} {p : Nat} (hup : s.portUp p = true) (reason : DropReason) :
    (s.dropCode reason = none → exec (.unacceptedFrame p reason) s = .next s) ∧
      (∀ code a, s.dropCode reason = some (code, a) → ∃ t, exec (.unacceptedFrame p reason) s = .next t ∧
        t.portReg p 0x0E = (s.portReg p 0x0E + 1) % 2 ^ 64 ∧ t.mem = s.mem ∧ t.qps = s.qps) := by
  have hp := lt_four_of_portUp hup
  have hexec : exec (.unacceptedFrame p reason) s = execUnacceptedFrame p reason s := rfl
  rw [execUnacceptedFrame, if_neg (by simp [hup])] at hexec
  refine ⟨fun hnone => ?_, fun code a hsome => ?_⟩
  · rw [hexec, hnone]
  · rw [hsome] at hexec
    refine ⟨_, hexec, ?_⟩
    have hdrawn : ∃ f, (if reason = .overlong then s.drawNat.2 else s) = { s with freeCtr := f } := by
      split
      · exact ⟨_, rfl⟩
      · exact ⟨_, rfl⟩
    obtain ⟨f, hf⟩ := hdrawn
    rw [hf]
    have hcount : (({ s with freeCtr := f } : State).dropPort p code a).portReg p 0x0E = (s.portReg p 0x0E + 1) % 2 ^ 64 := portReg_dropPort _ hp ..
    have hqps : (({ s with freeCtr := f } : State).dropPort p code a).qps = s.qps := qps_dropPort ..
    have hmem : (({ s with freeCtr := f } : State).dropPort p code a).mem = s.mem := mem_dropPort ..
    split
    · exact ⟨(reg_setReg_ne_sub _ _ (by decide)).trans hcount, hmem, hqps⟩
    · exact ⟨hcount, hmem, hqps⟩

theorem dropCode_onChannel (s : State) (sci an : Nat) {n : Nat} (hn : n < 256) (hsci : sci % 2 ^ 16 = 0x100 + n) :
    let m := (s.allot n).macsec
    s.dropCode (.onChannel sci an) = if m.keyed = false then some (0x04, n)
      else if an = m.an ∨ ∃ t, m.old.find an = some t ∧ s.timer < t then none else some (0x02, n) := by
  intro m
  unfold State.dropCode
  dsimp only
  rw [hsci, if_neg (by omega), Nat.add_sub_cancel_left]
  change (if (!m.keyed) = true then _ else if m.receives an s.timer = true then _ else _) = _
  cases hkeyed : m.keyed with
  | false => rfl
  | true =>
    have hreceives : m.receives an s.timer = true ↔ an = m.an ∨ ∃ t, m.old.find an = some t ∧ s.timer < t := by
      rw [Macsec.receives, hkeyed]
      cases m.old.find an <;> simp
    simp only [hreceives]
    rfl

theorem nonRoceFrame_row {s : State} {p : Nat} (hup : s.portUp p = true) (f : NonRoce) : exec (.nonRoceFrame p f) s = .next
    (if f.bytes ≤ 4224 ∧ f.target = s.portReg p (if f.kind = .arp ∨ f.kind = .icmpEcho then 4 else 5) then s.emit (.frameAnswer p f)
     else s.dropPort p 0x05 0) := by
  have hown : s.ownFrame p f = true ↔ f.bytes ≤ 4224 ∧ f.target = s.portReg p (if f.kind = .arp ∨ f.kind = .icmpEcho then 4 else 5) := by
    unfold State.ownFrame frameLimit
    rw [Bool.and_eq_true, decide_eq_true_eq, beq_iff_eq]
    cases f.kind <;> rfl
  change execNonRoceFrame p f s = _
  rw [execNonRoceFrame, if_neg (by simp [hup])]
  simp only [hown]

/-! ### Ports that go dark (spec/17 R502) -/

theorem jobs_failQp (s : State) (qp : Nat) : (s.failQp qp).jobs = s.jobs := by
  cases hqp : s.qps.find qp with
  | none => rw [failQp_of_none hqp]
  | some q => rw [failQp_frame hqp]

theorem jobs_failPort (s : State) (p : Nat) : (s.failPort p).jobs = s.jobs :=
  foldl_frame (R := fun s t : State => t.jobs = s.jobs) (fun _ => rfl) (fun h k => k.trans h) jobs_failQp _ _

/-- A job that ends with its queue pair is gone. -/
theorem jobs_loseJob (s : State) (e : Nat × Job) : (match e.2.larder with
      | none => s.endJob e.1 e.2 e.2.blocks .memberLost
      | some w => s.workEnds e.1 w.1 .memberLost).jobs = s.jobs.erase e.1 := by
  split
  · rw [State.endJob, State.postJob, post_frame]
  · unfold State.workEnds State.modEntry
    split <;> rfl

theorem mem_foldl_loseJob (l : List (Nat × Job)) {s : State} {e : Nat × Job}
    (h : e ∈ (l.foldl (fun (t : State) e => match e.2.larder with
      | none => t.endJob e.1 e.2 e.2.blocks .memberLost
      | some w => t.workEnds e.1 w.1 .memberLost) s).jobs) : e ∈ s.jobs ∧ ∀ f ∈ l, e.1 ≠ f.1 := by
  induction l generalizing s with
  | nil => exact ⟨h, by simp⟩
  | cons f l ih =>
    obtain ⟨hmem, hl⟩ := ih h
    rw [jobs_loseJob, mem_erase_iff] at hmem
    exact ⟨hmem.1, List.forall_mem_cons.mpr ⟨hmem.2, hl⟩⟩

/-- No job over a queue pair of the list is left, the Larder's own aside. -/
def NoJobOn (mine : List Nat) (s : State) : Prop := ∀ e ∈ s.jobs, e.2.larder = none → e.2.rec'.qp ∉ mine

theorem noJobOn_startRecheck {mine : List Nat} {s : State} (h : NoJobOn mine s) : NoJobOn mine s.startRecheck := by
  unfold State.startRecheck
  split
  · exact h
  · split
    · exact h
    · split
      · exact h
      · split
        · intro e he
          rcases Tbl.mem_set he with rfl | he
          · exact fun hnone => by cases hnone
          · exact h e he
        · exact h

theorem noJobOn_fillCarter {mine : List Nat} (p fuel : Nat) {s : State} (h : NoJobOn mine s) : NoJobOn mine (s.fillCarter p fuel) := by
  induction fuel generalizing s with
  | zero => exact h
  | succ fuel ih =>
    unfold State.fillCarter
    split
    · exact h
    · split
      · exact h
      · next e he =>
        refine ih fun f hf => ?_
        rcases Tbl.mem_set hf with rfl | hf
        · exact h e (nextJob_mem he)
        · exact h f hf

theorem jobs_divideCache (s : State) (p : Nat) : (s.divideCache p).jobs = s.jobs := by
  unfold State.divideCache
  dsimp only
  split <;> rfl

theorem noJobOn_fillCarters {mine : List Nat} {s : State} (h : NoJobOn mine s) : NoJobOn mine s.fillCarters :=
  foldl_frame (R := fun s t : State => NoJobOn mine s → NoJobOn mine t) (fun _ => id) (fun h k => k ∘ h)
    (fun t p ht => noJobOn_fillCarter p 4 (fun e he => ht e (by rwa [jobs_divideCache] at he))) (List.range 4) _ (noJobOn_startRecheck h)

theorem noJobOn_loseJobs (mine : List Nat) (s : State) : NoJobOn mine (s.loseJobs mine.contains) := by
  refine noJobOn_fillCarters fun e he hnone hqp => ?_
  obtain ⟨hmem, hpicked⟩ := mem_foldl_loseJob _ he
  refine hpicked e (List.mem_filter.mpr ⟨hmem, ?_⟩) rfl
  simp [Job.onQp, hnone, hqp]

/-- A single job on a queue pair of the list ends with MEMBER_LOST after the blocks written so far. -/
theorem loseJobs_single {s : State} {mine : List Nat} {job : Nat} {j : Job} (hjobs : s.jobs = [(job, j)]) (hnone : j.larder = none) (hqp : j.rec'.qp ∈ mine) :
    s.loseJobs mine.contains = (s.endJob job j j.blocks .memberLost).fillCarters := by
  have hpick : ([(job, j)] : List (Nat × Job)).filter (fun e => e.2.onQp && mine.contains e.2.rec'.qp) = [(job, j)] := by
    simp [Job.onQp, hnone, hqp]
  rw [State.loseJobs, hjobs, hpick, List.foldl_cons, List.foldl_nil, hnone]

theorem darkPort_keeps_jobs (s : State) (p : Nat) : (s.darkPort p).jobs = ((s.failPort p).loseJobs (s.portQps p).contains).jobs ∧
    p ∉ (s.darkPort p).mgmtQps := by
  unfold State.darkPort State.failPort State.portQps
  dsimp only
  exact ⟨rfl, by simp⟩

theorem hostPortDark_row {s : State} {p : Nat} (hup : s.portUp p = true) :
    ∃ t, exec (.hostPortDark p) s = .next t ∧ t.mem = s.mem ∧ t.portReg p 0x02 = 0 ∧ p ∉ t.mgmtQps ∧
      t.regs = ((s.failPort p).loseJobs (s.portQps p).contains).regs ∧
      (∀ k q, s.qps.find k = some q → q.port = p → ∃ y, t.qps.find k = some y ∧ y.error = true) ∧
      (∀ e ∈ t.jobs, e.2.larder = none → e.2.rec'.qp ∉ s.portQps p) ∧ (s.failPort p).jobs = s.jobs ∧
      (∀ j job, s.jobs = [(job, j)] → j.larder = none → j.rec'.qp ∈ s.portQps p →
        (s.failPort p).loseJobs (s.portQps p).contains = ((s.failPort p).endJob job j j.blocks .memberLost).fillCarters) := by
  obtain ⟨hreg, hfind, -⟩ := darkPort_spec s (lt_four_of_portUp hup)
  obtain ⟨hjobs, hmgmt⟩ := darkPort_keeps_jobs s p
  refine ⟨s.darkPort p, if_pos hup, mem_darkPort s p, hreg, hmgmt, (darkPort_keeps s p).2, hfind, ?_, jobs_failPort s p,
    fun j job hone => loseJobs_single ((jobs_failPort s p).trans hone)⟩
  rw [hjobs]
  exact noJobOn_loseJobs _ _

/-! ### Arrivals, congestion and rates (spec/17 R500) -/

theorem portArrive_cases (s : State) (p : Nat) : (s.portReg p 0x06 = 0 → s.portArrive p = s) ∧
    (s.portReg p 0x06 ≠ 0 → ∃ held, held ≤ 2097152 ∧ (s.portArrive p).rxHeld.find p = some held ∧
      (s.portArrive p).out = (if 1572864 < held then [.pfcPause p (s.portReg p 0x07)] else []) ++ s.out ∧ (s.portArrive p).regs = s.regs) := by
  refine ⟨fun h => if_pos h, fun h => ⟨s.drawNat.1 % (2 * 1024 * 1024 + 1), by omega, ?_⟩⟩
  have hpause (t : State) (ht : t.regs = s.regs) (held : Nat) : t.sendsPause p held = true ↔ 1572864 < held := by
    have hreg : t.portReg p 0x06 = s.portReg p 0x06 := by rw [State.portReg, State.reg, ht]; rfl
    rw [State.sendsPause, Bool.and_eq_true, hreg, bne_iff_ne, decide_eq_true_eq]
    exact and_iff_right h
  rw [State.portArrive, if_neg h]
  dsimp only
  split
  · next hp =>
    rw [if_pos ((hpause _ rfl _).mp hp)]
    exact ⟨Tbl.find_set_self .., rfl, rfl⟩
  · next hp =>
    rw [if_neg fun hlt => hp ((hpause _ rfl _).mpr hlt)]
    exact ⟨Tbl.find_set_self .., rfl, rfl⟩

theorem congestion_rows {s : State} {qp : Nat} {q : Qp} (hlive : s.liveQp qp = some q) :
    let u := s.portArrive q.port
    (∀ t0, q.cnpSent = some t0 → s.timer < t0 + 50000 → exec (.ecnMarkedPacket qp) s = .next u) ∧
    ((∀ t0, q.cnpSent = some t0 → t0 + 50000 ≤ s.timer) → exec (.ecnMarkedPacket qp) s =
      .next (((({ u with qps := u.qps.set qp { q with cnpSent := some s.timer } } : State)).countCnp q.port 1 0).sendQp qp (.cnp qp) 0)) ∧
    (∃ t : State, exec (.cnpReceived qp) s = .next t ∧ t.qps.find qp = some
      { q with rate := max (s.minRate q.port) (q.rate * (100 - s.portReg q.port 0x0A) / 100), cnpSeen := some s.timer } ∧
      (∀ k, k ≠ qp → t.qps.find k = s.qps.find k) ∧ t.portReg q.port 0x10 =
        min (2 ^ 32 - 1) (s.portReg q.port 0x10 / 2 ^ 32) * 2 ^ 32 + min (2 ^ 32 - 1) (s.portReg q.port 0x10 % 2 ^ 32 + 1)) := by
  intro u
  obtain ⟨f, o, r, harr, -⟩ := portArrive_eq s q.port
  have hu : u = s.arrived f o r := harr
  have hecn : exec (.ecnMarkedPacket qp) s = execEcnMarkedPacket qp s := rfl
  have hcnp : exec (.cnpReceived qp) s = execCnpReceived qp s := rfl
  rw [execEcnMarkedPacket, hlive] at hecn
  rw [execCnpReceived, hlive] at hcnp
  dsimp only at hecn hcnp
  have htimer : u.timer = s.timer := by rw [hu]; rfl
  refine ⟨fun t0 hsent hlt => ?_, fun hdue => ?_, _, hcnp, ?_⟩
  · rw [hecn, hsent]
    exact if_neg (by rw [decide_eq_true_eq]; change ¬ t0 + 50000 ≤ u.timer; omega)
  · rw [hecn, ← htimer]
    rw [← htimer] at hdue
    refine if_pos ?_
    cases hsent : q.cnpSent with
    | none => rfl
    | some t0 => exact decide_eq_true (hdue t0 hsent)
  · rw [harr]
    exact ⟨Tbl.find_set_self .., fun k hk => Tbl.find_set_ne _ _ hk, State.reg_setReg_self ..⟩

/-- A recovery period without a CNP raises the rate by a step, between its bounds. -/
theorem rateRecovery_rows {s : State} {qp : Nat} {q : Qp} (hlive : s.liveQp qp = some q) {t0 : Nat} (hseen : q.cnpSeen = some t0) :
    (s.timer < t0 + s.portReg q.port 0x0B * 1000 → exec (.rateRecoveryTimer qp) s = .next s) ∧
      (t0 + s.portReg q.port 0x0B * 1000 ≤ s.timer → ∃ (t : State) (y : Qp), exec (.rateRecoveryTimer qp) s = .next t ∧
        t.qps.find qp = some y ∧ y.rate = min 200000 (max (s.minRate q.port) (q.rate + s.rateStep q.port)) ∧
        (q.rate ≤ 200000 → q.rate ≤ y.rate ∧ y.rate ≤ 200000)) := by
  have hexec : exec (.rateRecoveryTimer qp) s = execRateRecoveryTimer qp s := rfl
  rw [execRateRecoveryTimer, hlive] at hexec
  dsimp only at hexec
  rw [hseen] at hexec
  dsimp only at hexec
  refine ⟨fun hlt => hexec.trans (if_pos hlt), fun hle => ⟨_, _, hexec.trans (if_neg (Nat.not_lt.mpr hle)), Tbl.find_set_self .., rfl, fun hrate => ?_⟩⟩
  dsimp only
  omega

/-! ### Messages for a pair that cannot take them (spec/17 R489, R491) -/

theorem exec_of_no_liveQp {s : State} {qp : Nat} (h : s.liveQp qp = none) {i : Instr}
    (hi : i ∈ [Instr.ecnMarkedPacket qp, .cnpReceived qp, .atomicRequest qp, .completionConsumedWrite qp 0 0, .rdmaReadInbound qp 0 0 0,
      .rdmaWriteInbound qp 0 0 []]) : exec i s = .next (s.noQp qp) := by
  simp only [List.mem_cons, List.not_mem_nil, or_false] at hi
  rcases hi with rfl | rfl | rfl | rfl | rfl | rfl
  · change execEcnMarkedPacket qp s = _
    rw [execEcnMarkedPacket, h]
  · change execCnpReceived qp s = _
    rw [execCnpReceived, h]
  · change execAtomicRequest qp s = _
    rw [execAtomicRequest, h]
  · change execCompletionConsumedWrite qp 0 0 s = _
    rw [execCompletionConsumedWrite, h]
  · change execRdmaReadInbound qp 0 0 0 s = _
    rw [execRdmaReadInbound, h]
  · change execRdmaWriteInbound qp 0 0 [] s = _
    rw [execRdmaWriteInbound, h]

theorem noQp_of_find {s : State} {qp : Nat} {q : Qp} (hq : s.qps.find qp = some q) :
    (s.portUp q.port = false → s.noQp qp = s) ∧
      (s.portUp q.port = true → (q.error = true → s.noQp qp = s.dropPort q.port 0x01 q.allot) ∧
        (q.error = false → q.isProtected = true → s.noQp qp = s.dropPort q.port 0x04 q.allot) ∧
        (q.error = false → q.isProtected = false → s.noQp qp = s.dropPort q.port 0x03 q.allot)) := by
  have hno : s.noQp qp = if (!s.portUp q.port) = true then s
      else s.dropPort q.port (if q.error then 0x01 else if q.isProtected then 0x04 else 0x03) q.allot := by rw [State.noQp, hq]
  rw [hno]
  refine ⟨fun hdown => if_pos (by simp [hdown]), fun hup => ?_⟩
  rw [if_neg (by simp [hup])]
  exact ⟨fun herr => by rw [if_pos herr], fun herr hprot => by rw [if_neg (by simp [herr]), if_pos hprot],
    fun herr hprot => by rw [if_neg (by simp [herr]), if_neg (by simp [hprot])]⟩

theorem qpDisconnect_row {s : State} {qp : Nat} {q : Qp} (hq : s.qps.find qp = some q) : ∃ t, exec (.qpDisconnect qp) s = .next t ∧
    t.qps.find qp = none ∧ (∀ k, k ≠ qp → t.qps.find k = s.qps.find k) ∧ t.mem = s.mem := by
  have hexec : exec (.qpDisconnect qp) s = execQpDisconnect qp s := rfl
  rw [execQpDisconnect, hq] at hexec
  refine ⟨_, hexec, Tbl.find_erase_self .., fun k hk => (Tbl.find_erase_ne _ hk).trans ?_, mem_failQp s qp⟩
  rw [(failQp_channelFrame hq).1]
  exact Tbl.find_set_ne _ _ hk

/-- Settles O57: the rows of connections, frames, rates and ports, each from its own lemma. -/
theorem hostPorts : Obligations.HostPorts := by
  refine ⟨fun s n p prot hup => ?_, fun s p hp hup hphase hen => ?_, fun s qp q hq => qpDisconnect_row hq, portArrive_cases, fun s qp q hlive => ?_,
    fun s qp hnone => ⟨fun i hi => exec_of_no_liveQp hnone hi, fun hq => ?_, fun q hq => noQp_of_find hq⟩⟩
  · obtain ⟨hdrop, hreject, hconnect⟩ := rdmaCmConnect_rows n prot hup
    refine ⟨hdrop, hreject, hconnect, unacceptedFrame_rows hup, fun sci an hn hsci => dropCode_onChannel s sci an hn hsci, nonRoceFrame_row hup,
      fun prio pause => ?_, hostPortDark_row hup⟩
    change execPfcPauseReceived p prio pause s = _
    rw [execPfcPauseReceived, apply_ite Host.Outcome.next]
    simp only [hup, true_and]
  · exact if_pos ⟨hp, hup, hphase, hen⟩
  · obtain ⟨hkept, hsent, hcnp⟩ := congestion_rows hlive
    exact ⟨hkept, hsent, hcnp, fun t0 hseen => rateRecovery_rows hlive hseen⟩
  · rw [State.noQp, hq]

end Sys2Proof.Machine
end

section
/-! LMP messages and single writes (spec/16 R469 to R485). -/

namespace Sys2Proof.Machine

/-! ### Sequence numbers (spec/16 R481) -/

theorem foldl_max_le_iff (l : List Nat) (a b : Nat) : l.foldl max a ≤ b ↔ a ≤ b ∧ ∀ m ∈ l, m ≤ b := by
  induction l generalizing a with
  | nil => simp
  | cons n l ih =>
    rw [List.foldl_cons, ih, Nat.max_le, List.forall_mem_cons]
    tauto

theorem acceptsSeq_iff (x : Session) (n : Nat) : x.acceptsSeq n = true ↔ n ∉ x.accepted ∧ ∀ m ∈ x.accepted, m ≤ n + 64 := by
  unfold Session.acceptsSeq
  simp only [Bool.and_eq_true, Bool.or_eq_true, Bool.not_eq_true', decide_eq_true_eq, foldl_max_le_iff, Nat.zero_le, true_and,
    List.contains_eq_mem, decide_eq_false_iff_not, List.isEmpty_iff]
  refine and_congr_right fun _ => or_iff_right_of_imp fun hnil => ?_
  simp [hnil]

theorem foldl_max_mem (l : List Nat) (a : Nat) : l.foldl max a = a ∨ l.foldl max a ∈ l := by
  induction l generalizing a with
  | nil => exact .inl rfl
  | cons n l ih =>
    rw [List.foldl_cons]
    rcases ih (max a n) with h | h
    · rcases Nat.le_total a n with hle | hle
      · rw [h, Nat.max_eq_right hle]
        exact .inr (List.mem_cons_self ..)
      · rw [h, Nat.max_eq_left hle]
        exact .inl rfl
    · exact .inr (List.mem_cons_of_mem _ h)

theorem mem_acceptSeq {x : Session} {n m : Nat} (h : m ∈ (x.acceptSeq n).accepted) : m = n ∨ m ∈ x.accepted :=
  List.mem_cons.mp (List.mem_filter.mp h).1

/-- A number accepted is not accepted again: it is held, or lies too far below the highest. -/
theorem not_acceptsSeq_acceptSeq (x : Session) (n : Nat) : (x.acceptSeq n).acceptsSeq n = false := by
  rw [Bool.eq_false_iff, ne_eq, acceptsSeq_iff]
  rintro ⟨hnot, hlow⟩
  have htop : (n :: x.accepted).foldl max 0 ∈ n :: x.accepted := by
    rcases foldl_max_mem (n :: x.accepted) 0 with h | h
    · have hn := ((foldl_max_le_iff (n :: x.accepted) 0 0).mp h.le).2 n (List.mem_cons_self ..)
      rw [h, ← Nat.le_zero.mp hn]
      exact List.mem_cons_self ..
    · exact h
  have hle := hlow _ (List.mem_filter.mpr ⟨htop, by simp⟩)
  exact hnot (List.mem_filter.mpr ⟨List.mem_cons_self .., by simpa using hle⟩)

/-! ### Datagrams and messages (spec/16 R469, R480 to R485) -/

theorem lmpDatagram_rows {s : State} {path : LmpPath} (sess : Nat) (bytes : List Byte) (hheard : s.heard path = true) (hhears : s.hears = true) :
    let w := ofLe (bytes.take 16)
    let good := 16 ≤ bytes.length ∧ bytes.length ≤ pathLimit path ∧ fld w 15 0 = 0x4D4C ∧ fld w 23 16 = 1 ∧ fld w 63 32 = 0 ∧
      (fld w 31 24 = 1 ∨ fld w 31 24 = 2)
    (¬good → exec (.lmpDatagram path sess bytes) s = .next (s.logDrop 0xFFFF 0)) ∧
    (good → fld w 31 24 = 2 →
      (s.session sess = none → exec (.lmpDatagram path sess bytes) s = .next (s.emit (.spdm (some sess) .invalidSession))) ∧
      (∀ x, s.session sess = some x →
        (x.acceptsSeq (fld w 127 64) = true →
          let y := x.acceptSeq (fld w 127 64)
          exec (.lmpDatagram path sess bytes) s = .next ((s.setSession sess y).takeMessage sess y (bytes.drop 16))) ∧
        (x.acceptsSeq (fld w 127 64) = false → exec (.lmpDatagram path sess bytes) s = .next s))) := by
  intro w good
  have hexec : exec (.lmpDatagram path sess bytes) s = execLmpDatagram path sess bytes s := rfl
  rw [execLmpDatagram, if_neg (by simp [hheard, hhears])] at hexec
  change _ = if bytes.length < 16 ∨ pathLimit path < bytes.length ∨ fld w 15 0 ≠ 0x4D4C ∨ fld w 23 16 ≠ 1 ∨ fld w 63 32 ≠ 0 ∨
      (fld w 31 24 ≠ 1 ∧ fld w 31 24 ≠ 2) then _ else if fld w 31 24 = 1 then _ else _ at hexec
  have hbad : (bytes.length < 16 ∨ pathLimit path < bytes.length ∨ fld w 15 0 ≠ 0x4D4C ∨ fld w 23 16 ≠ 1 ∨ fld w 63 32 ≠ 0 ∨
      (fld w 31 24 ≠ 1 ∧ fld w 31 24 ≠ 2)) ↔ ¬good := by
    simp only [good, not_and_or, not_or, Nat.not_le, ne_eq]
  refine ⟨fun h => hexec.trans (if_pos (hbad.mpr h)), fun h htype => ?_⟩
  rw [if_neg (fun hno => hbad.mp hno h), if_neg (by omega)] at hexec
  refine ⟨fun hx => ?_, fun x hx => ⟨fun hacc => ?_, fun hacc => ?_⟩⟩
  · rw [hexec, hx]
  · rw [hexec, hx]
    exact if_pos hacc
  · rw [hexec, hx]
    exact if_neg (by simp [w, hacc])

theorem lmpAccessMessage_rows {s : State} (sess : Nat) (bytes : List Byte) (hhears : s.hears = true) :
    (s.session sess = none → exec (.lmpAccessMessage sess bytes) s = .next (s.emit (.spdm (some sess) .invalidSession))) ∧
    (∀ x, s.session sess = some x →
      let h := ofLe (bytes.take 8)
      let txid := h % 2 ^ 32
      let r := parseOps (fld h 39 32) (bytes.drop 8)
      let good := r.2 && decide (1 ≤ fld h 39 32) && decide (fld h 39 32 ≤ 64) && fld h 63 40 == 0
      (maxSpdmMessage < bytes.length → exec (.lmpAccessMessage sess bytes) s = .next s) ∧ maxSpdmMessage = 65536 ∧
      (8 ≤ bytes.length → bytes.length ≤ maxSpdmMessage →
        (∀ e, x.answers.find? (fun e => e.1 == txid) = some e → ∃ t, exec (.lmpAccessMessage sess bytes) s = .next t ∧
          t.out = .answer sess x.sent e.2 :: s.out ∧ t.regs = s.regs ∧ t.mem = s.mem) ∧
        (x.answers.find? (fun e => e.1 == txid) = none →
          ((∃ m ∈ x.msgs, m.txid = txid) → exec (.lmpAccessMessage sess bytes) s = .next s) ∧
          ((∀ m ∈ x.msgs, m.txid ≠ txid) → x.msgs.length < 16 →
            (good = true → exec (.lmpAccessMessage sess bytes) s =
              .next (s.setSession sess { x with msgs := x.msgs ++ [{ txid := txid, todo := r.1, ready := [] }] }).settle) ∧
            (good = false → exec (.lmpAccessMessage sess bytes) s =
              .next (s.sendAnswer sess txid (answerBytes txid (r.1.map (fun o => (o, Status.shapeMismatch, o.value)))))))))) := by
  have hexec : exec (.lmpAccessMessage sess bytes) s = execLmpAccessMessage sess bytes s := rfl
  rw [execLmpAccessMessage, if_neg (by simp [hhears])] at hexec
  refine ⟨fun hx => by rw [hexec, hx], fun x hx => ?_⟩
  rw [hx] at hexec
  change _ = Host.Outcome.next (s.takeMessage sess x bytes) at hexec
  rw [hexec]
  intro h txid r good
  refine ⟨fun hlong => congrArg _ (if_pos (.inr hlong)), rfl, fun hshort hfits => ?_⟩
  have htake : s.takeMessage sess x bytes = (match x.answers.find? (fun e => e.1 == txid) with
    | some e => (s.modSession sess (fun y => { y with sent := y.sent + chunksOf y.path e.2.length })).emit (.answer sess x.sent e.2)
    | none =>
      if (x.msgs.any (fun m => m.txid == txid) || decide (16 ≤ x.msgs.length)) = true then s
      else if good = true then (s.setSession sess { x with msgs := x.msgs ++ [{ txid := txid, todo := r.1, ready := [] }] }).settle
      else s.sendAnswer sess txid (answerBytes txid (r.1.map (fun o => (o, Status.shapeMismatch, o.value))))) :=
    if_neg (not_or.mpr ⟨Nat.not_lt.mpr hshort, Nat.not_lt.mpr hfits⟩)
  refine ⟨fun e he => ?_, fun hnone => ?_⟩
  · rw [he] at htake
    dsimp only at htake
    refine ⟨_, congrArg _ htake, ?_⟩
    rw [(State.modSession_spec ..).1]
    exact ⟨rfl, rfl, rfl⟩
  · rw [hnone] at htake
    refine ⟨fun hdup => ?_, fun hnew hroom => ⟨fun hgood => ?_, fun hbad => ?_⟩⟩
    · rw [htake]
      exact congrArg _ (if_pos (by rw [List.any_eq_true.mpr (by simpa using hdup), Bool.true_or]))
    all_goals
      have hany : (x.msgs.any (fun m => m.txid == txid) || decide (16 ≤ x.msgs.length)) = false := by
        rw [Bool.or_eq_false_iff, List.any_eq_false, decide_eq_false_iff_not]
        exact ⟨fun m hm => by simpa using hnew m hm, by omega⟩
    · rw [htake, if_neg (by simp [hany]), if_pos hgood]
    · rw [htake, if_neg (by simp [hany]), if_neg (by simp [hbad])]

/-! ### Single writes (spec/16 R471, R484) -/

/-- Where a written value goes: to the session's own objects, pending under an apply, or in force. -/
def State.takesValue (s : State) (sess idx sub c : Nat) : State :=
  if perSession idx sub then s.modSession sess (fun y => y.setOwn idx sub c)
  else if (applyOf idx sub).isSome then s.modSession sess (fun y => { y with pend := y.pend.set (objKey idx sub) c })
  else s.putReg idx sub c

theorem takesValue_spec {s : State} {sess : Nat} {x : Session} (hx : s.session sess = some x) (idx sub c : Nat) :
    let t := s.takesValue sess idx sub c
    t.out = s.out ∧ t.mem = s.mem ∧
      (perSession idx sub = true → t.regs = s.regs ∧ ∃ y, t.session sess = some y ∧ y.ownVal idx sub = c) ∧
      (perSession idx sub = false → (applyOf idx sub).isSome = true →
        t.regs = s.regs ∧ ∃ y, t.session sess = some y ∧ y.pend.find (objKey idx sub) = some c) ∧
      (perSession idx sub = false → (applyOf idx sub).isSome = false → t.reg idx sub = c ∧ t.sessions = s.sessions ∧
        ∀ k, k ≠ objKey idx sub → t.regs.find k = s.regs.find k) := by
  intro t
  have hmod (f : Session → Session) : (s.modSession sess f).out = s.out ∧ (s.modSession sess f).mem = s.mem ∧ (s.modSession sess f).regs = s.regs ∧
      (s.modSession sess f).session sess = some (f x) := by
    obtain ⟨hframe, hself, -⟩ := s.modSession_spec sess f
    refine ⟨?_, ?_, ?_, hself x hx⟩ <;> rw [hframe]
  cases hper : perSession idx sub with
  | true =>
    obtain ⟨hout, hmem, hregs, hself⟩ := hmod (fun y => y.setOwn idx sub c)
    have ht : t = s.modSession sess (fun y => y.setOwn idx sub c) := if_pos hper
    rw [ht]
    exact ⟨hout, hmem, fun _ => ⟨hregs, _, hself, Session.ownVal_setOwn_self ..⟩, nofun, nofun⟩
  | false =>
    have ht : t = if (applyOf idx sub).isSome then s.modSession sess (fun y => { y with pend := y.pend.set (objKey idx sub) c })
        else s.putReg idx sub c := if_neg (by simp [hper])
    cases happly : (applyOf idx sub).isSome with
    | true =>
      obtain ⟨hout, hmem, hregs, hself⟩ := hmod (fun y => { y with pend := y.pend.set (objKey idx sub) c })
      rw [ht, if_pos happly]
      exact ⟨hout, hmem, nofun, fun _ _ => ⟨hregs, _, hself, Tbl.find_set_self ..⟩, nofun⟩
    | false =>
      obtain ⟨hregs, hframe⟩ := State.putReg_spec s idx sub c
      rw [ht, if_neg (by simp [happly])]
      refine ⟨by rw [hframe], by rw [hframe], nofun, nofun, fun _ _ => ⟨State.reg_putReg_self .., by rw [hframe], fun k hk => ?_⟩⟩
      rw [hregs]
      exact Tbl.find_set_ne _ _ hk

theorem noteClamp_sessions (s : State) (idx sub old new : Nat) (r : Role) : (s.noteClamp idx sub old new r).sessions = s.sessions := by
  have hlog : ∀ fuel, (s.logClamp idx sub old new (roleCode r) fuel).sessions = s.sessions := by
    intro fuel
    induction fuel with
    | zero => rfl
    | succ fuel ih =>
      unfold State.logClamp
      dsimp only
      split <;> exact ih
  exact hlog 4

/-- A write that its object takes: the value with its clamp, which is recorded when it changes the value. -/
theorem writeObject_taken {s : State} {sess : Nat} {x : Session} (hx : s.session sess = some x) {idx sub v c : Nat} {d : ObjDef} {r : Role}
    (hd : objDef idx sub = some d) (hmay : s.mayAccess x idx sub true = some r) (hopen : s.sealedField idx sub = false) (hfits : v < 2 ^ (8 * d.ty.size))
    (hc : s.clampWrite x r d idx sub v = c) : s.writeObject sess idx sub v =
      ((if c = v then s else s.noteClamp idx sub v c r).takesValue sess idx sub c, if c = v then .ok else .clamped, c) := by
  unfold State.writeObject
  rw [hx, hd]
  dsimp only
  rw [hmay]
  dsimp only
  rw [if_neg (by simp [hopen]), if_neg (Nat.not_le.mpr hfits), hc]
  rfl

theorem registerWrite_rows {s : State} {sess : Nat} {index : W16} {sub : Byte} (value : Nat) {x : Session}
    (hhears : s.hears = true) (hidle : s.sessionIdle sess = true) (hplain : plainObject index.toNat sub.toNat = true)
    (hbars : s.recoveryBars index.toNat = false) (hne : index.toNat ≠ 0x7F01) (hx : s.session sess = some x) :
    exec (.registerWrite sess index sub value) s = State.wrote ((s.writeObject sess index.toNat sub.toNat value).1,
      (s.writeObject sess index.toNat sub.toNat value).2.1) sess index.toNat sub.toNat := by
  change execRegisterWrite sess index sub value s = _
  rw [execRegisterWrite, if_pos (by simp [hhears, hidle, hplain]), onSession_of_open hx, if_neg (by simp [hbars]), if_neg (fun h => hne h.1)]

/-- Settles O54: datagrams, messages and single writes, each by its rows. -/
theorem lmpMessages : Obligations.LmpMessages := by
  refine ⟨fun s path sess bytes hheard hhears => lmpDatagram_rows sess bytes hheard hhears,
    fun x n => ⟨acceptsSeq_iff x n, fun m => mem_acceptSeq, not_acceptsSeq_acceptSeq x n⟩, fun s sess bytes hhears => lmpAccessMessage_rows sess bytes hhears,
    fun s sess index sub value x d r => ?_⟩
  intro idx su hhears hidle hplain hbars hne hx hd
  have hexec := registerWrite_rows value hhears hidle hplain hbars hne hx
  change _ = State.wrote ((s.writeObject sess idx su value).1, (s.writeObject sess idx su value).2.1) sess idx su at hexec
  have hwrite {t : State} {st : Status} {c : Nat} (h : s.writeObject sess idx su value = (t, st, c)) :
      exec (.registerWrite sess index sub value) s = .next (t.emit (.wrote sess idx su st)) := by
    rw [hexec, h]
    rfl
  refine ⟨fun hno => hwrite (writeObject_denied hx (by simp [hno])), fun hmay hsealed => hwrite (c := 0) ?_, fun hmay hopen hbig => hwrite (c := 0) ?_,
    fun hmay hopen hfits hc => ?_, fun c hmay hopen hfits hc hcne => ?_, fun s' hhears' hbusy => ?_⟩
  · unfold State.writeObject
    rw [hx, hd]
    dsimp only
    rw [hmay]
    exact if_pos hsealed
  · unfold State.writeObject
    rw [hx, hd]
    dsimp only
    rw [hmay]
    dsimp only
    rw [if_neg (by simp [hopen]), if_pos hbig]
  · have htaken := writeObject_taken hx hd hmay hopen hfits hc
    rw [if_pos rfl, if_pos rfl] at htaken
    obtain ⟨hout, hmem, hown, hpend, hforce⟩ := takesValue_spec hx idx su value
    exact ⟨_, hwrite htaken, congrArg (List.cons _) hout, hmem, hown, hpend, hforce⟩
  · have htaken := writeObject_taken hx hd hmay hopen hfits hc
    rw [if_neg hcne, if_neg hcne] at htaken
    have hx' : (s.noteClamp idx su value c r).session sess = some x := by
      rw [State.session, noteClamp_sessions]
      exact hx
    obtain ⟨hout, hmem, hown, hpend, hforce⟩ := takesValue_spec hx' idx su c
    exact ⟨_, hwrite htaken, congrArg (List.cons _) (hout.trans (noteClamp_keeps ..)), hmem.trans (mem_noteClamp ..),
      fun h => (hown h).2, fun h h' => (hpend h h').2, fun h h' => (hforce h h').1⟩
  · change execRegisterWrite sess index sub value s' = _
    exact if_neg (by simp [hbusy])

end Sys2Proof.Machine
end

section
/-! Slots of the Well: applies, seals and clears (spec/16 R475 to R477). -/

namespace Sys2Proof.Machine

/-! ### Memory that is zeroed -/

theorem Mem.read_zero_cons (c : Host.Cell) (m : List Host.Cell) (lo hi p : Nat) : Mem.read (Mem.zero (c :: m) lo hi) p =
    if (c.1 < lo ∨ hi ≤ c.1) ∧ c.1 = p then c.2 else Mem.read (Mem.zero m lo hi) p := by
  unfold Mem.zero
  by_cases hc : c.1 < lo ∨ hi ≤ c.1
  · rw [List.filter_cons_of_pos (by simpa using hc), Mem.read]
    simp only [hc, true_and]
  · rw [List.filter_cons_of_neg (by simpa using hc), if_neg (fun h => hc h.1)]

/-- A byte of a zeroed range reads 0, and any other as before. -/
theorem Mem.read_zero (m : List Host.Cell) (lo hi p : Nat) : Mem.read (Mem.zero m lo hi) p = if lo ≤ p ∧ p < hi then 0 else Mem.read m p := by
  induction m with
  | nil => exact (ite_self _).symm
  | cons c m ih =>
    rw [Mem.read_zero_cons, ih, Mem.read]
    by_cases hc : c.1 = p
    · subst hc
      by_cases hin : lo ≤ c.1 ∧ c.1 < hi
      · rw [if_pos hin, if_neg (by omega), if_pos hin]
      · rw [if_neg hin, if_pos ⟨by omega, rfl⟩, if_neg hin, if_pos rfl]
    · rw [if_neg (fun h => hc h.2), if_neg hc]

theorem Mem.read_zero_of_zero (m : List Host.Cell) (lo hi : Nat) {p : Nat} (h : Mem.read m p = 0) : Mem.read (Mem.zero m lo hi) p = 0 := by
  rw [Mem.read_zero, h, ite_self]

/-- Frames zeroed: their bytes read 0, and only memory and poison change. -/
theorem zeroFrames_spec (fs : List Nat) (s : State) :
    let t := fs.foldl (fun t f => t.zeroRange (f * 0x200000) ((f + 1) * 0x200000)) s
    t = { s with mem := t.mem, poison := t.poison } ∧ (∀ p, Mem.read s.mem p = 0 → Mem.read t.mem p = 0) ∧
      ∀ f ∈ fs, ∀ p, f * 0x200000 ≤ p → p < (f + 1) * 0x200000 → Mem.read t.mem p = 0 := by
  induction fs generalizing s with
  | nil => exact ⟨rfl, fun _ => id, by simp⟩
  | cons f fs ih =>
    obtain ⟨hframe, hkept, hzero⟩ := ih (s.zeroRange (f * 0x200000) ((f + 1) * 0x200000))
    refine ⟨hframe.trans rfl, fun p hp => hkept p (Mem.read_zero_of_zero _ _ _ hp), List.forall_mem_cons.mpr ⟨fun p hlo hhi => ?_, hzero⟩⟩
    exact hkept p ((Mem.read_zero ..).trans (if_pos ⟨hlo, hhi⟩))

/-! ### Slots of the Well (spec/16 R475 to R477) -/

/-- What the completion of a slot's actions changes: the slot's result, sessions and what is sent. -/
def DoneFrame (slot : Nat) (s t : State) : Prop :=
  t = { s with regs := t.regs, sessions := t.sessions, out := t.out } ∧ ∀ sub, sub ≠ 0x0B → t.wellReg slot sub = s.wellReg slot sub

theorem DoneFrame.refl (slot : Nat) (s : State) : DoneFrame slot s s := ⟨rfl, fun _ _ => rfl⟩

theorem DoneFrame.trans {slot : Nat} {s t u : State} (h : DoneFrame slot s t) (k : DoneFrame slot t u) : DoneFrame slot s u := by
  obtain ⟨hst, hreg⟩ := h
  obtain ⟨htu, hreg'⟩ := k
  refine ⟨?_, fun sub hsub => (hreg' sub hsub).trans (hreg sub hsub)⟩
  rw [htu, hst]

theorem DoneFrame.keeps {slot : Nat} {s t : State} (h : DoneFrame slot s t) : t.mem = s.mem ∧ t.wells = s.wells ∧ t.hbmUsed = s.hbmUsed := by
  refine ⟨?_, ?_, ?_⟩ <;> rw [h.1]

theorem actionDone_frame (slot : Nat) (s : State) (sess idx sub : Nat) (st : Status) : DoneFrame slot s (s.actionDone sess idx sub st) := by
  unfold State.actionDone
  split
  · exact .refl slot s
  · split <;> exact ⟨rfl, fun _ _ => rfl⟩

theorem wellDone_frame (s : State) (slot : Nat) (l : List (Nat × Status)) : DoneFrame slot s (s.wellDone slot l) :=
  foldl_frame (R := DoneFrame slot) (.refl slot) .trans
    (fun (t : State) (e : Nat × Status) => DoneFrame.trans (t := t.setWellReg slot 0x0B (stCode e.2)) ⟨rfl, fun _ hsub => reg_setReg_ne_sub _ _ hsub⟩
      (actionDone_frame slot _ e.1 (0x3201 + slot) 0x0A e.2)) l s

theorem wellSlot_modWell_self (s : State) (slot : Nat) (f : WellSlot → WellSlot) : (s.modWell slot f).wellSlot slot = f (s.wellSlot slot) :=
  Tbl.get_set_self ..

theorem wellSlot_modWell_ne (s : State) {slot k : Nat} (f : WellSlot → WellSlot) (h : k ≠ slot) : (s.modWell slot f).wellSlot k = s.wellSlot k :=
  Tbl.get_set_ne _ _ _ h

theorem wellReg_setWellReg_self (s : State) (slot sub v : Nat) : (s.setWellReg slot sub v).wellReg slot sub = v := State.reg_setReg_self ..

theorem wellReg_setWellReg_ne (s : State) (slot : Nat) {sub sub' : Nat} (v : Nat) (h : sub' ≠ sub) :
    (s.setWellReg slot sub v).wellReg slot sub' = s.wellReg slot sub' := reg_setReg_ne_sub s v h

/-- A slot whose digest is recorded, before its sessions are told. -/
def State.sealedWell (s : State) (slot digest sig : Nat) : State :=
  (((s.setWellReg slot 0x06 digest).setWellReg slot 0x07 sig).setWellReg slot 0x01 2).modWell slot (fun w => { w with sealing := false, sealers := [] })

theorem sealedWell_spec (s : State) (slot digest sig : Nat) : let t := s.sealedWell slot digest sig
    t.wellReg slot 1 = 2 ∧ t.wellReg slot 6 = digest ∧ t.wellReg slot 7 = sig ∧
      t.wellSlot slot = { s.wellSlot slot with sealing := false, sealers := [] } ∧ t.mem = s.mem := by
  refine ⟨wellReg_setWellReg_self .., ?_, ?_, wellSlot_modWell_self .., rfl⟩
  · exact (wellReg_setWellReg_ne _ slot _ (by decide)).trans ((wellReg_setWellReg_ne _ slot _ (by decide)).trans (wellReg_setWellReg_self ..))
  · exact (wellReg_setWellReg_ne _ slot _ (by decide)).trans (wellReg_setWellReg_self ..)

/-- A slot whose digest is recorded is SEALED. -/
theorem wellSealed_spec {s : State} {slot : Nat} (h : (s.wellSlot slot).sealing = true) : let t := s.wellSealed slot
    t.wellRole slot = 2 ∧ t.wellDigest slot = s.wellImageDigest slot ∧ t.wellShape slot = s.wellSignature slot ∧
      (t.wellSlot slot).sealing = false ∧ (t.wellSlot slot).frames = (s.wellSlot slot).frames ∧ t.mem = s.mem := by
  intro t
  have ht : t = (s.sealedWell slot (s.wellImageDigest slot) (s.wellSignature slot)).wellDone slot (s.wellSlot slot).sealers := if_pos h
  obtain ⟨hrole, hdigest, hshape, hslot, hmem⟩ := sealedWell_spec s slot (s.wellImageDigest slot) (s.wellSignature slot)
  generalize s.sealedWell slot (s.wellImageDigest slot) (s.wellSignature slot) = s1 at ht hrole hdigest hshape hslot hmem
  have hdone := wellDone_frame s1 slot (s.wellSlot slot).sealers
  rw [← ht] at hdone
  obtain ⟨hmem', hwells, -⟩ := hdone.keeps
  have hslot' : t.wellSlot slot = { s.wellSlot slot with sealing := false, sealers := [] } := by
    rw [← hslot, State.wellSlot, hwells]
    rfl
  refine ⟨(hdone.2 1 (by decide)).trans hrole, (hdone.2 6 (by decide)).trans hdigest, (hdone.2 7 (by decide)).trans hshape, ?_, ?_, hmem'.trans hmem⟩
  · rw [hslot']
  · rw [hslot']

/-- The objects .03 to .07 of a slot, and its role, as a clear leaves them. -/
def State.clearObjs (s : State) (slot : Nat) : State := ([3, 4, 5, 6, 7].foldl (fun t i => t.setWellReg slot i 0) s).setWellReg slot 0x01 0

/-- A slot as its clear leaves it, before its sessions are told. -/
def State.emptyWell (s : State) (slot : Nat) : State :=
  let s2 := ((s.trimWell slot 0).modWell slot (fun w => { w with unmapped := false, sealers := [], clearers := [] })).clearObjs slot
  { s2 with removals := s2.removals.filter (fun (r : Removal) => r.kind != RemovalKind.wellSeal slot) }

theorem wellReg_foldl_setWellReg {l : List Nat} {i : Nat} (slot : Nat) (s : State) (h : i ∈ l ∨ s.wellReg slot i = 0) :
    (l.foldl (fun t i => t.setWellReg slot i 0) s).wellReg slot i = 0 := by
  induction l generalizing s with
  | nil => simpa using h
  | cons j l ih =>
    refine ih _ ?_
    by_cases hij : i = j
    · subst hij
      exact .inr (wellReg_setWellReg_self ..)
    · rw [wellReg_setWellReg_ne s slot _ hij]
      rcases h with h | h
      · exact .inl ((List.mem_cons.mp h).resolve_left hij)
      · exact .inr h

theorem clearObjs_spec (s : State) (slot : Nat) : let t := s.clearObjs slot
    t = { s with regs := t.regs } ∧ t.wellReg slot 1 = 0 ∧ ∀ i ∈ [3, 4, 5, 6, 7], t.wellReg slot i = 0 := by
  unfold State.clearObjs
  have hfold := foldl_frame (R := fun s t : State => t = { s with regs := t.regs }) (fun _ => rfl) (fun h k => by rw [k, h])
    (fun t i => (rfl : t.setWellReg slot i 0 = { t with regs := (t.setWellReg slot i 0).regs })) [3, 4, 5, 6, 7] s
  have hobjs (i : Nat) (hi : i ∈ [3, 4, 5, 6, 7]) := wellReg_foldl_setWellReg slot s (.inl hi)
  generalize [3, 4, 5, 6, 7].foldl (fun t i => t.setWellReg slot i 0) s = u at hfold hobjs
  refine ⟨?_, wellReg_setWellReg_self .., fun i hi => ?_⟩
  · rw [hfold]
    rfl
  have hne : i ≠ 1 := by
    rintro rfl
    revert hi
    decide
  exact (wellReg_setWellReg_ne _ slot _ hne).trans (hobjs i hi)

theorem trimWell_spec (s : State) (slot : Nat) : let t := s.trimWell slot 0
    (t.wellSlot slot).frames = [] ∧ (∀ k, k ≠ slot → t.wellSlot k = s.wellSlot k) ∧
      (∀ f ∈ (s.wellSlot slot).frames, ∀ p, f * 0x200000 ≤ p → p < (f + 1) * 0x200000 → Mem.read t.mem p = 0) ∧
      ∀ f ∈ (s.wellSlot slot).frames, f ∉ t.hbmUsed := by
  obtain ⟨hzeroed, -, hzero⟩ := zeroFrames_spec (s.wellSlot slot).frames s
  unfold State.trimWell
  rw [List.drop_zero]
  dsimp only
  generalize (s.wellSlot slot).frames.foldl (fun t f => t.zeroRange (f * 0x200000) ((f + 1) * 0x200000)) s = s1 at hzeroed hzero
  refine ⟨?_, fun k hk => ?_, hzero, fun f hf hused => ?_⟩
  · rw [wellSlot_modWell_self]
    rfl
  · rw [wellSlot_modWell_ne _ _ hk, hzeroed]
    rfl
  · have := (List.mem_filter.mp hused).2
    simp [hf] at this

theorem emptyWell_spec (s : State) (slot : Nat) : let t := s.emptyWell slot
    t.wellReg slot 1 = 0 ∧ (∀ i ∈ [3, 4, 5, 6, 7], t.wellReg slot i = 0) ∧ (t.wellSlot slot).frames = [] ∧ (t.wellSlot slot).unmapped = false ∧
      (∀ f ∈ (s.wellSlot slot).frames, ∀ p, f * 0x200000 ≤ p → p < (f + 1) * 0x200000 → Mem.read t.mem p = 0) ∧
      (∀ f ∈ (s.wellSlot slot).frames, f ∉ t.hbmUsed) ∧ ∀ k, k ≠ slot → t.wellSlot k = s.wellSlot k := by
  intro t
  obtain ⟨hframes, hothers, hzero, hfree⟩ := trimWell_spec s slot
  obtain ⟨s1, hs1⟩ : ∃ s1, s1 = (s.trimWell slot 0).modWell slot (fun w => { w with unmapped := false, sealers := [], clearers := [] }) := ⟨_, rfl⟩
  obtain ⟨hcleared, hrole, hobjs⟩ := clearObjs_spec s1 slot
  have hself : s1.wellSlot slot = { (s.trimWell slot 0).wellSlot slot with unmapped := false, sealers := [], clearers := [] } := by
    rw [hs1]
    exact wellSlot_modWell_self ..
  have hother (k : Nat) (hk : k ≠ slot) : s1.wellSlot k = s.wellSlot k := by
    rw [hs1, wellSlot_modWell_ne _ _ hk]
    exact hothers k hk
  have hzero1 : ∀ f ∈ (s.wellSlot slot).frames, ∀ p, f * 0x200000 ≤ p → p < (f + 1) * 0x200000 → Mem.read s1.mem p = 0 := by
    rw [hs1]
    exact hzero
  have hfree1 : ∀ f ∈ (s.wellSlot slot).frames, f ∉ s1.hbmUsed := by
    rw [hs1]
    exact hfree
  have ht : t = { s1.clearObjs slot with removals := (s1.clearObjs slot).removals.filter (fun (r : Removal) => r.kind != RemovalKind.wellSeal slot) } := by
    rw [hs1]
    rfl
  generalize s1.clearObjs slot = s2 at ht hcleared hrole hobjs
  rw [ht]
  have hslots (k : Nat) (l : List Removal) : ({ s2 with removals := l } : State).wellSlot k = s1.wellSlot k := by
    rw [hcleared]
    rfl
  refine ⟨hrole, hobjs, ?_, ?_, ?_, ?_, fun k hk => (hslots k _).trans (hother k hk)⟩
  · rw [hslots, hself]
    exact hframes
  · rw [hslots, hself]
  · rw [hcleared]
    exact hzero1
  · rw [hcleared]
    exact hfree1

/-- A slot cleared is EMPTY: its frames are zeroed and free, its objects 0. -/
theorem wellCleared_spec {s : State} {slot : Nat} (hslot : slot < 2) (h : (s.wellSlot slot).unmapped = true) : let t := s.wellCleared slot
    t.wellRole slot = 0 ∧ (∀ i ∈ [3, 4, 5, 6, 7], t.wellReg slot i = 0) ∧ (t.wellSlot slot).frames = [] ∧ (t.wellSlot slot).unmapped = false ∧
      (∀ f ∈ (s.wellSlot slot).frames, ∀ p, f * 0x200000 ≤ p → p < (f + 1) * 0x200000 → Mem.read t.mem p = 0) ∧
      (∀ f ∈ (s.wellSlot slot).frames, f ∉ t.hbmUsed) ∧ t.wellSlot (1 - slot) = s.wellSlot (1 - slot) := by
  intro t
  obtain ⟨l, ht⟩ : ∃ l, t = (s.emptyWell slot).wellDone slot l := ⟨_, if_pos h⟩
  obtain ⟨hrole, hobjs, hframes, hunmapped, hzero, hfree, hothers⟩ := emptyWell_spec s slot
  generalize s.emptyWell slot = s1 at ht hrole hobjs hframes hunmapped hzero hfree hothers
  have hdone := wellDone_frame s1 slot l
  rw [← ht] at hdone
  obtain ⟨hmem, hwells, hused⟩ := hdone.keeps
  have hslots (k : Nat) : t.wellSlot k = s1.wellSlot k := by rw [State.wellSlot, hwells, State.wellSlot]
  rw [hslots, hslots, hmem, hused]
  refine ⟨(hdone.2 1 (by decide)).trans hrole, fun i hi => (hdone.2 i ?_).trans (hobjs i hi), hframes, hunmapped, hzero, hfree,
    hothers _ (by omega)⟩
  rintro rfl
  revert hi
  decide

/-! ### Applies of a slot (spec/16 R475, R476) -/

/-- The commands of a slot's actions, by the action's number. -/
theorem wellAct_row {s : State} {sess slot : Nat} {x : Session} (hup : s.answers = true) (hslot : slot < 2) (hx : s.session sess = some x)
    (hidle : s.sessionIdle sess = true) {i : Instr} {k : Nat}
    (hc : (i, k) ∈ [(Instr.wellGeometryApply sess slot, 0), (.wellFill sess slot, 1), (.wellSeal sess slot, 2), (.wellSwitch sess slot, 3), (.wellClear sess slot, 4)])
    (hk : s.applying sess (0x3201 + slot) 9 = k) : exec i s = State.askedAlone (s.wellApply sess slot) sess (0x3201 + slot) 0x0A := by
  have hrow : s.wellRow sess slot k = State.askedAlone (s.wellApply sess slot) sess (0x3201 + slot) 0x0A := by
    rw [State.wellRow, rowOf_of_session hup hidle hx, hx]
    exact if_pos (by simp [hslot, hk])
  rw [← hrow]
  simp only [List.mem_cons, List.not_mem_nil, or_false, Prod.mk.injEq] at hc
  rcases hc with ⟨rfl, rfl⟩ | ⟨rfl, rfl⟩ | ⟨rfl, rfl⟩ | ⟨rfl, rfl⟩ | ⟨rfl, rfl⟩ <;> rfl

/-- Whether an apply of a slot fits its state. -/
def State.applyFits (s : State) (sess slot : Nat) : Bool :=
  s.wellFits slot (s.applying sess (0x3201 + slot) 9) (s.applying sess (0x3201 + slot) 3) &&
    (!s.wellFixed slot || [3, 4, 5].all (fun i => s.applying sess (0x3201 + slot) i == s.reg (0x3201 + slot) i))

/-- The model's test of a refusal is that an apply does not fit. -/
theorem not_applyFits (s : State) (sess slot : Nat) :
    (!s.wellFits slot (s.applying sess (0x3201 + slot) 9) (s.applying sess (0x3201 + slot) 3) ||
      ([3, 4, 5].any (fun i => s.applying sess (0x3201 + slot) i != s.reg (0x3201 + slot) i) && s.wellFixed slot)) = !s.applyFits sess slot := by
  unfold State.applyFits
  rw [Bool.not_and, Bool.not_or, Bool.not_not, List.all_eq_not_any_not, Bool.not_not, Bool.and_comm (s.wellFixed slot)]
  rfl

/-- The fields of a slot that an apply that fits takes, with the length that its pages hold. -/
def State.wellTaken (s : State) (sess slot len : Nat) : State :=
  let idx := 0x3201 + slot
  let v := fun i => s.applying sess idx i
  (if len = v 4 then s else s.noteClamp idx 4 (v 4) len .o).takeFields sess idx 0x0A [(idx, 3, v 3), (idx, 4, len), (idx, 5, v 5), (idx, 9, v 9)]

section
variable {s : State} {sess slot : Nat} (hslot : slot < 2) (hmay : s.mayApply sess (0x3201 + slot) 0x0A = true)
include hslot hmay

theorem wellApply_refused (hfits : s.applyFits sess slot = false) : s.wellApply sess slot =
    ((s.noteRefusal (0x3201 + slot) 0x0A .accessDenied (s.applyRole sess (0x3201 + slot) 0x0A)).setReg (0x3201 + slot) 0x0B (stCode .accessDenied),
      some .accessDenied) := by
  rw [State.wellApply, if_neg (by simp [hmay, hslot])]
  dsimp only
  rw [not_applyFits, hfits]
  rfl

theorem wellApply_taken (hfits : s.applyFits sess slot = true) :
    let v := fun i => s.applying sess (0x3201 + slot) i
    let len := if v 3 = 0 then v 4 else nearest 1 (v 3 * 0x200000) (v 4)
    let r := (s.wellTaken sess slot len).wellDo sess slot (v 9) (if len = v 4 then .ok else .clamped)
    s.wellApply sess slot = (match r.2 with
      | none => (r.1, none)
      | some t => (r.1.setReg (0x3201 + slot) 0x0B (stCode t), some t)) := by
  intro v len r
  rw [State.wellApply, if_neg (by simp [hmay, hslot])]
  dsimp only
  rw [not_applyFits, hfits]
  rfl

end

theorem wellDo_seal (s : State) (sess slot : Nat) (st : Status) : s.wellDo sess slot 2 st = ((s.sizeWell slot).beginSeal sess slot st, none) := rfl

theorem wellDo_clear (s : State) (sess slot : Nat) (st : Status) : s.wellDo sess slot 4 st = (s.beginClear sess slot st, none) := rfl

section
variable (s : State) (sess slot : Nat) (st : Status)

theorem beginSeal_first (h : (s.wellSlot slot).sealers = []) : s.beginSeal sess slot st =
    (s.modWell slot (fun w => { w with sealers := w.sealers ++ [(sess, st)] })).removeRight 0 (wellVa slot)
      (max (s.wellSlot slot).frames.length (s.wellReg slot 0x03) * 0x200000) (.wellSeal slot) := by
  rw [State.beginSeal, h]
  rfl

theorem beginSeal_joins (h : (s.wellSlot slot).sealers ≠ []) : s.beginSeal sess slot st =
    s.modWell slot (fun w => { w with sealers := w.sealers ++ [(sess, st)] }) := by
  rw [State.beginSeal, if_neg (mt List.isEmpty_iff.mp h)]

theorem beginClear_first (h : s.wellBusy slot = false) : s.beginClear sess slot st =
    (s.modWell slot (fun w => { w with clearers := w.clearers ++ [(sess, st)] })).removeRight 0 (wellVa slot)
      (max (s.wellSlot slot).frames.length (s.wellReg slot 0x03) * 0x200000) (.wellClear slot) := by
  rw [State.beginClear, h]
  rfl

theorem beginClear_joins (h : s.wellBusy slot = true) : s.beginClear sess slot st =
    s.modWell slot (fun w => { w with clearers := w.clearers ++ [(sess, st)] }) := by
  rw [State.beginClear, if_pos h]

end

/-- A slot's conditions, action by action (table Well actions). -/
theorem wellFits_iff (s : State) (slot k pages : Nat) : s.wellFits slot k pages = true ↔ (
    (k = 0 ∧ (s.wellRole slot = 0 ∨ s.wellRole slot = 1)) ∨
    (k = 1 ∧ s.wellRole slot = 0 ∧ s.wellRole (1 - slot) ≠ 1 ∧ s.wellRole (1 - slot) ≠ 2 ∧
      pages ≤ (s.wellSlot slot).frames.length + s.freePages) ∨
    (k = 2 ∧ s.wellRole slot = 1) ∨
    (k = 3 ∧ s.wellRole slot = 2 ∧ (s.wellRole (1 - slot) = 3 ∨ s.wellRole (1 - slot) = 0) ∧ s.wellBusy slot = false) ∨
    (4 ≤ k ∧ (s.wellRole slot = 1 ∨ s.wellRole slot = 2 ∨ (s.wellRole slot = 4 ∧ s.wellReg slot 0x08 = 0)))) := by
  unfold State.wellFits
  match k with
  | 0 => simp
  | 1 => simp [and_assoc]
  | 2 => simp
  | 3 => simp [and_assoc]
  | k + 4 => simp [or_assoc]

/-- Settles O49: the rows of an apply that is refused and of each action, and what a seal and a clear leave. -/
theorem wellActions : Obligations.WellActions := by
  refine ⟨fun s sess slot x hup hslot hx hwait halone hmay => ?_, fun s slot hslot => ⟨rfl, rfl, fun hno => if_neg (by simp [hno]),
    fun hno => if_neg (by simp [hno]), wellSealed_spec, wellCleared_spec hslot⟩⟩
  have hidle : s.sessionIdle sess = true := by
    unfold State.sessionIdle
    rw [hx]
    simp [hwait, halone]
  intro idx v fits pages done waits
  have hrow {i : Instr} {k : Nat} (hc : (i, k) ∈ [(Instr.wellGeometryApply sess slot, 0), (.wellFill sess slot, 1), (.wellSeal sess slot, 2),
      (.wellSwitch sess slot, 3), (.wellClear sess slot, 4)]) (hk : v 9 = k) := wellAct_row hup hslot hx hidle hc hk
  refine ⟨fun hfits c hc hk => ?_, fun hfits => ?_⟩
  · rw [hrow hc hk, wellApply_refused hslot hmay hfits]
    rfl
  · intro len st s2
    have htaken := wellApply_taken hslot hmay hfits
    change s.wellApply sess slot = (match (s2.wellDo sess slot (v 9) st).2 with
      | none => ((s2.wellDo sess slot (v 9) st).1, none)
      | some t => ((s2.wellDo sess slot (v 9) st).1.setReg idx 0x0B (stCode t), some t)) at htaken
    refine ⟨fun hk => ?_, fun hk => ?_, fun hk => ?_, fun hk => ?_, fun hk => ?_, fun k => wellFits_iff s slot k (v 3)⟩
    · rw [hrow (by simp) hk, htaken, hk]
      rfl
    · rw [hrow (by simp) hk, htaken, hk]
      rfl
    · have hexec : exec (.wellSeal sess slot) s = .next (waits ((s2.sizeWell slot).beginSeal sess slot st)) := by
        rw [hrow (by simp) hk, htaken, hk, wellDo_seal]
        generalize (s2.sizeWell slot).beginSeal sess slot st = u
        rfl
      rw [hexec]
      intro t u
      exact ⟨fun hnone => by rw [beginSeal_first _ sess slot st hnone], fun hsome => by rw [beginSeal_joins _ sess slot st hsome]⟩
    · rw [hrow (by simp) hk, htaken, hk]
      rfl
    · have hexec : exec (.wellClear sess slot) s = .next (waits (s2.beginClear sess slot st)) := by
        rw [hrow (by simp) hk, htaken, hk, wellDo_clear]
        generalize s2.beginClear sess slot st = u
        rfl
      rw [hexec]
      intro u
      exact ⟨fun hfree => by rw [beginClear_first _ sess slot st hfree], fun hbusy => by rw [beginClear_joins _ sess slot st hbusy]⟩

end Sys2Proof.Machine
end

section
/-! The reduction of the Moot (spec/14 R404 to R420). -/

namespace Sys2Proof.Machine

/-! ### The reduction (spec/14 R404 to R420) -/

/-- A node of two children adds them element by element. -/
theorem combine_both (p q : MPart) (hp : p.roll ≠ 0) (hq : q.roll ≠ 0) :
    (combine p q).1.data = List.zipWith (fun u v => (addF32 u v).1) p.data q.data ∧ (combine p q).1.roll = Nat.lor p.roll q.roll ∧
      (combine p q).1.samples = (p.samples + q.samples) % 2 ^ 64 ∧ (combine p q).1.faulty = p.faulty + q.faulty := by
  rw [combine, if_neg hq, if_neg hp]
  refine ⟨?_, rfl, rfl, rfl⟩
  dsimp only
  rw [List.map_map, List.zip, List.map_zipWith]
  rfl

/-- A write of the Moot, done or noted as refused, changes no mark. -/
theorem mark_mootWrite (s : State) (a : Nat) (c : Option Nat) (places : List VRange) (ws : List (Nat × List Byte)) (b core m : Nat) :
    ((s.mootWrite a c places ws).ctx b core).mark m = (s.ctx b core).mark m := by
  unfold State.mootWrite
  split
  · have hctxs : (ws.foldl (fun t w => t.writeVa a w.1 w.2) s).ctxs = s.ctxs :=
      foldl_frame (R := fun s t : State => t.ctxs = s.ctxs) (fun _ => rfl) (fun h k => k.trans h) (fun t w => ctxs_writeVa t a w.1 w.2) ws s
    rw [State.ctx, State.ctx?, hctxs]
    rfl
  · cases c with
    | none => rfl
    | some c =>
      dsimp only [Option.elim_some]
      rw [State.ctx, State.ctx, State.ctx?, State.modCtx, State.setCtx, State.ctx?]
      by_cases h : ctxKey b core = ctxKey a c
      · rw [h, Tbl.find_set_self]
        rfl
      · rw [Tbl.find_set_ne _ _ h]

theorem bucketAt_setBucket_self (s : State) (g b : Nat) (k : Bucket) : (s.setBucket g b k).bucketAt g b = some k := Tbl.find_set_self ..

/-- What follows the writes of a bucket that lands. -/
def State.landMark (s s1 : State) (g b : Nat) (k : Bucket) : State :=
  let s2 := { s1.setBucket g b { k with landed := true, deferred := false } with
    landingSlots := s1.landingSlots.set (s.landSlot g k.bucket) (k.bucket % 256) }
  (s.coreAt (s.mOwner g) (s.mReg g 0x05)).elim s2 (fun core => s2.modCtx (s.mOwner g) core (fun x => x.bumpMark (some (s.mReg g 0x06))))

/-- A landing writes, without a change of marks, and then marks the bucket. -/
theorem land_eq (s : State) (g b : Nat) (k : Bucket) (p : MPart) :
    ∃ s1 : State, (∀ a core m, (s1.ctx a core).mark m = (s.ctx a core).mark m) ∧ s.land g b k p = s.landMark s1 g b k := by
  unfold State.land
  extract_lets a n bytes c slot recAt data rec' s1
  exact ⟨s1, fun b core m => mark_mootWrite s a c _ _ b core m, rfl⟩

theorem bucketAt_land (s : State) (g b : Nat) (k : Bucket) (p : MPart) :
    (s.land g b k p).bucketAt g b = some { k with landed := true, deferred := false } := by
  obtain ⟨s1, -, hland⟩ := land_eq s g b k p
  rw [hland, State.landMark]
  dsimp only
  cases s.coreAt (s.mOwner g) (s.mReg g 5) with
  | none => exact Tbl.find_set_self ..
  | some c => exact Tbl.find_set_self ..

/-- The landing mark of the owner's core is incremented. -/
theorem mark_land (s : State) (g b : Nat) (k : Bucket) (p : MPart) {c : Nat} (hc : s.coreAt (s.mOwner g) (s.mReg g 0x05) = some c) :
    ((s.land g b k p).ctx (s.mOwner g) c).mark (s.mReg g 0x06) = (s.ctx (s.mOwner g) c).mark (s.mReg g 0x06) + 1 := by
  obtain ⟨s1, hmark, hland⟩ := land_eq s g b k p
  rw [hland, State.landMark]
  dsimp only
  rw [hc]
  dsimp only [Option.elim_some]
  rw [ctx_modCtx_self, ← hmark]
  exact (Ctx.marks_bumpMark _ _).1 _ rfl

/-- Settles O33: contributions, nodes, deadlines and landings, each by its row. -/
theorem mootReduction : Obligations.MootReduction := by
  refine ⟨fun s a core x i r g b hward hx hread hclean => ?_, combine_both, fun p q hq => ?_, fun p q hp hq => ?_, fun s g b level k e hk he => ?_,
    fun s g b k p hk hp hlanded => ?_⟩
  · change execContribReadDone a core s = _
    rw [execContribReadDone, if_neg (by simp [hward]), hx]
    dsimp only
    rw [hread]
    dsimp only
    rw [if_neg (by simp [hclean])]
    rfl
  · rw [combine, if_pos hq]
    exact ⟨rfl, rfl⟩
  · rw [combine, if_neg hq, if_pos hp]
    exact ⟨rfl, rfl⟩
  · have hexec : exec (.nodeDeadlineExpiry g b level) s = execNodeDeadlineExpiry g b level s := rfl
    rw [execNodeDeadlineExpiry, hk] at hexec
    dsimp only at hexec
    rw [he] at hexec
    rw [hexec]
    exact ⟨fun hlevel hdue => if_pos ⟨hlevel, hdue⟩, fun hno => if_neg (by omega)⟩
  · have hland : exec (.bucketLanding g b) s = execBucketLanding g b s := rfl
    have hdefer : exec (.deferredLanding g b) s = execDeferredLanding g b s := rfl
    rw [execBucketLanding, hk] at hland
    rw [execDeferredLanding, hk] at hdefer
    dsimp only at hland hdefer
    rw [hp] at hland hdefer
    dsimp only at hland hdefer
    rw [← hp] at hland
    refine ⟨fun hnot hfree => ?_, fun hnot hheld => ?_, fun hkept hfree => ?_, bucketAt_land s g b k p, fun c hc => mark_land s g b k p hc⟩
    · rw [hland, if_neg (by simp [hlanded, hnot]), if_neg (by simp [hfree])]
    · rw [hland, if_neg (by simp [hlanded, hnot]), if_pos hheld]
    · rw [hdefer, if_pos (by simp [hkept, hfree])]

end Sys2Proof.Machine
end

section
/-! Flits of the Moot, and groups that are lost (spec/14 R406 to R426). -/

namespace Sys2Proof.Machine

/-! ### Flits of the Moot (spec/14 R406, R419, R424) -/

section
variable {u : State} {hdr : FlitHdr} (f : State → State)

/-- A flit under the household of the owner of a defined slot is taken. -/
theorem mootFlit_taken (hg : hdr.vc - 4 < 12) (howner : u.mOwner (hdr.vc - 4) ≠ 0) (hhouse : u.householdAllot hdr.household = some (u.mOwner (hdr.vc - 4)))
    (hfree : u.mState (hdr.vc - 4) ≠ 0) (hlost : u.mState (hdr.vc - 4) ≠ 3) : u.mootFlit hdr f = f u := by
  unfold State.mootFlit
  dsimp only
  rw [if_neg (by omega), if_neg (by simp [hhouse]), if_neg (by simp [howner, hfree, hhouse]), if_neg hlost]

/-- A flit of a household that no allotment holds, or for a slot that is not its household's, is discarded, whatever it carries. -/
theorem mootFlit_discarded {w : State} (hg : hdr.vc - 4 < 12)
    (hw : (u.householdAllot hdr.household = none ∧ w = u.logDrop hdr.src 0) ∨
      ((u.householdAllot hdr.household).isSome = true ∧
        (u.mOwner (hdr.vc - 4) = 0 ∨ u.mState (hdr.vc - 4) = 0 ∨ u.householdAllot hdr.household ≠ some (u.mOwner (hdr.vc - 4))) ∧
        w = u.bumpReg (0x4000 + (hdr.vc - 4)) 0x0C 1)) : u.mootFlit hdr f = w := by
  unfold State.mootFlit
  dsimp only
  rw [if_neg (by omega)]
  rcases hw with ⟨hnone, rfl⟩ | ⟨hsome, hno, rfl⟩
  · rw [if_pos (by simp [hnone])]
  · rw [if_neg (by rw [Option.isNone_iff_eq_none]; exact Option.isSome_iff_ne_none.mp hsome), if_pos hno]

end

section
variable {s t : State} {l : Nat} {hdr : FlitHdr} (ctx : MootCtx) (ht : s.linkTake l hdr 6 = some t) (hdest : hdr.dest = s.house)
include ht hdest

/-- What a Moot flit for this device does: it is handled at its slot. -/
theorem moot_arrives (c : Nat) (body : FlitBody) (f : State → State) :
    s.arrive l hdr 6 c body f = .next (f (t.owe l hdr.vc)).drainFlits := arrive_here ht (by decide) hdest

theorem mootFlits_discarded {w : State} (hg : hdr.vc - 4 < 12)
    (hw : ((t.owe l hdr.vc).householdAllot hdr.household = none ∧ w = (t.owe l hdr.vc).logDrop hdr.src 0) ∨
      (((t.owe l hdr.vc).householdAllot hdr.household).isSome = true ∧
        ((t.owe l hdr.vc).mOwner (hdr.vc - 4) = 0 ∨ (t.owe l hdr.vc).mState (hdr.vc - 4) = 0 ∨
          (t.owe l hdr.vc).householdAllot hdr.household ≠ some ((t.owe l hdr.vc).mOwner (hdr.vc - 4))) ∧
        w = (t.owe l hdr.vc).bumpReg (0x4000 + (hdr.vc - 4)) 0x0C 1)) (body : MootOpen) (off : Nat) (bs : List Byte) (v : W32) :
    exec (.mootFlitOpen l hdr ctx body) s = .next w.drainFlits ∧ exec (.mootFlitData l hdr ctx off bs) s = .next w.drainFlits ∧
      exec (.failFlitArrival l hdr ctx) s = .next w.drainFlits ∧
      (ctx.pub = false → exec (.partialCloseArrival l hdr ctx v) s = .next w.drainFlits) ∧
      (ctx.pub = true → exec (.shardArrival l hdr ctx v) s = .next w.drainFlits) := by
  have hdrop (f : State → State) := mootFlit_discarded f hg hw
  refine ⟨?_, ?_, ?_, fun hpub => ?_, fun hpub => ?_⟩
  · change execMootFlitOpen l hdr ctx body s = _
    rw [execMootFlitOpen, moot_arrives ht hdest, hdrop]
  · change execMootFlitData l hdr ctx off bs s = _
    rw [execMootFlitData, moot_arrives ht hdest, hdrop]
  · change execFailFlitArrival l hdr ctx s = _
    rw [execFailFlitArrival, moot_arrives ht hdest, hdrop]
  · change execPartialCloseArrival l hdr ctx v s = _
    rw [execPartialCloseArrival, moot_arrives ht hdest, if_neg (by simp [hpub]), hdrop]
  · change execShardArrival l hdr ctx v s = _
    rw [execShardArrival, moot_arrives ht hdest, if_pos hpub, hdrop]

end

/-! ### Groups that are lost (spec/14 R426) -/

theorem loseMoots_nil {x : Ctx} (g : Nat) (h : x.moots = []) : (x.loseMoots g).moots = [] := by
  rw [Ctx.loseMoots, h]
  rfl

/-- A context without Moot operations has none to settle. -/
theorem settleMoots_nil {s : State} {a c : Nat} (h : (s.ctx a c).moots = []) : s.settleMoots a c = s := by
  rw [State.settleMoots, h]
  rfl

theorem moots_modCtx_loseMoots (s : State) (a c g b core : Nat) (h : (s.ctx b core).moots = []) :
    ((s.modCtx a c (fun x => x.loseMoots g)).ctx b core).moots = [] := by
  rw [State.ctx, State.modCtx, State.setCtx, State.ctx?]
  by_cases hkey : ctxKey b core = ctxKey a c
  · rw [hkey, Tbl.find_set_self]
    refine loseMoots_nil g ?_
    rwa [State.ctx, State.ctx?, ← hkey]
  · rw [Tbl.find_set_ne _ _ hkey]
    exact h

/-- Contexts without Moot operations lose none: no bucket is touched. -/
theorem buckets_foldl_loseMoots (a g : Nat) (cores l : List Nat) (hl : ∀ c ∈ l, c ∈ cores) (s : State) (h : ∀ c ∈ cores, (s.ctx a c).moots = []) :
    (l.foldl (fun (t : State) c => (t.modCtx a c (fun x => x.loseMoots g)).settleMoots a c) s).buckets = s.buckets := by
  induction l generalizing s with
  | nil => rfl
  | cons c l ih =>
    obtain ⟨hc, hl⟩ := List.forall_mem_cons.mp hl
    have hstep := settleMoots_nil (moots_modCtx_loseMoots s a c g a c (h c hc))
    rw [List.foldl_cons, hstep, ih hl _ fun d hd => moots_modCtx_loseMoots s a c g a d (h d hd)]
    rfl

theorem loseGroup_spec (s : State) (g : Nat) : (s.loseGroup g).mState g = 3 ∧ (s.loseGroup g).openBuckets g = [] ∧
    ((s.loseGroup g).group g).streams = [] ∧ ((s.loseGroup g).group g).early = [] ∧
    ((∀ c ∈ s.allotCores (s.mOwner g), (s.ctx (s.mOwner g) c).moots = []) →
      ∀ k, k / 256 ≠ g → (s.loseGroup g).buckets.find k = s.buckets.find k) := by
  unfold State.loseGroup
  dsimp only
  have hlost := buckets_foldl_loseMoots (s.mOwner g) g (s.allotCores (s.mOwner g)) (s.allotCores (s.mOwner g)) (fun _ => id) s
  generalize (s.allotCores (s.mOwner g)).foldl (fun (t : State) c => (t.modCtx (s.mOwner g) c (fun x => x.loseMoots g)).settleMoots (s.mOwner g) c) s = s1
    at hlost
  obtain ⟨hzeroed, -⟩ := zeroFrames_spec (s1.group g).frames s1
  generalize (s1.group g).frames.foldl (fun t f => t.zeroRange (f * 0x200000) ((f + 1) * 0x200000)) s1 = s2 at hzeroed
  have hbuckets : s2.buckets = s1.buckets := by rw [hzeroed]
  refine ⟨State.reg_setReg_self .., ?_, ?_, ?_, fun hnone k hk => ?_⟩
  · refine List.filter_eq_nil_iff.mpr fun e he => ?_
    have := (List.mem_filter.mp he).2
    simpa using this
  · exact congrArg MGroup.streams (Tbl.get_set_self ..)
  · exact congrArg MGroup.early (Tbl.get_set_self ..)
  · rw [← hlost hnone, ← hbuckets]
    exact (Tbl.find_drop s2.buckets (fun k => k / 256 == g) k).trans (if_neg (by simpa using hk))

/-- Settles O34: flits taken and discarded at their slot, and what a lost group leaves. -/
theorem mootArrivals : Obligations.MootArrivals := by
  refine ⟨fun s t l hdr ctx ht hdest => ⟨fun hg howner hhouse hfree hlost => ?_, fun w hg hw body off bs v => mootFlits_discarded ctx ht hdest hg hw body off bs v⟩,
    fun s g house r hstate hr hrank hmember haway => ⟨?_, loseGroup_spec s g⟩⟩
  · have htake (f : State → State) := mootFlit_taken f hg howner hhouse hfree hlost
    refine ⟨fun body hsame hnew => ?_, fun m off bs hm hoff => ?_, fun m v hm => ⟨fun hpub => ?_, fun hpub => ?_⟩, fun k hk => ?_⟩
    · change execMootFlitOpen l hdr ctx body s = _
      rw [execMootFlitOpen, moot_arrives ht hdest, htake]
      dsimp only
      cases hk : (t.owe l hdr.vc).bucketAt (hdr.vc - 4) ctx.bslot with
      | none =>
        dsimp only
        rw [if_neg (by simp [hnew hk])]
      | some k =>
        dsimp only
        rw [if_neg (by simp [hsame k hk])]
    · change execMootFlitData l hdr ctx off bs s = _
      rw [execMootFlitData, moot_arrives ht hdest, htake]
      dsimp only
      rw [hm]
      dsimp only
      rw [if_pos hoff]
    · change execPartialCloseArrival l hdr ctx v s = _
      rw [execPartialCloseArrival, moot_arrives ht hdest, if_neg (by simp [hpub]), htake, State.mootClose]
      dsimp only
      rw [hm]
      dsimp only
      rw [if_neg (by simp [hpub])]
    · change execShardArrival l hdr ctx v s = _
      rw [execShardArrival, moot_arrives ht hdest, if_pos hpub, htake, State.mootClose]
      dsimp only
      rw [hm]
      dsimp only
      rw [if_pos hpub]
    · change execFailFlitArrival l hdr ctx s = _
      rw [execFailFlitArrival, moot_arrives ht hdest, htake]
      dsimp only
      rw [hk]
  · refine if_pos ⟨hstate, List.any_eq_true.mpr ⟨r, List.mem_range.mpr hr, ?_⟩, by simp [haway]⟩
    simp [hrank, hmember]

end Sys2Proof.Machine
end

section
/-! The states of a link (spec/13 R377 to R396). -/

namespace Sys2Proof.Machine

/-! ### The states of a link (spec/13 R381, R382, R396) -/

theorem linkState_modLink (s : State) (l k : Nat) (f : Link → Link) : (s.modLink l f).linkState k = s.linkState k := rfl

theorem link_modLink_self (s : State) (l : Nat) (f : Link → Link) : (s.modLink l f).link l = f (s.link l) := State.link_setLink_self ..

theorem link_setReg (s : State) (idx sub v l : Nat) : (s.setReg idx sub v).link l = s.link l := rfl

theorem linkState_linkTo_self (s : State) (l st : Nat) : (s.linkTo l st).linkState l = st := State.reg_setReg_self ..

theorem linkState_linkTo_ne (s : State) {l k : Nat} (st : Nat) (h : k ≠ l) : (s.linkTo l st).linkState k = s.linkState k :=
  reg_setReg_ne_idx _ _ (by decide) (by decide) (by omega)

theorem wakeLink_dark {s : State} {l : Nat} (hfree : s.linksReleased = true) (hdark : s.linkState l = 0) (hen : s.linkEnabled l = true)
    (hsignal : (s.link l).signal = true) : s.wakeLink l = s.linkTo l 1 :=
  if_pos ⟨hdark, by rw [State.canTrain, hfree, hen, hsignal]; rfl⟩

theorem wakeLink_stays {s : State} {l : Nat} (h : s.linksReleased = false ∨ s.linkState l ≠ 0 ∨ s.linkEnabled l = false) : s.wakeLink l = s := by
  refine if_neg fun ⟨hdark, htrain⟩ => ?_
  simp only [State.canTrain, Bool.and_eq_true, decide_eq_true_eq] at htrain
  rcases h with h | h | h
  · exact Bool.false_ne_true (h.symm.trans htrain.1.1)
  · exact h hdark
  · exact Bool.false_ne_true (h.symm.trans htrain.1.2)

theorem creditOf_fullCredit {v : Nat} (hv : v < 16) : Tbl.get 0 fullCredit v = vcBuffer v := by
  interval_cases v <;> rfl

/-- FEC lock brings a training link to HELLO, with full credits and an empty replay buffer. -/
theorem linkFecLock_row {s : State} {l : Nat} (h : s.linkState l = 1) : ∃ t, exec (.linkFecLock l) s = .next t ∧ t.linkState l = 2 ∧
    (∀ v, v < 16 → (t.link l).creditOf v = vcBuffer v) ∧ (t.link l).replay = [] ∧ (t.link l).tx = 0 ∧ (t.link l).rx = 0 ∧
    (∀ k, k ≠ l → t.linkState k = s.linkState k ∧ t.link k = s.link k) ∧ t.mem = s.mem ∧ t.ctxs = s.ctxs := by
  obtain ⟨u, hu⟩ : ∃ u, u = s.setLink l { signal := true, since := s.timer, credit := fullCredit, heard := s.timer, helloAt := s.timer } := ⟨_, rfl⟩
  have hlink : (u.linkTo l 2).link l = { u.link l with since := u.timer }  :=
    State.link_setLink_self ..
  have hself : u.link l = { signal := true, since := s.timer, credit := fullCredit, heard := s.timer, helloAt := s.timer } := by
    rw [hu, State.link_setLink_self]
  refine ⟨u.linkTo l 2, ?_, linkState_linkTo_self .., fun v hv => ?_, ?_, ?_, ?_, fun k hk => ⟨?_, ?_⟩, ?_, ?_⟩
  · rw [hu]
    exact if_pos h
  · rw [hlink, hself]
    exact creditOf_fullCredit hv
  · rw [hlink, hself]
  · rw [hlink, hself]
  · rw [hlink, hself]
  · rw [linkState_linkTo_ne u 2 hk, hu]
    rfl
  · have hne : (u.linkTo l 2).link k = u.link k := State.link_setLink_ne u _ hk
    rw [hne, hu, State.link_setLink_ne s _ hk]
  · rw [mem_linkTo, hu]
    rfl
  · rw [hu]
    rfl

/-- Lost lock, silence, and a flit resent eight times take a link that carries something DOWN. -/
theorem linkDown_rows {s : State} {l : Nat} (hlo : 2 ≤ s.linkState l) (hhi : s.linkState l ≤ 4) :
    exec (.linkDown l .fecLost) s = .next (s.downLink l false) ∧
      ((s.link l).heard + 30000 ≤ s.timer → exec (.linkDown l .helloMissed) s = .next (s.downLink l)) ∧
      ((∃ x ∈ (s.link l).replay, 8 ≤ x.resends) → exec (.linkDown l .resendFailed) s = .next (s.downLink l)) := by
  have hdown (cause : DownCause) (hdue : (match cause with
      | .fecLost => true
      | .helloMissed => decide ((s.link l).heard + 30000 ≤ s.timer)
      | .resendFailed => (s.link l).replay.any (fun x => decide (8 ≤ x.resends))) = true) :
      exec (.linkDown l cause) s = .next (s.downLink l ((s.link l).signal && cause != .fecLost)) := by
    change execLinkDown l cause s = _
    cases cause <;> exact if_pos ⟨hlo, hhi, hdue⟩
  refine ⟨?_, fun hheard => ?_, fun ⟨x, hx, hresent⟩ => ?_⟩
  · rw [hdown .fecLost rfl, show (DownCause.fecLost != DownCause.fecLost) = false from rfl, Bool.and_false]
  · rw [hdown .helloMissed (decide_eq_true hheard), show (DownCause.helloMissed != DownCause.fecLost) = true from rfl, Bool.and_true]
  · rw [hdown .resendFailed (List.any_eq_true.mpr ⟨x, hx, decide_eq_true hresent⟩), show (DownCause.resendFailed != DownCause.fecLost) = true from rfl,
      Bool.and_true]

/-- A flit of the management channel is handled where it comes in. -/
theorem arrive_management {s t : State} {l kind ctx : Nat} {hdr : FlitHdr} {body : FlitBody} {here : State → State} (h : s.linkTake l hdr kind = some t)
    (hlo : kind ≠ 0) (hhi : kind < 3) : s.arrive l hdr kind ctx body here = .next (here (t.owe l hdr.vc)).drainFlits := by
  rw [State.arrive, h]
  dsimp only
  rw [if_neg (by omega), if_neg hlo]

/-- What a judgement does with a link whose neighbour's hello is h. -/
theorem judgeLink_of_nbr {v : State} {l : Nat} {h : Hello} (hnbr : (v.link l).nbr = some h) : ∃ s1 : State, s1.regs = v.regs ∧ s1.mem = v.mem ∧
    v.judgeLink l =
      if v.holdReason l h ≠ 0 ∧ (v.linkState l = 2 ∨ v.linkState l = 3) then (s1.linkTo l 4).setReg (0x2110 + l) 0x09 (v.holdReason l h)
      else if v.holdReason l h = 0 ∧ v.linkState l = 4 then (s1.linkTo l 2).setReg (0x2110 + l) 0x09 0
      else if v.linkState l = 4 ∧ v.reg (0x2110 + l) 0x09 ≠ v.holdReason l h then s1.setReg (0x2110 + l) 0x09 (v.holdReason l h)
      else s1 := by
  unfold State.judgeLink
  rw [hnbr]
  dsimp only
  by_cases hkept : v.linkState l < 2 ∨ 4 < v.linkState l ∨ (v.link l).noNumber = (v.holdReason l h == 3)
  · rw [if_pos hkept]
    exact ⟨v, rfl, rfl, rfl⟩
  · rw [if_neg hkept]
    exact ⟨v.modLink l (fun k => { k with noNumber := v.holdReason l h == 3 }), rfl, rfl, rfl⟩

theorem held_linkTo (s1 : State) (l st r : Nat) : let t := (s1.linkTo l st).setReg (0x2110 + l) 0x09 r
    t.linkState l = st ∧ t.reg (0x2110 + l) 0x09 = r ∧ t.mem = s1.mem :=
  ⟨(reg_setReg_ne_sub _ _ (by decide)).trans (linkState_linkTo_self ..), State.reg_setReg_self .., rfl⟩

/-- A link in HELLO that something holds is HELD, for that reason. -/
theorem judgeLink_holds {v : State} {l : Nat} {h : Hello} (hnbr : (v.link l).nbr = some h) (hr : v.holdReason l h ≠ 0) (hst : v.linkState l = 2) :
    (v.judgeLink l).linkState l = 4 ∧ (v.judgeLink l).reg (0x2110 + l) 0x09 = v.holdReason l h ∧ (v.judgeLink l).mem = v.mem := by
  obtain ⟨s1, -, hmem, hjudge⟩ := judgeLink_of_nbr hnbr
  rw [if_pos ⟨hr, .inl hst⟩] at hjudge
  obtain ⟨hstate, hreason, hmem'⟩ := held_linkTo s1 l 4 (v.holdReason l h)
  rw [hjudge]
  exact ⟨hstate, hreason, hmem'.trans hmem⟩

/-- A HELD link shows the reason that holds it, or returns to HELLO. -/
theorem judgeLink_held {v : State} {l : Nat} {h : Hello} (hnbr : (v.link l).nbr = some h) (hst : v.linkState l = 4) :
    (v.holdReason l h ≠ 0 → (v.judgeLink l).linkState l = 4 ∧ (v.judgeLink l).reg (0x2110 + l) 0x09 = v.holdReason l h) ∧
      (v.holdReason l h = 0 → (v.judgeLink l).linkState l = 2 ∧ (v.judgeLink l).reg (0x2110 + l) 0x09 = 0) := by
  obtain ⟨s1, hregs, -, hjudge⟩ := judgeLink_of_nbr hnbr
  have hreg (sub : Nat) : s1.reg (0x2110 + l) sub = v.reg (0x2110 + l) sub := by rw [State.reg, hregs, State.reg]
  refine ⟨fun hr => ?_, fun hr => ?_⟩
  · rw [if_neg (by omega), if_neg (fun h => hr h.1)] at hjudge
    by_cases hshown : v.reg (0x2110 + l) 0x09 = v.holdReason l h
    · rw [if_neg (fun h => h.2 hshown)] at hjudge
      rw [hjudge, State.linkState, hreg, hreg]
      exact ⟨hst, hshown⟩
    · rw [if_pos ⟨hst, hshown⟩] at hjudge
      rw [hjudge]
      exact ⟨(reg_setReg_ne_sub _ _ (by decide)).trans ((hreg 2).trans hst), State.reg_setReg_self ..⟩
  · rw [if_neg (fun h => h.1 hr), if_pos ⟨hr, hst⟩] at hjudge
    rw [hjudge]
    exact ⟨(held_linkTo s1 l 2 0).1, (held_linkTo s1 l 2 0).2.1⟩

/-- A hello as its link takes it. -/
def State.heardHello (u : State) (l : Nat) (h : Hello) : State :=
  (((u.modLink l (fun k => { k with nbr := some h, heard := u.timer })).setReg (0x2110 + l) 0x03 h.house).setReg (0x2110 + l) 0x04
    h.link).setReg (0x2110 + l) 0x05 h.digest

theorem helloReceive_rows {s t : State} {l : Nat} {hdr : FlitHdr} (h : Hello) (ht : s.linkTake l hdr 1 = some t) :
    let v := (t.owe l hdr.vc).heardHello l h
    (v.holdReason l h = 0 → v.linkState l = 2 → exec (.helloReceive l hdr h) s = .next ((v.linkTo l 3).refabric true).drainFlits) ∧
      (v.holdReason l h ≠ 0 → v.linkState l = 2 →
        exec (.helloReceive l hdr h) s = .next (v.judgeLink l).drainFlits ∧ (v.judgeLink l).linkState l = 4 ∧
          (v.judgeLink l).reg (0x2110 + l) 0x09 = v.holdReason l h ∧ (v.judgeLink l).mem = v.mem) ∧
      (v.linkState l = 4 → exec (.helloReceive l hdr h) s = .next (v.judgeLink l).drainFlits ∧
        (v.holdReason l h ≠ 0 → (v.judgeLink l).linkState l = 4 ∧ (v.judgeLink l).reg (0x2110 + l) 0x09 = v.holdReason l h) ∧
        (v.holdReason l h = 0 → (v.judgeLink l).linkState l = 2 ∧ (v.judgeLink l).reg (0x2110 + l) 0x09 = 0)) := by
  intro v
  have hnbr : (v.link l).nbr = some h := by
    rw [show v = (t.owe l hdr.vc).heardHello l h from rfl, State.heardHello, link_setReg, link_setReg, link_setReg, link_modLink_self]
  have hexec : exec (.helloReceive l hdr h) s = .next (if v.holdReason l h = 0 ∧ v.linkState l = 2 then (v.linkTo l 3).refabric true
      else if v.linkState l = 3 ∧ v.holdReason l h ≠ 0 then (v.judgeLink l).refabric true else v.judgeLink l).drainFlits := by
    change execHelloReceive l hdr h s = _
    rw [execHelloReceive, arrive_management ht (by decide) (by decide)]
    rfl
  refine ⟨fun hr hst => ?_, fun hr hst => ⟨?_, judgeLink_holds hnbr hr hst⟩, fun hst => ⟨?_, judgeLink_held hnbr hst⟩⟩
  · rw [hexec, if_pos ⟨hr, hst⟩]
  · rw [hexec, if_neg (fun h => hr h.1), if_neg (by omega)]
  · rw [hexec, if_neg (by omega), if_neg (by omega)]

/-! ### Topology entries, resent and escaping flits (spec/13 R377, R383, R386, R388) -/

theorem topologyReceive_rows {s t0 : State} {l : Nat} {hdr : FlitHdr} (e : TopoEntry) (ht : s.linkTake l hdr 2 = some t0) :
    let u0 := t0.owe l hdr.vc
    let u := if (u0.link l).noNumber then u0.modLink l (fun k => { k with noNumber := false }) else u0
    let joins := decide (u.topoEntryOf e.digest = none) && decide (u.houseMode = 0) && decide (e.digest ≠ u.nbrDigest l) &&
      u.houseTaken e.digest e.house
    let w := (u.putEntry l e).takeNumber e
    (e.digest = u.digest → (u.takeNumber e).house = u.house → exec (.topologyReceive l hdr e) s = .next u.drainFlits) ∧
    (e.digest = u.digest → (u.takeNumber e).house ≠ u.house →
      exec (.topologyReceive l hdr e) s = .next ((u.takeNumber e).refabric true).drainFlits) ∧
    (∀ old, e.digest ≠ u.digest → u.topoEntryOf e.digest = some old → e.epoch ≤ old.epoch →
      exec (.topologyReceive l hdr e) s = .next u.drainFlits) ∧
    (e.digest ≠ u.digest → (∀ old, u.topoEntryOf e.digest = some old → old.epoch < e.epoch) →
      (joins = false → exec (.topologyReceive l hdr e) s =
        .next ((w.flood e (w.upLinks.filter (· != l))).refabric (w.house != u.house)).drainFlits) ∧
      (joins = true → exec (.topologyReceive l hdr e) s =
        .next (((u.modLink l (fun k => { k with clash := some { digest := e.digest, house := e.house } })).judgeLink l).refabric true).drainFlits)) := by
  intro u0 u joins w
  have hexec : exec (.topologyReceive l hdr e) s = execTopologyReceive l hdr e s := rfl
  rw [execTopologyReceive, arrive_management ht (by decide) (by decide)] at hexec
  have hjoins : ((u.topoEntryOf e.digest).isNone = true ∧ u.houseMode = 0 ∧ e.digest ≠ u.nbrDigest l ∧ u.houseTaken e.digest e.house = true) ↔ joins = true := by
    simp only [joins, Bool.and_eq_true, decide_eq_true_eq, Option.isNone_iff_eq_none, and_assoc]
  refine ⟨fun hown hsame => ?_, fun hown hchanged => ?_, fun old hother hold hle => ?_, fun hother hnewer => ⟨fun hno => ?_, fun hyes => ?_⟩⟩
  all_goals refine hexec.trans (congrArg (fun t : State => Host.Outcome.next t.drainFlits) ?_)
  · exact (if_pos hown).trans (if_pos hsame)
  · exact (if_pos hown).trans (if_neg hchanged)
  · refine (if_neg hother).trans (if_pos ?_)
    change (!(match u.topoEntryOf e.digest with
      | none => true
      | some o => decide (o.epoch < e.epoch))) = true
    rw [hold]
    simpa using hle
  all_goals
    have hnew : ¬ (!(match u.topoEntryOf e.digest with
        | none => true
        | some o => decide (o.epoch < e.epoch))) = true := by
      cases hold : u.topoEntryOf e.digest with
      | none => simp
      | some old => simpa using hnewer old hold
  · exact (if_neg hother).trans ((if_neg hnew).trans (if_neg fun h => Bool.false_ne_true (hno.symm.trans (hjoins.mp h))))
  · exact (if_neg hother).trans ((if_neg hnew).trans (if_pos (hjoins.mpr hyes)))

/-- Flits put on a wire go out in their order, with the link's own number as ACK. -/
theorem foldl_wire (l : Nat) (xs : List Sent) (s : State) : xs.foldl (fun t x => t.wire l x) s =
    { s with out := (xs.map (fun x => Out.flit l x.seq (s.link l).rx x.cvc x.ccnt (x.flit.lcrc x.seq (s.link l).rx x.cvc x.ccnt) x.flit)).reverse ++ s.out } := by
  induction xs generalizing s with
  | nil => rfl
  | cons x xs ih =>
    rw [List.foldl_cons, ih, List.map_cons, List.reverse_cons, List.append_assoc]
    rfl

/-- Every flit from ACK onward goes out again, in order, and counts it. -/
theorem resend_spec (s : State) (l : Nat) : let t := s.resend l
    (t.link l).replay = (s.link l).replay.map (fun x => { x with resends := x.resends + 1 }) ∧ (t.link l).ackAt = s.timer ∧ t.mem = s.mem ∧
      t.out = ((s.link l).replay.map (fun x =>
        Out.flit l x.seq (s.link l).rx x.cvc x.ccnt (x.flit.lcrc x.seq (s.link l).rx x.cvc x.ccnt) x.flit)).reverse ++ s.out := by
  intro t
  obtain ⟨u, hu⟩ : ∃ u, u = (s.setLink l { s.link l with
      replay := (s.link l).replay.map (fun (x : Sent) => { x with resends := x.resends + 1 }), ackAt := s.timer }).bumpReg
        (0x2110 + l) 0x08 (s.link l).replay.length := ⟨_, rfl⟩
  have hlink : u.link l = { s.link l with
      replay := (s.link l).replay.map (fun (x : Sent) => { x with resends := x.resends + 1 }), ackAt := s.timer } := by
    rw [hu]
    exact State.link_setLink_self ..
  have ht : t = (s.link l).replay.foldl (fun t x => t.wire l x) u := by
    rw [hu]
    rfl
  rw [foldl_wire] at ht
  have htlink : t.link l = u.link l := by
    rw [ht]
    rfl
  refine ⟨?_, ?_, mem_resend s l, ?_⟩
  · rw [htlink, hlink]
  · rw [htlink, hlink]
  · rw [ht, hlink, hu]
    rfl

theorem replayTimeout_rows {s : State} {l : Nat} (hheld : (s.link l).replay ≠ []) (hcarries : s.carries l 0 = true) :
    (s.timer < (s.link l).ackAt + 82 → exec (.replayTimeout l) s = .next s) ∧
      ((s.link l).ackAt + 82 ≤ s.timer → exec (.replayTimeout l) s = .next (s.resend l)) := by
  have hexec : exec (.replayTimeout l) s = if (s.link l).replay.isEmpty = true ∨ (!s.carries l 0) = true ∨ s.timer < (s.link l).ackAt + 82 then .next s
      else .next (s.resend l) := rfl
  refine ⟨fun hearly => hexec.trans (if_pos (.inr (.inr hearly))), fun hdue => hexec.trans (if_neg ?_)⟩
  simp [hheld, hcarries, hdue]

/-- A write of a link's Enable, once it is taken. -/
theorem linkEnableWrite_rows {s : State} {sess l : Nat} (v : Byte) (hup : s.answers = true) (hidle : s.sessionIdle sess = true) (hl : l < 64) :
    let r := s.writeObject sess (0x2110 + l) 0x01 v.toNat
    (r.2.1 = .ok → r.2.2 ≠ 0 → exec (.linkEnableWrite sess l v) s = .next ((r.1.wakeLink l).emit (.wrote sess (0x2110 + l) 0x01 .ok))) ∧
      (r.2.1 = .ok → r.2.2 = 0 → 1 ≤ s.linkState l → s.linkState l ≤ 4 →
        exec (.linkEnableWrite sess l v) s = .next ((r.1.downLink l).emit (.wrote sess (0x2110 + l) 0x01 .ok))) := by
  generalize hr : s.writeObject sess (0x2110 + l) 0x01 v.toNat = r
  dsimp only
  have hexec (hok : r.2.1 = .ok) : exec (.linkEnableWrite sess l v) s =
      State.wrote ((s.writeEnable sess l v.toNat).1, (s.writeEnable sess l v.toNat).2.1) sess (0x2110 + l) 0x01 := by
    cases hx : s.session sess with
    | none =>
      have hdenied : s.writeObject sess (0x2110 + l) 0x01 v.toNat = (s, .accessDenied, 0) := by
        unfold State.writeObject
        rw [hx]
      rw [← hr, hdenied] at hok
      cases hok
    | some x =>
      change execLinkEnableWrite sess l v s = _
      rw [execLinkEnableWrite]
      exact rowOf_of_session hup hidle hx _
  have henable (hok : r.2.1 = .ok) : s.writeEnable sess l v.toNat = if r.2.2 ≠ 0 then (r.1.wakeLink l, r.2.1, r.2.2)
      else if 1 ≤ s.linkState l ∧ s.linkState l ≤ 4 then (r.1.downLink l, r.2.1, r.2.2) else r := by
    unfold State.writeEnable
    rw [hr]
    dsimp only
    rw [if_neg (Nat.not_le.mpr hl), if_neg (by rw [hok]; decide)]
  refine ⟨fun hok hne => ?_, fun hok hzero hlo hhi => ?_⟩
  · rw [hexec hok, henable hok, if_pos hne, hok, wrote_mk]
  · rw [hexec hok, henable hok, if_neg (not_not_intro hzero), if_pos ⟨hlo, hhi⟩, hok, wrote_mk]

theorem linkRetrain_row {s : State} {sess l : Nat} (hup : s.answers = true) (hidle : s.sessionIdle sess = true)
    (hmay : s.mayApply sess (0x2110 + l) 0x0A = true) (hl : l < 64) :
    exec (.linkRetrain sess l) s = .next ((if s.linkState l ≤ 4 then s.downLink l else s).emit (.wrote sess (0x2110 + l) 0x0A .ok)) := by
  change execLinkRetrain sess l s = _
  rw [execLinkRetrain, rowOf_of_mayApply hup hidle hmay, State.retrain, if_neg (by simp [hmay, hl])]
  split <;> rw [wrote_mk]

/-- Settles O36: the rows of a link's states, of topology entries, and of resent and escaping flits. -/
theorem linkStates : Obligations.LinkStates := by
  refine ⟨fun s l => ⟨fun hl => ⟨if_pos hl, fun hfree hdark hen => ?_, fun h => ?_⟩, linkFecLock_row, fun hst hdue => if_pos ⟨hst, hdue⟩,
      fun hst hdue => if_pos ⟨hst, hdue⟩, linkDown_rows, fun hcarries hdue => if_pos ⟨hcarries, hdue⟩, fun hdr h t ht => helloReceive_rows h ht,
      linkState_linkTo_self .., mem_linkTo ..⟩,
    fun s l => ⟨fun hdr e t ht => topologyReceive_rows e ht, fun hheld hcarries => ?_, fun index w hw hvc hdue hlink => ?_,
      fun sess hup hidle hmay hl => linkRetrain_row hup hidle hmay hl, fun sess v hup hidle hl => linkEnableWrite_rows v hup hidle hl⟩⟩
  · exact wakeLink_dark hfree hdark hen (congrArg Link.signal (link_modLink_self s l _))
  · exact wakeLink_stays h
  · obtain ⟨hearly, hlate⟩ := replayTimeout_rows hheld hcarries
    exact ⟨hearly, fun hdue => ⟨_, hlate hdue, resend_spec s l⟩⟩
  · change execEscapeTimeout index s = _
    rw [execEscapeTimeout, hw]
    exact if_pos ⟨hvc, hdue, by rw [hlink]; rfl⟩

end Sys2Proof.Machine
end

section
/-! The Larder's actions (spec/11 R327 to R335). -/

namespace Sys2Proof.Machine

/-! ### Applies of the Larder's command object (spec/11 R327, R328) -/

/-- Whether an action of the Larder is allowed to a session, for an owner's entry. -/
def State.larderAllowed (s : State) (sess owner adapt action : Nat) : Bool :=
  s.larderMay sess owner action && larderFits action (((s.entryOf owner adapt).map (fun e => e.2.state)).getD 0) && owner != 0 && !s.isGreen owner

/-- The commands of the Larder's actions, by the action's number. -/
theorem larderAct_row {s : State} {sess : Nat} {x : Session} (hup : s.answers = true) (hx : s.session sess = some x) (hidle : s.sessionIdle sess = true)
    {i : Instr} {k : Nat} (hc : (i, k) ∈ [(Instr.larderPrefetch sess, 1), (.larderPin sess, 2), (.larderUnpin sess, 3), (.larderEvict sess, 4),
      (.larderAccept sess, 5), (.larderWithdraw sess, 6), (.larderInstall sess, 7), (.larderQuery sess, 8)]) (hk : x.ownVal 0x3301 3 = k) :
    exec i s = State.askedAlone (s.larderApply sess) sess 0x3301 0x05 := by
  have hrow : s.larderRow sess k = State.askedAlone (s.larderApply sess) sess 0x3301 0x05 := by
    rw [State.larderRow, rowOf_of_session hup hidle hx, hx]
    exact if_pos (by simp [hk])
  rw [← hrow]
  simp only [List.mem_cons, List.not_mem_nil, or_false, Prod.mk.injEq] at hc
  rcases hc with ⟨rfl, rfl⟩ | ⟨rfl, rfl⟩ | ⟨rfl, rfl⟩ | ⟨rfl, rfl⟩ | ⟨rfl, rfl⟩ | ⟨rfl, rfl⟩ | ⟨rfl, rfl⟩ | ⟨rfl, rfl⟩ <;> rfl

section
variable {s : State} {sess : Nat} {x : Session} (hx : s.session sess = some x) (hmay : s.mayApply sess 0x3301 0x05 = true)
include hx hmay

theorem larderApply_refused (hno : s.larderAllowed sess (x.ownVal 0x3301 1) (x.ownVal 0x3301 2) (x.ownVal 0x3301 3) = false) :
    s.larderApply sess = ((s.noteRefusal 0x3301 0x05 .accessDenied (s.applyRole sess 0x3301 0x05)).reportLarder sess (x.ownVal 0x3301 1)
      (x.ownVal 0x3301 2) .accessDenied, some .accessDenied) := by
  rw [State.larderApply, hx]
  dsimp only
  rw [if_neg (by simp [hmay])]
  refine if_pos ?_
  simp only [State.larderAllowed, Bool.and_eq_false_iff, bne_eq_false_iff_eq, Bool.not_eq_false'] at hno
  simp only [Bool.or_eq_true, Bool.not_eq_true', decide_eq_true_eq]
  tauto

theorem larderApply_allowed (hyes : s.larderAllowed sess (x.ownVal 0x3301 1) (x.ownVal 0x3301 2) (x.ownVal 0x3301 3) = true) :
    let r := s.larderDo sess (x.ownVal 0x3301 1) (x.ownVal 0x3301 2) (x.ownVal 0x3301 3) (x.ownVal 0x3301 4)
    s.larderApply sess = (match r.2 with
      | none => (r.1, none)
      | some st => (r.1.reportLarder sess (x.ownVal 0x3301 1) (x.ownVal 0x3301 2) st, some st)) := by
  intro r
  rw [State.larderApply, hx]
  dsimp only
  rw [if_neg (by simp [hmay])]
  refine if_neg ?_
  simp only [State.larderAllowed, Bool.and_eq_true, bne_iff_ne, Bool.not_eq_true'] at hyes
  simp only [Bool.or_eq_true, Bool.not_eq_true', decide_eq_true_eq]
  obtain ⟨⟨⟨hmay, hfits⟩, howner⟩, hgreen⟩ := hyes
  simp [hmay, hfits, howner, hgreen]

end

/-- An action that completes at once, or waits. -/
theorem larderAct_allowed {s : State} {sess : Nat} {x : Session} (hup : s.answers = true) (hx : s.session sess = some x) (hidle : s.sessionIdle sess = true)
    (hmay : s.mayApply sess 0x3301 0x05 = true)
    (hyes : s.larderAllowed sess (x.ownVal 0x3301 1) (x.ownVal 0x3301 2) (x.ownVal 0x3301 3) = true)
    {i : Instr} {k : Nat} (hc : (i, k) ∈ [(Instr.larderPrefetch sess, 1), (.larderPin sess, 2), (.larderUnpin sess, 3), (.larderEvict sess, 4),
      (.larderAccept sess, 5), (.larderWithdraw sess, 6), (.larderInstall sess, 7), (.larderQuery sess, 8)]) (hk : x.ownVal 0x3301 3 = k) (t : State) :
    (∀ st, s.larderDo sess (x.ownVal 0x3301 1) (x.ownVal 0x3301 2) k (x.ownVal 0x3301 4) = (t, some st) → exec i s =
      .next ((t.reportLarder sess (x.ownVal 0x3301 1) (x.ownVal 0x3301 2) st).emit (.wrote sess 0x3301 0x05 st)).settle) ∧
    (s.larderDo sess (x.ownVal 0x3301 1) (x.ownVal 0x3301 2) k (x.ownVal 0x3301 4) = (t, none) → exec i s =
      .next (t.modSession sess (fun y => { y with alone := true })).settle) := by
  have happly := larderApply_allowed hx hmay hyes
  rw [hk] at happly
  refine ⟨fun st hdo => ?_, fun hdo => ?_⟩
  · rw [larderAct_row hup hx hidle hc hk, happly, hdo]
    rfl
  · rw [larderAct_row hup hx hidle hc hk, happly, hdo]
    rfl

/-- What each action does to the entry that it finds. -/
theorem larderDo_of_entry {s : State} {sess owner adapt : Nat} (src : Nat) {h : Nat} {e : LEntry} (he : s.entryOf owner adapt = some (h, e)) :
    s.larderDo sess owner adapt 1 src = (if e.state = 1 then (s.modEntry h (fun x => { x with waiters := x.waiters ++ [sess] }), none) else (s, some .ok)) ∧
    s.larderDo sess owner adapt 2 src = (if e.state = 1 then
      ((s.modEntry h (fun x => { x with tenantPin := true })).modEntry h (fun x => { x with waiters := x.waiters ++ [sess] }), none)
      else (s.modEntry h (fun x => { x with tenantPin := true }), some .ok)) ∧
    s.larderDo sess owner adapt 3 src = (if e.tenantPin then
      (((s.modEntry h (fun x => { x with tenantPin := false, lastUse := s.timer })).tryFree h).wakeFills, some .ok) else (s, some .ok)) ∧
    s.larderDo sess owner adapt 4 src = ((s.evict h).wakeFills, some .ok) ∧
    s.larderDo sess owner adapt 5 src = (if e.checked then (if s.reg 0x3305 owner = 2 then s else (s.makeReady h 0x05).countEntries owner, some .ok)
      else (s.modEntry h (fun x => { x with accepters := x.accepters ++ [sess] }), none)) ∧
    s.larderDo sess owner adapt 6 src = ((s.withdraw h).wakeFills, some .ok) ∧ s.larderDo sess owner adapt 8 src = (s, some .ok) := by
  refine ⟨?_, ?_, ?_, ?_, ?_, ?_, ?_⟩ <;> rw [State.larderDo, he] <;> rfl

theorem larderDo_of_none {s : State} {sess owner adapt action : Nat} (src : Nat) (he : s.entryOf owner adapt = none) :
    s.larderDo sess owner adapt action src =
      if action = 8 then (s, some .ok)
      else if s.entryQuota owner = 0 then (s.noteRefusal 0x3301 0x05 .accessDenied (s.applyRole sess 0x3301 0x05), some .accessDenied)
      else (s.askFill sess owner adapt (if action = 7 then .install src else .fetch) (action == 2), none) := by
  rw [State.larderDo, he]

/-! ### Fills that are asked for -/

/-- A fill that finds room has its entry and its job. -/
theorem askFill_taken (s : State) (sess owner adapt : Nat) (src : FillSrc) (pin : Bool) {h : Nat}
    (htaken : (s.takeEntry owner adapt src pin [sess]).2 = some h) : let t := s.askFill sess owner adapt src pin
    t.larder.find h = some { owner := owner, adapt := adapt, tenantPin := pin, filling := some src, waiters := [sess] } ∧
      ∃ n, t.jobs.find n = some (t.fillJob h owner adapt src) := by
  intro t
  have ht : t = (s.takeEntry owner adapt src pin [sess]).1 := by
    change s.askFill sess owner adapt src pin = _
    rw [State.askFill]
    dsimp only
    rw [htaken]
  rw [ht]
  unfold State.takeEntry at htaken ⊢
  dsimp only at htaken ⊢
  generalize s.evictUntil owner (fun t => t.entryFits owner) (s.entriesOf owner).length = s1 at htaken ⊢
  split at htaken
  · next hroom =>
    cases htaken
    rw [if_pos hroom]
    exact ⟨Tbl.find_set_self .., _, Tbl.find_set_self ..⟩
  · cases htaken

theorem askFill_waits (s : State) (sess owner adapt : Nat) (src : FillSrc) (pin : Bool)
    (hnone : (s.takeEntry owner adapt src pin [sess]).2 = none) : ∃ t : State, (s.askFill sess owner adapt src pin).fillWait =
      t.fillWait ++ [{ owner := owner, adapt := adapt, src := src, sess := sess, pin := pin }] := by
  refine ⟨(s.takeEntry owner adapt src pin [sess]).1, ?_⟩
  rw [State.askFill]
  dsimp only
  rw [hnone]

/-! ### Evictions and withdrawals (spec/11 R334, R335) -/

/-- An entry with a pin is condemned, and no other changes. -/
theorem evict_pinned {s : State} {h : Nat} {e : LEntry} (he : s.larder.find h = some e) (hpin : e.pinned = true) :
    (s.evict h).larder.find h = some { e with state := 4 } ∧ ∀ k, k ≠ h → (s.evict h).larder.find k = s.larder.find k := by
  have hlarder : (s.evict h).larder = s.larder.set h { e with state := 4 } := by
    rw [← larder_modEntry he (fun x => { x with state := 4 }), State.evict, he]
    dsimp only
    rw [if_pos hpin]
    rfl
  rw [hlarder]
  exact ⟨Tbl.find_set_self .., fun k hk => Tbl.find_set_ne _ _ hk⟩

/-- A freed entry's frames read 0. -/
theorem read_freeEntry {s : State} {h : Nat} {e : LEntry} (he : s.larder.find h = some e) :
    ∀ f ∈ e.frames, ∀ p, f * 0x200000 ≤ p → p < (f + 1) * 0x200000 → Mem.read (s.freeEntry h).mem p = 0 := by
  unfold State.freeEntry
  split
  · next hnone => cases hnone.symm.trans he
  · next x hx =>
    obtain rfl := Option.some.inj (hx.symm.trans he)
    extract_lets fault s1 s2 s3
    exact (zeroFrames_spec x.frames s2).2.2

/-- An entry without a pin is gone, and its frames read 0. -/
theorem evict_unpinned {s : State} {h : Nat} {e : LEntry} (he : s.larder.find h = some e) (hpin : e.pinned = false) :
    (s.evict h).larder.find h = none ∧ ∀ f ∈ e.frames, ∀ p, f * 0x200000 ≤ p → p < (f + 1) * 0x200000 → Mem.read (s.evict h).mem p = 0 := by
  have hevict : s.evict h = s.dropEntry h e := by
    rw [State.evict, he]
    exact if_neg (by simp [hpin])
  rw [hevict, State.dropEntry]
  split
  · rw [larder_freeEntry he]
    exact ⟨Tbl.find_erase_self .., read_freeEntry he⟩
  · dsimp only
    rw [larder_wakeActions, mem_wakeActions, larder_freeEntry (s := s.drawStatus.2) he]
    exact ⟨Tbl.find_erase_self .., read_freeEntry (s := s.drawStatus.2) he⟩

/-- No step from s to t gives the tenant's pin to an entry that has none. -/
def NoTenantPin (h : Nat) (s t : State) : Prop :=
  (∀ e, s.larder.find h = some e → e.tenantPin = false) → ∀ e, t.larder.find h = some e → e.tenantPin = false

theorem NoTenantPin.of_eq {h : Nat} {s t : State} (heq : t.larder = s.larder) : NoTenantPin h s t := fun hs e he => hs e (heq ▸ he)

theorem NoTenantPin.trans {h : Nat} {s t u : State} (hst : NoTenantPin h s t) (htu : NoTenantPin h t u) : NoTenantPin h s u := htu ∘ hst

theorem NoTenantPin.ite {h : Nat} {s t u : State} (c : Prop) [Decidable c] (ht : NoTenantPin h s t) (hu : NoTenantPin h s u) :
    NoTenantPin h s (if c then t else u) := by
  split
  · exact ht
  · exact hu

theorem modEntry_noTenantPin (s : State) (h : Nat) {f : LEntry → LEntry} (hf : ∀ e, e.tenantPin = false → (f e).tenantPin = false) :
    NoTenantPin h s (s.modEntry h f) := by
  intro hs e he
  cases hfind : s.larder.find h with
  | none =>
    rw [State.modEntry, hfind] at he
    exact hs e he
  | some x =>
    rw [larder_modEntry hfind, Tbl.find_set_self] at he
    cases he
    exact hf x (hs x hfind)

theorem freeEntry_noTenantPin (s : State) (h : Nat) : NoTenantPin h s (s.freeEntry h) := by
  cases he : s.larder.find h with
  | none => exact .of_eq (by rw [State.freeEntry, he])
  | some e =>
    intro _ x hx
    rw [larder_freeEntry he, Tbl.find_erase_self] at hx
    cases hx

theorem tryFree_noTenantPin (s : State) (h : Nat) : NoTenantPin h s (s.tryFree h) := by
  have hdraw : NoTenantPin h s s.drawStatus.2 := .of_eq rfl
  unfold State.tryFree
  split
  · exact .of_eq rfl
  · exact .ite _ (.ite _ (freeEntry_noTenantPin s h) ((hdraw.trans (freeEntry_noTenantPin _ _)).trans (.of_eq (larder_wakeActions ..)))) (.of_eq rfl)

/-- A withdrawal takes the tenant's pin. -/
theorem tenantPin_withdraw {s : State} {h : Nat} {e : LEntry} (he : s.larder.find h = some e) (hstate : e.state ≠ 5) {e' : LEntry}
    (he' : (s.withdraw h).larder.find h = some e') : e'.tenantPin = false := by
  suffices hkeep : NoTenantPin h (s.modEntry h (LEntry.withdrawn s.timer)) (s.withdraw h) by
    refine hkeep (fun x hx => ?_) e' he'
    rw [larder_modEntry he, Tbl.find_set_self] at hx
    cases hx
    rfl
  unfold State.withdraw
  split
  · next hnone => cases hnone.symm.trans he
  · next x hx =>
    obtain rfl := Option.some.inj (hx.symm.trans he)
    rw [if_neg hstate]
    extract_lets s1 slots s2 s3 s4
    have hwaiting (t : State) : NoTenantPin h t (t.failWaiting h x .adaptationWithdrawn true) := by
      unfold State.failWaiting
      extract_lets held hit more
      refine NoTenantPin.trans (t := t.modAllot x.owner _) (.of_eq rfl) (modEntry_noTenantPin _ h ?_)
      exact fun _ => id
    have hdrop (t : State) : NoTenantPin h t (t.dropWork h fun _ => true) := .of_eq rfl
    have hcount (t : State) : NoTenantPin h t (t.countEntries x.owner) := .of_eq rfl
    have h1 : NoTenantPin h (s.modEntry h (LEntry.withdrawn s.timer)) s1 := (hdrop _).trans (hwaiting _)
    have h2 : NoTenantPin h s1 s2 :=
      .of_eq (larder_foldl (fun t (g : Nat × GreenSlot) => larder_of_holdings (holdings_writeVa ..)) slots s1)
    have h3 : NoTenantPin h s2 s3 := .of_eq (larder_wakeActions ..)
    have h4 : NoTenantPin h s3 s4 := .ite _ (.of_eq rfl) (.ite _ (modEntry_noTenantPin _ h fun _ => id) (.of_eq rfl))
    exact (((h1.trans h2).trans h3).trans h4).trans ((hcount s4).trans (tryFree_noTenantPin _ _))

/-- Settles O47: each action by its row, fills that are asked for, evictions and withdrawals. -/
theorem larderActions : Obligations.LarderActions := by
  refine ⟨fun s sess x hup hx hwait halone hmay => ?_, fun s sess owner adapt src pin => ⟨fun h => askFill_taken s sess owner adapt src pin,
    askFill_waits s sess owner adapt src pin⟩, fun s h e he => ⟨evict_pinned he, evict_unpinned he,
    fun e' he' => ⟨state_of_find_withdraw he', fun hstate => tenantPin_withdraw he hstate he'⟩⟩⟩
  have hidle : s.sessionIdle sess = true := by
    unfold State.sessionIdle
    rw [hx]
    simp [hwait, halone]
  intro owner adapt action state allowed done waits
  refine ⟨fun hno c hc hk => ?_, fun hyes hk => ?_, fun h e hyes he => ?_, fun hyes he => ⟨fun hquota c hc hk => ?_, fun hquota => ?_⟩⟩
  · rw [larderAct_row hup hx hidle hc hk, larderApply_refused hx hmay hno]
    rfl
  · refine (larderAct_allowed hup hx hidle hmay hyes (by simp) hk s).1 .ok ?_
    cases he : s.entryOf (x.ownVal 0x3301 1) (x.ownVal 0x3301 2) with
    | none => exact (larderDo_of_none _ he).trans (if_pos rfl)
    | some p => exact (larderDo_of_entry _ he).2.2.2.2.2.2
  · obtain ⟨hfetch, hpin, hunpin, hevict, haccept, hwithdraw, -⟩ := larderDo_of_entry (sess := sess) (x.ownVal 0x3301 4) he
    have hact {i : Instr} {k : Nat} (hc : (i, k) ∈ [(Instr.larderPrefetch sess, 1), (.larderPin sess, 2), (.larderUnpin sess, 3),
        (.larderEvict sess, 4), (.larderAccept sess, 5), (.larderWithdraw sess, 6), (.larderInstall sess, 7), (.larderQuery sess, 8)]) (hk : action = k)
        (t : State) := larderAct_allowed hup hx hidle hmay hyes hc hk t
    refine ⟨fun hk hstate => (hact (by simp) hk _).1 _ (hfetch.trans (if_neg hstate)), fun hk hstate => (hact (by simp) hk _).2 (hfetch.trans (if_pos hstate)),
      fun hk hstate => (hact (by simp) hk _).1 _ (hpin.trans (if_neg hstate)), fun hk hstate => (hact (by simp) hk _).2 (hpin.trans (if_pos hstate)),
      fun hk hpinned => (hact (by simp) hk _).1 _ (hunpin.trans (if_pos hpinned)),
      fun hk hpinned => (hact (by simp) hk _).1 _ (hunpin.trans (if_neg (by simp [hpinned]))),
      fun hk => (hact (by simp) hk _).1 _ hevict, fun hk hchecked => (hact (by simp) hk _).1 _ (haccept.trans (if_pos hchecked)),
      fun hk hchecked => (hact (by simp) hk _).2 (haccept.trans (if_neg (by simp [hchecked]))), fun hk => (hact (by simp) hk _).1 _ hwithdraw⟩
  · obtain ⟨i, k⟩ := c
    have hne : k ≠ 8 := by
      rintro rfl
      simp at hc
    have hc' : (i, k) ∈ [(Instr.larderPrefetch sess, 1), (.larderPin sess, 2), (.larderUnpin sess, 3), (.larderEvict sess, 4),
        (.larderAccept sess, 5), (.larderWithdraw sess, 6), (.larderInstall sess, 7), (.larderQuery sess, 8)] := by
      simp only [List.mem_cons, List.not_mem_nil, or_false] at hc ⊢
      tauto
    exact (larderAct_allowed hup hx hidle hmay hyes hc' hk _).1 _ ((larderDo_of_none _ he).trans ((if_neg hne).trans (if_pos hquota)))
  · have hdo {k : Nat} (hne : k ≠ 8) := (larderDo_of_none (sess := sess) (action := k) (x.ownVal 0x3301 4) he).trans ((if_neg hne).trans (if_neg hquota))
    exact ⟨fun hk => (larderAct_allowed hup hx hidle hmay hyes (by simp) hk _).2 (hdo (by decide)),
      fun hk => (larderAct_allowed hup hx hidle hmay hyes (by simp) hk _).2 (hdo (by decide)),
      fun hk => (larderAct_allowed hup hx hidle hmay hyes (by simp) hk _).2 (hdo (by decide))⟩

end Sys2Proof.Machine
end

section
/-! Fills, rechecks, withdrawals and quotas of the Larder (spec/11 R325 to R346). -/

namespace Sys2Proof.Machine

/-! ### Fills (spec/11 R329, R330) -/

theorem larder_fillCarters (s : State) : s.fillCarters.larder = s.larder := by rw [fillCarters_frame s]

/-- A fill that has ended takes no further piece. -/
theorem finishWork_ended {s : State} {h : Nat} {e : LEntry} {st : Status} (he : s.larder.find h = some e) (hended : e.ended = some st)
    (record image manifest : List Byte) (fuel : Nat) : s.finishWork h record image manifest (fuel + 1) = s.fillCarters := by
  rw [finishWork_succ]
  have he' : s.fillCarters.larder.find h = some e := by rw [larder_fillCarters, he]
  generalize s.fillCarters = c at he' ⊢
  unfold State.finishPiece
  rw [he']
  split
  · next x n j hx hj =>
    cases hx
    rw [hended]
  · rfl

/-- The next piece of a fill's work, by the job that does it. -/
theorem finishWork_piece {s : State} {h n : Nat} {e : LEntry} {j : Job} {w : LarderWork} (he : s.larder.find h = some e) (hended : e.ended = none)
    (hj : s.fillCarters.jobs.find? (fun p => p.2.larder.map Prod.fst == some h) = some (n, j)) (hw : j.larder = some (h, w))
    (record image manifest : List Byte) (fuel : Nat) :
    let c := s.fillCarters
    let s1 := c.workDone n j h w (w.piece j.blocks record image manifest)
    s.finishWork h record image manifest (fuel + 1) =
      if c.jobRests j then c
      else if s1.jobs.find n = c.jobs.find n then s1 else s1.finishWork h record image manifest fuel := by
  rw [finishWork_succ]
  have he' : s.fillCarters.larder.find h = some e := by rw [larder_fillCarters, he]
  generalize s.fillCarters = c at he' hj ⊢
  unfold State.finishPiece
  rw [he', hj]
  dsimp only
  rw [hended, hw]

theorem endFill_of_ended {s : State} {h : Nat} {e : LEntry} {src : FillSrc} (he : s.larder.find h = some e) (hfill : e.filling = some src) {st : Status}
    (hended : e.ended = some st) : s.endFill h = if st = .ok then s.fillLands h e else s.fillFails h e st := by
  rw [State.endFill, he]
  dsimp only
  rw [hfill, hended]
  cases st <;> rfl

theorem fillComplete_held {s : State} (hact : s.activating ≠ none) (h : Nat) (record image manifest : List Byte) :
    exec (.fillComplete h record image manifest) s = .next s :=
  if_neg (by simpa using hact)

theorem fillComplete_free {s : State} (hact : s.activating = none) (h : Nat) (record image manifest : List Byte) :
    exec (.fillComplete h record image manifest) s = .next ((s.finishWork h record image manifest workPieces).endFill h).settle :=
  if_pos (by rw [hact]; rfl)

/-- A fill that has ended lands, or fails with its status. -/
theorem fillComplete_ended {s : State} {h : Nat} {e : LEntry} {src : FillSrc} (he : s.larder.find h = some e) (hfill : e.filling = some src)
    (hact : s.activating = none) {st : Status} (hended : e.ended = some st) (record image manifest : List Byte) :
    exec (.fillComplete h record image manifest) s =
      .next (if st = .ok then s.fillCarters.fillLands h e else s.fillCarters.fillFails h e st).settle := by
  have he' : s.fillCarters.larder.find h = some e := by rw [larder_fillCarters, he]
  rw [fillComplete_free hact, workPieces, finishWork_ended he hended, endFill_of_ended he' hfill hended]

/-! ### Blocks of an image (spec/11 R330, R344) -/

theorem workDone_image {s : State} (n : Nat) {h : Nat} (j : Job) {e : LEntry} (he : s.larder.find h = some e) (remote : List Byte) :
    let len := j.rec'.blockLen j.blocks
    let bs := remote.take len
    let s1 := s.larderRead j (j.rec'.raddr + 65536 * j.blocks) len remote
    let s2 := (s1.store (e.blockPa j.blocks) bs).perf j.allot 6 bs.length
    (s.qpLive j.allot j.rec'.qp = false → s.workDone n j h .image remote = s.workEnds n h .memberLost) ∧
    (s.qpLive j.allot j.rec'.qp = true →
      (remote.length < len ∨ e.manifest[j.blocks]? ≠ some (adaptTally e.owner e.adapt j.blocks bs) →
        s.workDone n j h .image remote = s1.workEnds n h .tallyMismatch) ∧
      (len ≤ remote.length → e.manifest[j.blocks]? = some (adaptTally e.owner e.adapt j.blocks bs) →
        (j.blocks = 0 → s2.headerStatus e (ofLe (bs.take 256)) ≠ .ok →
          s.workDone n j h .image remote = s2.workEnds n h (s2.headerStatus e (ofLe (bs.take 256)))) ∧
        (0 < j.blocks ∨ s2.headerStatus e (ofLe (bs.take 256)) = .ok → s.workDone n j h .image remote = s2.workMoved n j h))) := by
  intro len bs s1 s2
  have hwork : s.workDone n j h .image remote = s.blockComes n j h e remote := by rw [State.workDone, he]
  rw [hwork]
  refine ⟨fun hdead => if_pos (by simp [hdead]), fun hlive => ?_⟩
  have hlive' : s.blockComes n j h e remote =
      if (decide (remote.length < len) || !e.blockOk j.blocks bs) = true then s1.workEnds n h .tallyMismatch else s1.landBlock n j h e bs :=
    if_neg (by simp [hlive])
  have hbad : (decide (remote.length < len) || !e.blockOk j.blocks bs) = true ↔
      remote.length < len ∨ e.manifest[j.blocks]? ≠ some (adaptTally e.owner e.adapt j.blocks bs) := by
    rw [Bool.or_eq_true, decide_eq_true_eq, Bool.not_eq_true', LEntry.blockOk, beq_eq_false_iff_ne]
  rw [hlive']
  refine ⟨fun hno => if_pos (hbad.mpr hno), fun hlen hok => ?_⟩
  rw [if_neg (mt hbad.mp (not_or.mpr ⟨Nat.not_lt.mpr hlen, not_not_intro hok⟩))]
  have hland : s1.landBlock n j h e bs =
      if (if j.blocks = 0 then s2.headerStatus e (ofLe (bs.take 256)) else .ok) = .ok then s2.workMoved n j h
      else s2.workEnds n h (if j.blocks = 0 then s2.headerStatus e (ofLe (bs.take 256)) else .ok) := rfl
  rw [hland]
  refine ⟨fun hfirst hst => ?_, fun hgood => ?_⟩
  · rw [if_pos hfirst, if_neg hst]
  · refine if_pos ?_
    split
    · next hfirst => exact hgood.resolve_left (by omega)
    · rfl

theorem workDone_recheck {s : State} (n : Nat) {h : Nat} (j : Job) {e : LEntry} (he : s.larder.find h = some e) :
    let len := j.rec'.blockLen j.blocks
    let bs := s.load (e.blockPa j.blocks) len
    s.workDone n j h .recheck [] =
      if s.poisonedRange (e.blockPa j.blocks) len = false ∧ e.manifest[j.blocks]? = some (adaptTally e.owner e.adapt j.blocks bs) then
        s.workMoved n j h
      else s.workEnds n h .tallyMismatch := by
  intro len bs
  have hwork : s.workDone n j h .recheck [] = s.blockRechecked n j h e := by rw [State.workDone, he]
  have hbad : (s.poisonedRange (e.blockPa j.blocks) len || !e.blockOk j.blocks bs) = true ↔
      ¬ (s.poisonedRange (e.blockPa j.blocks) len = false ∧ e.manifest[j.blocks]? = some (adaptTally e.owner e.adapt j.blocks bs)) := by
    rw [Bool.or_eq_true, Bool.not_eq_true', LEntry.blockOk, beq_eq_false_iff_ne, not_and_or, Bool.not_eq_false]
  rw [hwork]
  split
  · next hgood => exact if_neg fun h => hbad.mp h hgood
  · next hno => exact if_pos (hbad.mpr hno)

/-! ### The grace of a withdrawal (spec/11 R337) -/

theorem withdrawalGrace_rows {s : State} {h t0 : Nat} {e : LEntry} (he : s.larder.find h = some e) (hstate : e.state = 5) (ht0 : e.withdrawnAt = some t0) :
    (s.timer < t0 + s.reg 0x3300 0x04 * 1000 → exec (.withdrawalGraceExpiry h) s = .next s) ∧
    (s.activating ≠ none → exec (.withdrawalGraceExpiry h) s = .next s) ∧
    (s.activating = none → t0 + s.reg 0x3300 0x04 * 1000 ≤ s.timer →
      let g := s.greenAllot
      let s1 := (s.allotCores g).foldl (fun u c => u.faultRange g c (larderVa h) e.bytes) s
      let s2 := s1.modEntry h (fun x => { x with greenMapped := false })
      exec (.withdrawalGraceExpiry h) s = .next ((s2.greenSlots.filter (fun p => p.2.handle == some h && !p.2.dead)).foldl
        (fun u p => u.killSlot p.1 p.2 .adaptationWithdrawn) s2).settle) := by
  have hexec : exec (.withdrawalGraceExpiry h) s = execWithdrawalGraceExpiry h s := rfl
  rw [execWithdrawalGraceExpiry, he] at hexec
  dsimp only at hexec
  rw [ht0] at hexec
  dsimp only at hexec
  refine ⟨fun hearly => hexec.trans (if_pos (.inr (.inr hearly))), fun hact => hexec.trans (if_pos (.inl (Option.isSome_iff_ne_none.mpr hact))),
    fun hact hdue => ?_⟩
  rw [hexec, if_neg (by simp [hact, hstate, hdue])]

/-! ### Rechecks (spec/11 R344, R345) -/

theorem larder_makeReady {s : State} {h : Nat} {e : LEntry} (he : s.larder.find h = some e) (kind : Nat) :
    (s.makeReady h kind).larder.find h = some { e with state := if e.state = 4 then 4 else 2 } := by
  unfold State.makeReady
  rw [he]
  dsimp only
  rw [larder_modEntry (s := s.logWeight _ _) he, Tbl.find_set_self]

theorem find_modEntry {s : State} {h : Nat} {e : LEntry} (he : s.larder.find h = some e) (f : LEntry → LEntry) :
    (s.modEntry h f).larder.find h = some (f e) := by rw [larder_modEntry he, Tbl.find_set_self]

section
variable {s : State} {h : Nat} {e : LEntry} (he : s.larder.find h = some e)
include he

theorem recheck_idle (hidle : e.ended = none ∨ e.state ≠ 3 ∨ e.checked = true) : s.recheck h = s := by
  rw [State.recheck, he]
  dsimp only
  cases hended : e.ended with
  | none => rfl
  | some st => exact if_pos (hidle.resolve_left (by simp [hended]))

variable (hstate : e.state = 3) (hchecked : e.checked = false)
include hstate hchecked

theorem recheck_mismatch {st : Status} (hended : e.ended = some st) (hst : st ≠ .ok) : s.recheck h = (s.withdraw h).wakeFills := by
  rw [State.recheck, he]
  dsimp only
  rw [hended]
  dsimp only
  rw [if_neg (by simp [hstate, hchecked]), if_pos hst]

/-- A recomputation without a mismatch: the entry is checked, and policy or the accepts that wait take it further. -/
theorem recheck_ok (hended : e.ended = some .ok) :
    let s1 := s.modEntry h (fun x => { x with checked := true, ended := none })
    s.recheck h = if s.reg 0x3305 e.owner = 1 ∨ e.accepters ≠ [] then
      ((if s.reg 0x3305 e.owner = 2 then s1 else s1.makeReady h 0x05).modEntry h (fun x => { x with accepters := [] })).wakeActions e.owner e.adapt
        e.accepters .ok
      else s1 := by
  intro s1
  rw [State.recheck, he]
  dsimp only
  rw [hended]
  dsimp only
  rw [if_neg (by simp [hstate, hchecked]), if_neg (not_not_intro rfl)]
  simp only [Bool.not_eq_true', List.isEmpty_eq_false_iff]
  rfl

theorem recheck_rows (hended : e.ended = some .ok) :
    (s.reg 0x3305 e.owner ≠ 1 → e.accepters = [] → s.recheck h = s.modEntry h (fun x => { x with checked := true, ended := none })) ∧
      (s.reg 0x3305 e.owner = 1 → e.accepters = [] → ∀ y, (s.recheck h).larder.find h = some y → y.state = 2) ∧
      (s.reg 0x3305 e.owner = 2 → e.accepters ≠ [] →
        (s.recheck h).larder.find h = some { e with checked := true, ended := none, accepters := [] }) := by
  have hok := recheck_ok he hstate hchecked hended
  dsimp only at hok
  have hs1 := find_modEntry he (fun x => { x with checked := true, ended := none })
  generalize s.modEntry h (fun x => { x with checked := true, ended := none }) = s1 at hok hs1 ⊢
  refine ⟨fun hpolicy hnone => ?_, fun hpolicy hnone y hy => ?_, fun hpolicy hsome => ?_⟩
  · rw [hok, if_neg (by simp [hpolicy, hnone])]
  · rw [hok, if_pos (.inl hpolicy), larder_wakeActions, if_neg (by omega), find_modEntry (larder_makeReady hs1 5)] at hy
    cases hy
    simp [hstate]
  · rw [hok, if_pos (.inr hsome), larder_wakeActions, if_pos hpolicy, find_modEntry hs1]

end

/-! ### Quotas (spec/11 R325, R346) -/

theorem quotaRow_of_session {s : State} {sess n : Nat} (idx v : Nat) (hup : s.answers = true) (hidle : s.sessionIdle sess = true)
    (hsess : (s.session sess).isSome = true) (hn : n < 256) :
    s.quotaRow sess idx n v = .next ((s.writeQuota sess idx n v).1.emit (.wrote sess idx n (s.writeQuota sess idx n v).2.1)).settle := by
  obtain ⟨x, hx⟩ := Option.isSome_iff_exists.mp hsess
  rw [State.quotaRow, rowOf_of_session hup hidle hx, if_pos hn]

/-- A quota takes no more than its range and what is asked for, and answers CLAMPED for less. -/
theorem writeQuota_bounds (s : State) (sess idx n v : Nat) : let r := s.writeQuota sess idx n v
    r.2.2 ≤ (if idx = 0x3302 then 16384 else 442368) ∧ r.2.2 ≤ v ∧ (r.2.1 = .ok → r.2.2 = v) ∧ (r.2.1 = .clamped → r.2.2 < v) := by
  intro r
  have hr : r = s.writeQuota sess idx n v := rfl
  unfold State.writeQuota at hr
  dsimp only at hr
  split at hr
  · rw [hr]
    exact ⟨Nat.zero_le _, Nat.zero_le _, nofun, nofun⟩
  · split at hr
    · rw [hr]
      exact ⟨Nat.zero_le _, Nat.zero_le _, nofun, nofun⟩
    · rw [hr]
      dsimp only
      refine ⟨(Nat.min_le_right ..).trans (Nat.min_le_right ..), (Nat.min_le_right ..).trans (Nat.min_le_left ..), fun hok => ?_, fun hclamped => ?_⟩
      · by_contra hne
        rw [if_neg hne] at hok
        cases hok
      · refine lt_of_le_of_ne ((Nat.min_le_right ..).trans (Nat.min_le_left ..)) fun heq => ?_
        rw [if_pos heq] at hclamped
        cases hclamped

/-- Settles O48: fills and their blocks, the grace of a withdrawal, rechecks, and quotas. -/
theorem larderUpkeep : Obligations.LarderUpkeep := by
  refine ⟨fun s h e src he hfill record image manifest => ⟨fun hact => fillComplete_held hact h record image manifest,
      fun hact _ => fillComplete_free hact h record image manifest, ?_, ?_, fun n j w fuel hended hj hw => finishWork_piece he hended hj hw record image manifest fuel⟩,
    fun s n h j e remote he => workDone_image n j he remote, fun s n h j e he => workDone_recheck n j he,
    fun s h t0 e he hstate ht0 => withdrawalGrace_rows he hstate ht0,
    fun s h e he => ⟨fun hact => if_pos (by rw [hact]; rfl), fun hno => ?_, fun hact => if_neg (by simpa using hact), recheck_idle he,
      fun hstate hchecked st => recheck_mismatch he hstate hchecked, recheck_rows he⟩,
    fun s sess n v w hup hidle hsess hn => ⟨?_, ?_⟩⟩
  · intro hact hended
    exact (fillComplete_ended he hfill hact hended record image manifest).trans (by rw [if_pos rfl])
  · intro st hact hended hst
    exact (fillComplete_ended he hfill hact hended record image manifest).trans (by rw [if_neg hst])
  · rw [State.finishRecheck, he]
    dsimp only
    refine if_neg fun ⟨hstate, hchecked, hended⟩ => ?_
    rcases hno with hno | hno | hno
    · exact hno hstate
    · exact Bool.false_ne_true (hchecked.symm.trans hno)
    · exact hno hended
  · obtain ⟨hrange, hasked, hok, hclamped⟩ := writeQuota_bounds s sess 0x3302 n v.toNat
    exact ⟨quotaRow_of_session 0x3302 v.toNat hup hidle hsess hn, hrange, hasked, hok, hclamped⟩
  · obtain ⟨hrange, hasked, hok, -⟩ := writeQuota_bounds s sess 0x3303 n w.toNat
    exact ⟨quotaRow_of_session 0x3303 w.toNat hup hidle hsess hn, hrange, hasked, hok⟩

end Sys2Proof.Machine
end
